-- ==== Sys2Proof/Word.lean ====
section
/-!
DEFINITION. The word types of the block and their plainest arithmetic.
-/
namespace Sys2Proof

/-- A register, 32 bits wide and accessed whole (R27). -/
abbrev Word := BitVec 32
/-- A sector of 32 B (R18). -/
abbrev Sector := BitVec 256
/-- The 64 data bytes of a line, byte 0 in bits 7:0 (R16, R18). -/
abbrev LineData := BitVec 512
/-- The byte enables or the data lanes of one beat on a request port (R106). -/
abbrev BeatEn := BitVec 512
abbrev BeatData := BitVec 4096

/-- Data by number, keys strictly rising; what an absent key reads as belongs to the map's reader. -/
abbrev SMap (α : Type) := List (Nat × α)

end Sys2Proof
end

