-- ==== Sys2Proof/Syntax.lean ====
section
/-!
DEFINITION. The commands of one Deloth instance: one constructor of `Instr` for each row of the command table, in
the table's order, with the row's operands. What a command carries is what the world outside the instance decides:
a header on a port, a message on the die link, an access on the configuration port, an event on a pin, the outcome
of something analogue, or the instant at which an internal unit acts.
-/
namespace Sys2Proof

/-- How far an accepted header runs by itself (R542 gives every crossing an upper bound only): `through` lets it go
on as far as nothing obstructs it; `hold` leaves it in the crossing queue of its port, until REQUEST_ADMIT. -/
inductive Flow where
  | through
  | hold
deriving DecidableEq, Repr

/-- The signals of one header beat of a request port (R106). -/
structure Header where
  port : Fin 16
  tag  : BitVec 8
  /-- dl_qpn_req_addr[38:5]. -/
  addr : BitVec 34
  len  : BitVec 7
  hint : BitVec 2
  attr : BitVec 16
  be   : BeatEn
  data : BeatData
  flow : Flow
deriving DecidableEq, Repr

/-- Response codes of R120. -/
inductive Rsp where
  | okay | poison | range | denied | refused | absent | length
deriving DecidableEq, Repr

/-- Who makes a register access: the host driver over YCP, or the manager (R31, R476). -/
inductive Agent where
  | host | manager
deriving DecidableEq, Repr

/-- One write access at the YCP arbiter, or both inputs in the same MCLK (R476). -/
inductive WriteBy where
  | host (v : Word)
  | manager (v : Word)
  | both (hostV mgrV : Word)
deriving DecidableEq, Repr

/-- The request type of a forwarded request, as a number 0 to 11 (R111). -/
abbrev TypeCode := BitVec 4

/-- What a die-link message carries (R463). Instances are numbered 0 to 3. -/
inductive MsgBody where
  | req (seq : BitVec 16) (master : Fin 24) (tag : Nat) (ty : TypeCode) (addr : BitVec 34) (len : BitVec 7)
        (hint : BitVec 2) (attr : BitVec 16) (prio : BitVec 3) (beats : List (BeatEn × BeatData))
  | rsp (tag : Nat) (code : Rsp) (poison : List Nat) (data : List BeatData)
  | hello (inst mgr : BitVec 2) (rev : BitVec 8)
  | image (off : Nat) (bytes : List (BitVec 32))
  | verdict (reason : Option (BitVec 4))
  | apply
  | applied
  | regWrite (off : BitVec 24) (v : Word)
  | regAck (off : BitVec 24) (taken : Bool)
  | heartbeat (seq : BitVec 8) (present : BitVec 4)
  | hbAck (seq : BitVec 8) (ready fatal : Bool)
  | report (phase : BitVec 4) (point : BitVec 2) (a : BitVec 24)
  | absentSet (inst : BitVec 2) (cause : BitVec 3)
  | absentClear (inst : BitVec 2)
  | leave
deriving DecidableEq, Repr

/-- A message with its source and its destination instance. -/
structure Msg where
  src  : BitVec 2
  dst  : BitVec 2
  body : MsgBody
deriving DecidableEq, Repr

/-- One poll (R321): what the sensors of the two layers of each near tile hold, and in °C what each stack reports; `none`
is a sensor without a valid conversion, or a stack that is not ready (R411, R422). A near tile that is not listed has
nothing valid. The hem cycles are those in which the poll's changes of refresh spacing act, in NR, FR0 and FR1 (R324). -/
structure Readings where
  near : List (Fin 256 × Option (BitVec 8) × Option (BitVec 8))
  far0 : Option Int
  far1 : Option Int
  nclk : Nat
  fclk0 : Nat
  fclk1 : Nat
deriving DecidableEq, Repr

/-- What a training of one hem measures (R414, R420, R423). Near: MR0 and MR1 of each layer, the narrowest eyes of the
command, read and write steps over both rates in steps of 1/64 UI, the bit errors of step 6, and whether the impedance
calibration stays in range. Far: the narrowest eye (`eyeRead`), and whether the stack's training passes. `pin` is the
lowest-numbered pin that failed the step which fails. -/
structure Trial where
  id0      : BitVec 16 × BitVec 16
  id1      : BitVec 16 × BitVec 16
  eyeCmd   : BitVec 8
  eyeRead  : BitVec 8
  eyeWrite : BitVec 8
  errs     : Nat
  zqOk     : Bool
  farOk    : Bool
  pin      : Option (Fin 292)
deriving DecidableEq, Repr

/-- The trial of one hem at a start. -/
structure HemTrial where
  tile  : Fin 320
  trial : Trial
deriving DecidableEq, Repr

/-- The value on a command bus and its parity bit, as a layer samples them on the two edges of one NCLK (R402, R403,
R406): the bits that differ from what the hem drove. -/
structure BusFlips where
  row0 : BitVec 11
  row1 : BitVec 11
  col0 : BitVec 9
  col1 : BitVec 9
deriving DecidableEq, Repr

/-- A parity report: the layers that raise it (SOURCE, R407), and what they sampled. -/
structure ParityHit where
  source : BitVec 2
  flips  : BusFlips
deriving DecidableEq, Repr

/-- The bit errors of a loopback burst and its first failing pin (R417). -/
structure BurstErrs where
  bits : BitVec 32
  pin  : Fin 272
deriving DecidableEq, Repr

/-- A self-test failure (R353, R354): a unit, its phase 0 to 4 and its first failing vector (R543). -/
inductive TestUnit where
  | tile (t : Fin 320)
  | press (t : Fin 320)
  | panel (p : Fin 20)
  | blank
deriving DecidableEq, Repr

structure TestFail where
  unit   : TestUnit
  phase  : Fin 5
  vector : BitVec 9
deriving DecidableEq, Repr

/-- The ECC report of one burst of a far read (R420, R422). -/
inductive Ecc where
  | none | corrected | uncorrected
deriving DecidableEq, Repr

/-- The bits that change in one Ledger line when M21 reads it at a start, and the stack's reports on it (R337, R497). -/
structure LedgerFlaw where
  tile : Fin 320
  bank : BitVec 6
  row  : BitVec 14
  col  : BitVec 5
  data : BitVec 512
  code : BitVec 32
  ecc0 : Ecc
  ecc1 : Ecc
deriving DecidableEq, Repr

/-- What the analogue side of a start decides. -/
structure StartOutcome where
  temps  : Readings
  /-- Every eye of a hem that `train` does not list. -/
  margin : BitVec 8
  train  : List HemTrial
  test   : List TestFail
  ledger : List LedgerFlaw
deriving DecidableEq, Repr

/-- One occurrence of a cause of a pending register: its bit, and the master and the bolt that an event which lists M or A
carries (R509). -/
structure Occurrence where
  cause  : Fin 32
  master : Fin 24
  bolt   : BitVec 26
deriving DecidableEq, Repr

/-- A W1C write of DLI_IRQ_PENDn, and the occurrences of its causes in the same MCLK (R30). -/
structure PendClear where
  value : BitVec 32
  met   : List Occurrence
deriving DecidableEq, Repr

/-- An error of a request port: its bit of DLQ_PORT_ERRn, and the tag of the header or beat (R147, R148). -/
structure PortErr where
  kind : Fin 6
  tag  : BitVec 8
deriving DecidableEq, Repr

/-- A write of a register, and the errors that a port meets in its MCLK where the register is its DLQ_PORT_ERRn (R30, R148). -/
structure RegisterWrite where
  by_ : WriteBy
  met : List PortErr
deriving DecidableEq, Repr

/-- A read of a register with RC fields, and what the hardware adds to these fields in the same MCLK (R30). Where the register
shows a captured record, `met` is the record that a new capture brings. -/
structure CountRead where
  off : BitVec 24
  met : BitVec 32
deriving DecidableEq, Repr

/-- The link that has trained: one of this instance's, or the one between its neighbour on a link and the opposite instance, of
which the neighbour's adapter tells (R457, R460, R466). -/
inductive HelloLink where
  | own (j : Fin 2)
  | far (j : Fin 2)
deriving DecidableEq, Repr

/-- How the last path to an instance goes down: the links that face it beyond this instance's own are down, and where the
instance is in reset, this instance's own link to it retrains too (R462, R466). -/
structure PathLoss where
  inst  : BitVec 2
  reset : Bool
deriving DecidableEq, Repr

/-- A module's retrain or lane repair at runtime: the adapter retries of its link since the last one, and whether it has
succeeded (R462). -/
structure ModuleEvent where
  retries  : BitVec 16
  repaired : Bool
deriving DecidableEq, Repr

/-- What one PMBus rail read of a slot brings (R432 to R434). -/
inductive PmResult where
  | pout (linear11 : BitVec 16)
  | voutIout (mode : BitVec 8) (vout iout : BitVec 16)
  | nack
  | pec
  | timeout
deriving DecidableEq, Repr

/-- Bits of an on-chip SRAM that have changed by themselves since they were written. -/
inductive Upset where
  /-- One bit of an entry of the tile's slice, the 512 data bits before the 32 of its CRC-32C: of a cacheable way, or of
  the diagnostic way (R149, R184, R185). -/
  | press (set : Fin 1024) (way : Fin 16) (bit : Fin 544)
  /-- A tub line of the tile's slice: the one that holds accumulators lo to lo + n − 1 of a tub (R185, R244). -/
  | tub (id : BitVec 16) (lo n : Nat) (set : Fin 1024) (way : Fin 16)
  /-- A word of the Blank map (R351): one bit, or an uncorrectable error. -/
  | blank (word : Fin 983040) (uncorr : Bool)
  /-- A word of the Mend map (R374). -/
  | mend (word : Fin 983040) (uncorr : Bool)
deriving DecidableEq, Repr

/-- The commands, one for each row of the command table. -/
inductive Instr where
  | read (h : Header)
  | write (h : Header)
  | writebolt (h : Header)
  | zero (h : Header)
  | prefetch (h : Header)
  | clean (h : Header)
  | flush (h : Header)
  | atomicAdd (h : Header)
  | atomicMax (h : Header)
  | atomicMin (h : Header)
  | atomicSwap (h : Header)
  | atomicCas (h : Header)
  | contrib (h : Header)
  | tubOpen (h : Header)
  | tubAmendSet (h : Header)
  | tubAmendAdd (h : Header)
  | tubAmendSub (h : Header)
  | tubDrain (h : Header)
  | reservedType (h : Header) (ty : Fin 4)
  | dataBeat (port : Fin 16) (tag : BitVec 8) (be : BeatEn) (data : BeatData) (flow : Flow)
  | requestAdmit (m : Fin 24)
  | creditReturn (m : Fin 24)
  | responseLeave (port : Fin 16)
  | reqMaskSet (m : Fin 24)
  | reqMaskClear (m : Fin 24)
  | tileGrant (t : Fin 320) (upset : Option Upset)
  | quotaWindowEnd
  | pressFillReturn (t : Fin 320)
  | victimToHamper (t : Fin 320)
  | dirtyWriteback (t : Fin 320)
  | cleanAll
  | flushAll
  | invalidateAll
  | maintDone
  | contribStaged
  | keySwitch
  | batchBegin
  | contribReduced (t : Fin 256)
  | drainDeliver (t : Fin 256)
  | chunkRelease
  | leaseRead (t : Fin 256)
  | leaseWriteback (t : Fin 256)
  | tubAbortFail (tub : BitVec 16)
  | tubAbortRelease (tub : BitVec 16)
  | straggler (tub : BitVec 16)
  | numq (tub : BitVec 16)
  | hwmDrain (t : Fin 320)
  | forcedDrain (t : Fin 320)
  | idleDrain (t : Fin 320)
  | drainRoundEnd (t : Fin 320)
  | writeAgeUrgent (t : Fin 320)
  | readEscalate (t : Fin 320) (bg : Bool)
  | columnCommandIssue (t : Fin 320) (at_ : Nat)
  | rowCommandIssue (t : Fin 320) (at_ : Nat)
  | rowIdleClose (t : Fin 320) (bank : BitVec 6) (at_ : Nat)
  | powerDownEntry (t : Fin 320) (rank : Fin 2) (at_ : Nat)
  | powerDownExit (t : Fin 320) (rank : Fin 2) (at_ : Nat)
  | lineReadReturn (t : Fin 320) (flipData : LineData) (flipMeta : BitVec 32) (ecc0 ecc1 : Ecc)
  | rebuildDone (p : Fin 20)
  | stainConversion (p : Fin 20)
  | reconstructWrite (p : Fin 20)
  | refreshDue (t : Fin 320) (target : BitVec 6) (at_ : Nat)
  | refreshRepay (t : Fin 320) (rank : Fin 2) (at_ : Nat)
  | rfmRequest (t : Fin 320) (bank : BitVec 6) (at_ : Nat)
  | tempPoll (r : Readings)
  | parityReport (t : Fin 320) (hit : ParityHit) (onRefresh : Bool) (at_ : Nat)
  | tileFreeze (t : Fin 320)
  | frzReturn (t : Fin 320)
  | frzKeepOut (t : Fin 320)
  | frzReturnAll (t : Fin 320)
  | schedCtrlWrite (t : Fin 320) (v : Word)
  | regWindowEnd
  | takeOut (t : BitVec 9)
  | takeOutLift (t : BitVec 9) (slot : BitVec 2)
  | svcReturn (t : BitVec 9)
  | svcReturnAll (t : BitVec 9)
  | takeOutDrainDone (t : Fin 320)
  | liftReady (t : Fin 320)
  | markScanDone (t : Fin 320)
  | walkBolt (p : Fin 20)
  | channelReturned (p : Fin 20)
  | rinseEntry (t : Fin 320)
  | rinseBoltDone (p : Fin 20)
  | patchMoveStart (t : Fin 320)
  | patchColumn (t : Fin 320)
  | rowPatched (t : Fin 320)
  | wearWindowEnd
  | retirePop
  | retrain (t : Fin 320)
  | loopNearEnd (t : Fin 320)
  | loopFarEnd (t : Fin 320)
  | loopStop (t : Fin 320)
  | retrainDone (t : Fin 320) (r : Trial)
  | loopbackBurstEnd (t : Fin 320) (errs : BurstErrs) (at_ : Nat)
  | zqCalibration (t : Fin 320)
  | readTracking (t : Fin 320) (drift : BitVec 8) (pin : BitVec 9)
  | energySample
  | energyWindowEnd
  | pmbusReadDone (slot : Fin 8) (r : PmResult)
  | rateChangeRegion (locked : Bool)
  | droopStart
  | droopEnd
  | rearm
  | purseGrantWrite (w : WriteBy)
  | opWrite (k : Fin 4) (v : Word)
  | reqMessage (m : Msg)
  | reqSeqSkip (src : BitVec 2)
  | rspMessage (m : Msg)
  | remoteTimeout
  | hello (link : HelloLink) (modules : BitVec 5) (inst mgr : BitVec 2) (rev : BitVec 8)
  | image (off : BitVec 20) (words : List Word)
  | verdict (src : BitVec 2) (reason : Option (BitVec 4))
  | apply
  | applied (src : BitVec 2)
  | regWrite (off : BitVec 24) (v : Word)
  | regAck (src : BitVec 2) (off : BitVec 24) (taken : Bool)
  | heartbeatSend
  | heartbeat (seq : BitVec 8) (present : BitVec 4) (toggled : Bool)
  | hbAck (src : BitVec 2) (seq : BitVec 8) (ready fatal : Bool)
  | report (src : BitVec 2) (phase : BitVec 4) (point : BitVec 2) (a : BitVec 24)
  | absentSet (inst : BitVec 2) (cause : BitVec 3)
  | absentClear (inst : BitVec 2)
  | leave (src : BitVec 2)
  | bcastTimeout (inst : BitVec 2)
  | managerLost
  | linkModuleDown (module : Fin 10) (event : ModuleEvent)
  | linkDown (loss : PathLoss)
  | join (inst : BitVec 2)
  | evict (inst : BitVec 2)
  | resetAssert
  | resetDeassert (instId mgrSel : BitVec 2)
  | memReset (asserted : Bool)
  | imgDataWrite (v : Word)
  | go
  | patternVerify
  | patternApply
  | coldStart (o : StartOutcome)
  | warmStart (o : StartOutcome)
  | orderlyEntry
  | disorderlyEntry
  | blankClear
  | blankQuery (bolt : BitVec 26)
  | lintRecordWrite
  | lintTailWrite (v : Word)
  | tallyClear (mask : BitVec 9)
  | tallyFreeze (b : Bool)
  | irqClear (n : Fin 8) (w : PendClear)
  | irqSet (n : Fin 8) (v : Word)
  | rcRead (a : Agent) (r : CountRead)
  | splitLoRead (a : Agent) (off : BitVec 24)
  | splitLoWrite (a : Agent) (off : BitVec 24) (v : Word)
  | splitHiWrite (a : Agent) (off : BitVec 24) (v : Word)
  /-- With the errors that its port, where it is a DLQ_PORT_ERRn, meets in the same MCLK (R30, R148). -/
  | registerWrite (off : BitVec 24) (w : RegisterWrite)
  | wsBypass
  | wsExtest
  | wsIntest
  | memTest
  | fuseRead
  | fuseProg (which : Fin 9) (v : BitVec 384)
  | wrapperReset
  | ycpErr (write : Bool) (addr : BitVec 22) (wdata : Word) (par : Bool)
  | splitHiRead (a : Agent) (off : BitVec 24)
  | tallySat (n : Fin 8)
  | blankClearDone
  | messageRelay (link : Fin 2) (m : Msg)
  | badAttr (h : Header) (aop : Fin 3)
  | tubAmendKindReserved (h : Header)
deriving DecidableEq, Repr

end Sys2Proof
end

