-- ==== Sys2Proof/Decode.lean ====
section
/-!
DEFINITION. The command that a word spells by the command table's bits. The table gives no row bits: a command is not
an encoded word, so no word spells one.
-/
namespace Sys2Proof

/-- The command a word spells by the table's bits: none, as the table gives no row bits. -/
def decodeTableWord (_nbits _w : Nat) : Option Instr := none

end Sys2Proof
end

