-- ==== Sys2Proof/Config.lean ====
section
/-!
DEFINITION. The values the spec leaves open: constants without a body, so that no proof can rest on one.
-/
namespace Sys2Proof.Config

/-- Free value number n: the contents of a memory line whose contents the spec calls undefined where they are
read without a check code of their own (a parity line of R336 that nothing has written). Log entry 9. -/
opaque freeLine : Nat → BitVec 512
/-- Free value number n: the 32 metadata bits beside `freeLine`. Log entry 9. -/
opaque freeMeta : Nat → BitVec 32
/-- Free value number n: whether a read after a LASTUSE read sees the discarded value (true) or the value
memory holds (false), which R168 does not define. Log entry 10. -/
opaque freeChoice : Nat → Bool
/-- Bytes that a message of a kind takes on a link beyond its payload; R458 and R460 do not state the layout. Log entry 11. -/
opaque msgOverhead : Nat → Nat
/-- Words of the TRAIN section of a hem: "its layout is internal to the hem" (R494). Log entry 12. -/
opaque trainWord : Nat → Nat → BitVec 32
/-- The order in which an instance shifts its fuses out, as the place that each takes among those after it: R540 does not state it.
Log entry 13. -/
opaque fuseBit : Nat → Nat
/-- Free value number n: the stored power of a rail whose reading is negative or above the 24 bits of POWER, which R433
does not state. Log entry 23. -/
opaque railPower : Nat → BitVec 24
/-- The message revision of R457, whose value no rule gives. Log entry 25. -/
opaque revision : BitVec 8
/-- The HELLO word of a link's peer in a LINK_MISMATCH record: instance, manager and revision; R477 does not state its
layout. Log entry 25. -/
opaque helloWord : BitVec 2 → BitVec 2 → BitVec 8 → Nat
/-- Entries of the reorder store that a REQ message with n data beats takes; R464 does not state it. Log entry 11. -/
opaque reorderEntries : Nat → Nat
/-- Free value number n: the CAUSE that a worker shows for a mark which it applies from a present set; R470 states none.
Log entry 26. -/
opaque markCause : Nat → BitVec 3
/-- The revision word of a hem's TRAIN section, whose value no rule gives (R494). Log entry 12. -/
opaque hemRevision : BitVec 32
/-- The vector number that the SELFTEST_FAIL record of a tile gives whose hem failed training: R499 counts it as a PATH
failure and states no vector. Log entry 28. -/
opaque hemVector : Nat → Nat

end Sys2Proof.Config
end

