-- ==== Sys2Proof/Machine/RegMap.lean ====
section
/-!
DEFINITION. The register window (R535 to R537): every register with its offset, its count and its field map, from the
field maps of the chapters. The fields of a register that are not listed are reserved (R29).
-/
namespace Sys2Proof.Machine

/-- Access codes (R28). -/
inductive Access where
  | rw | ro | rc | w1c | w1s | wo | rwl
deriving DecidableEq, Repr

/-- Owners (R31). -/
inductive Own where
  | none | h | m | hm
deriving DecidableEq, Repr

/-- One row of a field map (R27): bits hi to lo, access, reset value, owner. -/
structure Field where
  hi    : Nat
  lo    : Nat
  acc   : Access
  reset : Nat
  own   : Own
deriving DecidableEq, Repr

/-- A register, or an array of them at base + i × outer stride + j × inner stride. -/
structure RegDesc where
  base    : Nat
  count   : Nat
  stride  : Nat
  count2  : Nat
  stride2 : Nat
  fields  : List Field
deriving DecidableEq, Repr

namespace RegMap

def part0 : List RegDesc := [
  ⟨0x0, 1, 0x1000000, 1, 4, [⟨31, 16, .ro, 0xD470, .none⟩, ⟨15, 8, .ro, 0x1, .none⟩, ⟨7, 0, .ro, 0x0, .none⟩]⟩, -- DLI_ID
  ⟨0x4, 1, 0x1000000, 1, 4, [⟨31, 0, .ro, 0x0, .none⟩]⟩, -- DLI_UID_LO
  ⟨0x8, 1, 0x1000000, 1, 4, [⟨31, 0, .ro, 0x0, .none⟩]⟩, -- DLI_UID_HI
  ⟨0xC, 1, 0x1000000, 1, 4, [⟨6, 0, .ro, 0x0, .none⟩]⟩, -- DLI_SEQ
  ⟨0x10, 1, 0x1000000, 1, 4, [⟨31, 31, .ro, 0x0, .none⟩, ⟨30, 30, .ro, 0x0, .none⟩, ⟨29, 29, .ro, 0x0, .none⟩, ⟨28, 28, .ro, 0x0, .none⟩, ⟨27, 27, .ro, 0x0, .none⟩, ⟨26, 26, .ro, 0x0, .none⟩, ⟨15, 0, .ro, 0xFFFF, .none⟩]⟩, -- DLI_STATUS
  ⟨0x14, 1, 0x1000000, 1, 4, [⟨31, 31, .rw, 0x1, .h⟩]⟩, -- DLI_CTRL
  ⟨0x20, 1, 0x1000000, 4, 4, [⟨31, 0, .rw, 0x0, .h⟩]⟩, -- DLI_SCRATCHs
  ⟨0x30, 1, 0x1000000, 1, 4, [⟨31, 31, .rc, 0x0, .none⟩, ⟨30, 30, .ro, 0x0, .none⟩, ⟨29, 28, .ro, 0x0, .none⟩, ⟨23, 2, .ro, 0x0, .none⟩]⟩, -- DLI_YCP_ERR
  ⟨0x34, 1, 0x1000000, 1, 4, [⟨31, 0, .rc, 0x0, .none⟩]⟩, -- DLI_YCP_ERR_COUNT
  ⟨0x40, 1, 0x1000000, 1, 4, [⟨15, 8, .ro, 0x0, .none⟩, ⟨7, 0, .ro, 0x0, .none⟩]⟩, -- DLI_IRQ_SUMMARY
  ⟨0x80, 1, 0x1000000, 1, 4, [⟨10, 0, .w1c, 0x0, .h⟩]⟩, -- DLI_IRQ_PEND0
  ⟨0x84, 1, 0x1000000, 1, 4, [⟨7, 0, .w1c, 0x0, .h⟩]⟩, -- DLI_IRQ_PEND1
  ⟨0x88, 1, 0x1000000, 1, 4, [⟨9, 0, .w1c, 0x0, .h⟩]⟩, -- DLI_IRQ_PEND2
  ⟨0x8C, 1, 0x1000000, 1, 4, [⟨8, 0, .w1c, 0x0, .h⟩]⟩, -- DLI_IRQ_PEND3
  ⟨0x90, 1, 0x1000000, 1, 4, [⟨3, 0, .w1c, 0x0, .h⟩]⟩, -- DLI_IRQ_PEND4
  ⟨0x94, 1, 0x1000000, 1, 4, [⟨4, 0, .w1c, 0x0, .h⟩]⟩, -- DLI_IRQ_PEND5
  ⟨0x98, 1, 0x1000000, 1, 4, [⟨7, 0, .w1c, 0x0, .h⟩]⟩, -- DLI_IRQ_PEND6
  ⟨0x9C, 1, 0x1000000, 1, 4, [⟨7, 0, .w1c, 0x0, .h⟩]⟩, -- DLI_IRQ_PEND7
  ⟨0xA0, 1, 0x1000000, 1, 4, [⟨10, 0, .rw, 0x0, .h⟩]⟩, -- DLI_IRQ_EN0
  ⟨0xA4, 1, 0x1000000, 1, 4, [⟨7, 0, .rw, 0x0, .h⟩]⟩, -- DLI_IRQ_EN1
  ⟨0xA8, 1, 0x1000000, 1, 4, [⟨9, 0, .rw, 0x0, .h⟩]⟩, -- DLI_IRQ_EN2
  ⟨0xAC, 1, 0x1000000, 1, 4, [⟨8, 0, .rw, 0x0, .h⟩]⟩, -- DLI_IRQ_EN3
  ⟨0xB0, 1, 0x1000000, 1, 4, [⟨3, 0, .rw, 0x0, .h⟩]⟩, -- DLI_IRQ_EN4
  ⟨0xB4, 1, 0x1000000, 1, 4, [⟨4, 0, .rw, 0x0, .h⟩]⟩, -- DLI_IRQ_EN5
  ⟨0xB8, 1, 0x1000000, 1, 4, [⟨7, 0, .rw, 0x0, .h⟩]⟩] -- DLI_IRQ_EN6

def part1 : List RegDesc := [
  ⟨0xBC, 1, 0x1000000, 1, 4, [⟨7, 0, .rw, 0x0, .h⟩]⟩, -- DLI_IRQ_EN7
  ⟨0xC0, 1, 0x1000000, 1, 4, [⟨10, 0, .w1s, 0x0, .h⟩]⟩, -- DLI_IRQ_SET0
  ⟨0xC4, 1, 0x1000000, 1, 4, [⟨7, 0, .w1s, 0x0, .h⟩]⟩, -- DLI_IRQ_SET1
  ⟨0xC8, 1, 0x1000000, 1, 4, [⟨9, 0, .w1s, 0x0, .h⟩]⟩, -- DLI_IRQ_SET2
  ⟨0xCC, 1, 0x1000000, 1, 4, [⟨8, 0, .w1s, 0x0, .h⟩]⟩, -- DLI_IRQ_SET3
  ⟨0xD0, 1, 0x1000000, 1, 4, [⟨3, 0, .w1s, 0x0, .h⟩]⟩, -- DLI_IRQ_SET4
  ⟨0xD4, 1, 0x1000000, 1, 4, [⟨4, 0, .w1s, 0x0, .h⟩]⟩, -- DLI_IRQ_SET5
  ⟨0xD8, 1, 0x1000000, 1, 4, [⟨7, 0, .w1s, 0x0, .h⟩]⟩, -- DLI_IRQ_SET6
  ⟨0xDC, 1, 0x1000000, 1, 4, [⟨7, 0, .w1s, 0x0, .h⟩]⟩, -- DLI_IRQ_SET7
  ⟨0x1000, 1, 0x1000000, 1, 4, [⟨31, 31, .wo, 0x0, .h⟩, ⟨0, 0, .rwl, 0x0, .h⟩]⟩, -- DLB_BOOT_CTRL
  ⟨0x1004, 1, 0x1000000, 1, 4, [⟨31, 31, .ro, 0x0, .none⟩, ⟨30, 30, .ro, 0x0, .none⟩, ⟨29, 29, .ro, 0x0, .none⟩, ⟨27, 24, .ro, 0x0, .none⟩]⟩, -- DLB_BOOT_STATUS
  ⟨0x1008, 1, 0x1000000, 1, 4, [⟨17, 0, .rw, 0x0, .h⟩]⟩, -- DLB_IMG_ADDR
  ⟨0x100C, 1, 0x1000000, 1, 4, [⟨31, 0, .wo, 0x0, .h⟩]⟩, -- DLB_IMG_DATA
  ⟨0x1010, 1, 0x1000000, 1, 4, [⟨31, 29, .ro, 0x0, .none⟩, ⟨27, 24, .ro, 0x0, .none⟩, ⟨23, 0, .ro, 0x0, .none⟩]⟩, -- DLB_IMG_STATUS
  ⟨0x1014, 1, 0x1000000, 1, 4, [⟨31, 31, .ro, 0x0, .none⟩, ⟨7, 4, .ro, 0x0, .none⟩]⟩, -- DLB_FUSE
  ⟨0x1018, 1, 0x1000000, 1, 4, [⟨31, 30, .wo, 0x0, .h⟩]⟩, -- DLB_WARM_CTRL
  ⟨0x101C, 1, 0x1000000, 1, 4, [⟨31, 31, .ro, 0x0, .none⟩, ⟨30, 28, .ro, 0x0, .none⟩, ⟨27, 24, .ro, 0x0, .none⟩]⟩, -- DLB_WARM_STATUS
  ⟨0x1020, 1, 0x1000000, 1, 4, [⟨31, 31, .ro, 0x0, .none⟩, ⟨30, 30, .ro, 0x0, .none⟩, ⟨29, 29, .ro, 0x0, .none⟩, ⟨24, 16, .ro, 0x0, .none⟩, ⟨8, 0, .ro, 0x0, .none⟩]⟩, -- DLB_LEDGER_STATUS
  ⟨0x1024, 1, 0x1000000, 1, 4, [⟨31, 0, .ro, 0x0, .none⟩]⟩, -- DLB_LEDGER_EPOCH
  ⟨0x1040, 1, 0x1000000, 12, 4, [⟨31, 0, .ro, 0x0, .none⟩]⟩, -- DLB_LAYOUTw
  ⟨0x2000, 1, 0x1000000, 16, 4, [⟨2, 0, .rw, 0x3, .h⟩]⟩, -- DLQ_PORT_CTRLn
  ⟨0x2040, 1, 0x1000000, 16, 4, [⟨31, 24, .ro, 0x0, .none⟩, ⟨18, 16, .ro, 0x0, .none⟩, ⟨5, 5, .w1c, 0x0, .h⟩, ⟨4, 4, .w1c, 0x0, .h⟩, ⟨3, 3, .w1c, 0x0, .h⟩, ⟨2, 2, .w1c, 0x0, .h⟩, ⟨1, 1, .w1c, 0x0, .h⟩, ⟨0, 0, .w1c, 0x0, .h⟩]⟩, -- DLQ_PORT_ERRn
  ⟨0x2100, 1, 0x1000000, 1, 4, [⟨20, 16, .rwl, 0x10, .h⟩, ⟨14, 8, .rwl, 0x50, .h⟩, ⟨7, 0, .rw, 0x4, .h⟩]⟩, -- DLQ_REG_CTRL
  ⟨0x2104, 1, 0x1000000, 1, 4, [⟨31, 24, .rwl, 0xEB, .h⟩, ⟨23, 16, .rwl, 0xF5, .h⟩, ⟨15, 8, .rwl, 0xEF, .h⟩, ⟨7, 0, .rwl, 0xF7, .h⟩]⟩, -- DLQ_REF_DERATE
  ⟨0x2108, 1, 0x1000000, 1, 4, [⟨31, 24, .rwl, 0x9F, .h⟩, ⟨23, 16, .rwl, 0xBF, .h⟩, ⟨15, 8, .rwl, 0xDF, .h⟩, ⟨7, 0, .rwl, 0xFF, .h⟩]⟩] -- DLQ_THR_DERATE0

def part2 : List RegDesc := [
  ⟨0x210C, 1, 0x1000000, 1, 4, [⟨31, 24, .rwl, 0x1F, .h⟩, ⟨23, 16, .rwl, 0x3F, .h⟩, ⟨15, 8, .rwl, 0x5F, .h⟩, ⟨7, 0, .rwl, 0x7F, .h⟩]⟩, -- DLQ_THR_DERATE1
  ⟨0x2110, 1, 0x1000000, 1, 4, [⟨23, 21, .rw, 0x1, .h⟩, ⟨20, 18, .rw, 0x7, .h⟩, ⟨17, 15, .rw, 0x5, .h⟩, ⟨14, 12, .rw, 0x2, .h⟩, ⟨11, 9, .rw, 0x3, .h⟩, ⟨8, 6, .rw, 0x1, .h⟩, ⟨5, 3, .rw, 0x6, .h⟩, ⟨2, 0, .rw, 0x4, .h⟩]⟩, -- DLQ_INT_PRIO
  ⟨0x2114, 1, 0x1000000, 1, 4, [⟨31, 0, .rw, 0x0, .h⟩]⟩, -- DLQ_TCLASS_MAP0
  ⟨0x2118, 1, 0x1000000, 1, 4, [⟨15, 0, .rw, 0x0, .h⟩]⟩, -- DLQ_TCLASS_MAP1
  ⟨0x211C, 1, 0x1000000, 1, 4, [⟨3, 0, .rw, 0x0, .h⟩]⟩, -- DLQ_MON_CTRL
  ⟨0x2120, 1, 0x1000000, 1, 4, [⟨31, 31, .ro, 0x0, .none⟩, ⟨10, 0, .ro, 0x400, .none⟩]⟩, -- DLQ_STATUS
  ⟨0x2124, 1, 0x1000000, 1, 4, [⟨20, 0, .ro, 0x0, .none⟩]⟩, -- DLQ_DELIVER
  ⟨0x2128, 1, 0x1000000, 1, 4, [⟨20, 0, .ro, 0x0, .none⟩]⟩, -- DLQ_GUAR_SUM
  ⟨0x212C, 1, 0x1000000, 1, 4, [⟨28, 16, .ro, 0x1800, .none⟩, ⟨12, 0, .ro, 0x0, .none⟩]⟩, -- DLQ_SHARED
  ⟨0x2130, 1, 0x1000000, 1, 4, [⟨31, 31, .rc, 0x0, .none⟩, ⟨9, 8, .ro, 0x0, .none⟩, ⟨4, 0, .ro, 0x0, .none⟩]⟩, -- DLQ_MISS_INFO
  ⟨0x2134, 1, 0x1000000, 1, 4, [⟨31, 0, .rc, 0x0, .none⟩]⟩, -- DLQ_MISS_COUNT
  ⟨0x2140, 1, 0x1000000, 4, 8, [⟨31, 0, .rc, 0x0, .none⟩]⟩, -- DLQ_TC_BYTESn_LO
  ⟨0x2144, 1, 0x1000000, 4, 8, [⟨31, 0, .rc, 0x0, .none⟩]⟩, -- DLQ_TC_BYTESn_HI
  ⟨0x2200, 1, 0x1000000, 24, 16, [⟨25, 16, .rwl, 0x0, .h⟩, ⟨15, 0, .rwl, 0x0, .h⟩]⟩, -- DLQ_Mm_GUAR
  ⟨0x2204, 1, 0x1000000, 24, 16, [⟨18, 16, .rw, 0x0, .h⟩, ⟨12, 0, .rw, 0x0, .h⟩]⟩, -- DLQ_Mm_LIMIT
  ⟨0x2208, 1, 0x1000000, 24, 16, [⟨31, 31, .ro, 0x0, .none⟩, ⟨30, 30, .ro, 0x0, .none⟩, ⟨12, 0, .ro, 0x0, .none⟩]⟩, -- DLQ_Mm_STAT
  ⟨0x220C, 1, 0x1000000, 24, 16, [⟨31, 0, .ro, 0x0, .none⟩]⟩, -- DLQ_Mm_CHARGE
  ⟨0x3000, 1, 0x1000000, 1, 4, [⟨16, 16, .rw, 0x1, .h⟩, ⟨15, 8, .rw, 0x40, .h⟩, ⟨7, 0, .rw, 0x30, .h⟩]⟩, -- DLA_CTRL
  ⟨0x3004, 1, 0x1000000, 1, 4, [⟨23, 0, .ro, 0x0, .none⟩]⟩, -- DLA_MASK_VIEW
  ⟨0x4000, 1, 0x1000000, 3, 4, [⟨3, 2, .rwl, 0x0, .h⟩, ⟨1, 0, .rwl, 0x0, .h⟩]⟩, -- DLF_REGION_CTRLn
  ⟨0x4010, 1, 0x1000000, 1, 4, [⟨15, 0, .rwl, 0x0, .h⟩]⟩, -- DLF_SPILL_BASE
  ⟨0x4014, 1, 0x1000000, 1, 4, [⟨13, 0, .rwl, 0x0, .h⟩]⟩, -- DLF_SPILL_SIZE
  ⟨0x4020, 1, 0x1000000, 4, 4, [⟨31, 31, .rwl, 0x0, .h⟩, ⟨30, 29, .rwl, 0x0, .h⟩, ⟨15, 0, .rwl, 0x0, .h⟩]⟩, -- DLF_LIFTn
  ⟨0x4040, 1, 0x1000000, 1, 4, [⟨23, 0, .rw, 0xFFFFFF, .h⟩]⟩, -- DLF_DEFAULT_RDMASK
  ⟨0x4044, 1, 0x1000000, 1, 4, [⟨23, 0, .rw, 0xFFFFFF, .h⟩]⟩] -- DLF_DEFAULT_WRMASK

def part3 : List RegDesc := [
  ⟨0x4050, 1, 0x1000000, 1, 4, [⟨31, 31, .rc, 0x0, .none⟩, ⟨28, 24, .ro, 0x0, .none⟩, ⟨19, 16, .ro, 0x0, .none⟩, ⟨4, 0, .ro, 0x0, .none⟩]⟩, -- DLF_DENY_INFO
  ⟨0x4054, 1, 0x1000000, 1, 4, [⟨31, 0, .ro, 0x0, .none⟩]⟩, -- DLF_DENY_ADDR_LO
  ⟨0x4058, 1, 0x1000000, 1, 4, [⟨6, 0, .ro, 0x0, .none⟩]⟩, -- DLF_DENY_ADDR_HI
  ⟨0x405C, 1, 0x1000000, 1, 4, [⟨31, 0, .rc, 0x0, .none⟩]⟩, -- DLF_DENY_COUNT
  ⟨0x4100, 1, 0x1000000, 16, 16, [⟨31, 31, .rw, 0x0, .h⟩, ⟨25, 0, .rw, 0x0, .h⟩]⟩, -- DLF_WINn_BASE
  ⟨0x4104, 1, 0x1000000, 16, 16, [⟨25, 0, .rw, 0x0, .h⟩]⟩, -- DLF_WINn_LIMIT
  ⟨0x4108, 1, 0x1000000, 16, 16, [⟨23, 0, .rw, 0x0, .h⟩]⟩, -- DLF_WINn_RDMASK
  ⟨0x410C, 1, 0x1000000, 16, 16, [⟨23, 0, .rw, 0x0, .h⟩]⟩, -- DLF_WINn_WRMASK
  ⟨0x4400, 1, 0x1000000, 320, 4, [⟨8, 4, .rwl, 0x0, .h⟩, ⟨3, 0, .rwl, 0x0, .h⟩]⟩, -- DLF_TILE_MAPt
  ⟨0x6000, 1, 0x1000000, 1, 4, [⟨3, 0, .rwl, 0x0, .h⟩]⟩, -- DLP_CTRL
  ⟨0x6004, 1, 0x1000000, 1, 4, [⟨31, 0, .rwl, 0x0, .h⟩]⟩, -- DLP_CLASS_MAP0
  ⟨0x6008, 1, 0x1000000, 1, 4, [⟨15, 0, .rwl, 0x0, .h⟩]⟩, -- DLP_CLASS_MAP1
  ⟨0x6010, 1, 0x1000000, 1, 4, [⟨15, 0, .rwl, 0xFFFF, .h⟩]⟩, -- DLP_CLASS_WAYS0
  ⟨0x6014, 1, 0x1000000, 3, 4, [⟨15, 0, .rwl, 0x0, .h⟩]⟩, -- DLP_CLASS_WAYS1..3
  ⟨0x6020, 1, 0x1000000, 1, 4, [⟨31, 31, .ro, 0x0, .none⟩, ⟨1, 0, .wo, 0x0, .h⟩]⟩, -- DLP_MAINT
  ⟨0x6024, 1, 0x1000000, 1, 4, [⟨22, 0, .ro, 0x0, .none⟩]⟩, -- DLP_MAINT_DIRTY
  ⟨0x6030, 1, 0x1000000, 1, 4, [⟨31, 0, .rc, 0x0, .none⟩]⟩, -- DLP_SRAM_ERR
  ⟨0x6034, 1, 0x1000000, 1, 4, [⟨31, 31, .rc, 0x0, .none⟩, ⟨30, 30, .ro, 0x0, .none⟩, ⟨29, 28, .ro, 0x0, .none⟩, ⟨27, 24, .ro, 0x0, .none⟩, ⟨23, 14, .ro, 0x0, .none⟩, ⟨8, 0, .ro, 0x0, .none⟩]⟩, -- DLP_SRAM_INFO
  ⟨0x8000, 1, 0x1000000, 1, 4, [⟨15, 0, .rw, 0x800, .h⟩]⟩, -- DLG_MCTRL
  ⟨0x8004, 1, 0x1000000, 1, 4, [⟨31, 31, .ro, 0x0, .none⟩, ⟨30, 30, .ro, 0x0, .none⟩, ⟨13, 8, .ro, 0x0, .none⟩, ⟨7, 6, .ro, 0x0, .none⟩, ⟨5, 5, .ro, 0x0, .none⟩, ⟨3, 0, .ro, 0x0, .none⟩]⟩, -- DLG_MCUR
  ⟨0x8008, 1, 0x1000000, 1, 4, [⟨29, 24, .ro, 0x0, .none⟩, ⟨13, 0, .ro, 0x0, .none⟩]⟩, -- DLG_MSTAGE
  ⟨0x800C, 1, 0x1000000, 1, 4, [⟨31, 0, .rc, 0x0, .none⟩]⟩, -- DLG_MSWITCH
  ⟨0x8010, 1, 0x1000000, 1, 4, [⟨31, 0, .rc, 0x0, .none⟩]⟩, -- DLG_MWAIT
  ⟨0x8020, 1, 0x1000000, 1, 4, [⟨15, 0, .wo, 0x0, .h⟩]⟩, -- DLG_NUMQ
  ⟨0x8024, 1, 0x1000000, 1, 4, [⟨31, 31, .ro, 0x0, .none⟩, ⟨30, 30, .ro, 0x0, .none⟩, ⟨13, 8, .ro, 0x0, .none⟩, ⟨4, 4, .ro, 0x0, .none⟩, ⟨3, 3, .ro, 0x0, .none⟩, ⟨2, 2, .ro, 0x0, .none⟩, ⟨1, 1, .ro, 0x0, .none⟩, ⟨0, 0, .ro, 0x0, .none⟩]⟩] -- DLG_NUMFLAGS

def part4 : List RegDesc := [
  ⟨0x8100, 1, 0x1000000, 1, 4, [⟨16, 16, .rw, 0x1, .h⟩, ⟨15, 0, .rw, 0x100, .h⟩]⟩, -- DLG_TUBCTRL
  ⟨0x8104, 1, 0x1000000, 1, 4, [⟨16, 0, .ro, 0x0, .none⟩]⟩, -- DLG_TUB_RESIDENT
  ⟨0x8108, 1, 0x1000000, 1, 4, [⟨16, 0, .ro, 0x0, .none⟩]⟩, -- DLG_TUB_SPILLED
  ⟨0x810C, 1, 0x1000000, 1, 4, [⟨16, 0, .ro, 0x0, .none⟩]⟩, -- DLG_TUB_MARKED
  ⟨0x8110, 1, 0x1000000, 1, 4, [⟨15, 0, .ro, 0x0, .none⟩]⟩, -- DLG_TUB_FREE_RES
  ⟨0x8114, 1, 0x1000000, 1, 4, [⟨22, 0, .ro, 0x0, .none⟩]⟩, -- DLG_TUB_FREE_SPILL
  ⟨0x8118, 1, 0x1000000, 1, 4, [⟨31, 0, .rc, 0x0, .none⟩]⟩, -- DLG_REFUSE_COUNT
  ⟨0x8120, 1, 0x1000000, 1, 4, [⟨31, 31, .rc, 0x0, .none⟩, ⟨15, 0, .ro, 0x0, .none⟩]⟩, -- DLG_STRAG_INFO
  ⟨0x8124, 1, 0x1000000, 1, 4, [⟨31, 0, .rc, 0x0, .none⟩]⟩, -- DLG_STRAG_COUNT
  ⟨0x8128, 1, 0x1000000, 1, 4, [⟨31, 30, .wo, 0x0, .h⟩, ⟨15, 0, .wo, 0x0, .h⟩]⟩, -- DLG_TUB_ABORT
  ⟨0x8130, 1, 0x1000000, 1, 4, [⟨31, 29, .ro, 0x0, .none⟩, ⟨28, 28, .ro, 0x0, .none⟩, ⟨27, 27, .ro, 0x0, .none⟩, ⟨26, 25, .ro, 0x0, .none⟩, ⟨24, 17, .ro, 0x0, .none⟩, ⟨15, 0, .ro, 0x0, .none⟩]⟩, -- DLG_TUBQ_STATE
  ⟨0x8134, 1, 0x1000000, 1, 4, [⟨23, 0, .ro, 0x0, .none⟩]⟩, -- DLG_TUBQ_EXPECT
  ⟨0x8138, 1, 0x1000000, 1, 4, [⟨31, 0, .ro, 0x0, .none⟩]⟩, -- DLG_TUBQ_IN_LO
  ⟨0x813C, 1, 0x1000000, 1, 4, [⟨7, 0, .ro, 0x0, .none⟩]⟩, -- DLG_TUBQ_IN_HI
  ⟨0xA000, 1, 0x1000000, 1, 4, [⟨31, 31, .ro, 0x0, .none⟩, ⟨0, 0, .wo, 0x0, .h⟩]⟩, -- DLE_BLANK_CMD
  ⟨0xA004, 1, 0x1000000, 1, 4, [⟨25, 0, .wo, 0x0, .h⟩]⟩, -- DLE_BLANK_QUERY
  ⟨0xA008, 1, 0x1000000, 1, 4, [⟨31, 31, .ro, 0x0, .none⟩, ⟨30, 30, .ro, 0x0, .none⟩, ⟨0, 0, .ro, 0x0, .none⟩]⟩, -- DLE_BLANK_RESULT
  ⟨0xA00C, 1, 0x1000000, 1, 4, [⟨25, 0, .ro, 0x0, .none⟩]⟩, -- DLE_BLANK_VALID
  ⟨0xA010, 1, 0x1000000, 1, 4, [⟨31, 16, .rc, 0x0, .none⟩, ⟨15, 0, .rc, 0x0, .none⟩]⟩, -- DLE_BLANK_ERR
  ⟨0xA020, 1, 0x1000000, 1, 4, [⟨31, 31, .ro, 0x0, .none⟩, ⟨30, 30, .ro, 0x0, .none⟩, ⟨29, 28, .ro, 0x0, .none⟩, ⟨24, 16, .ro, 0x0, .none⟩, ⟨12, 8, .ro, 0x0, .none⟩, ⟨1, 1, .ro, 0x0, .none⟩, ⟨0, 0, .ro, 0x0, .none⟩]⟩, -- DLE_ST_STATUS
  ⟨0xA024, 1, 0x1000000, 1, 4, [⟨31, 31, .ro, 0x0, .none⟩, ⟨27, 25, .ro, 0x0, .none⟩, ⟨24, 16, .ro, 0x0, .none⟩, ⟨15, 14, .ro, 0x0, .none⟩, ⟨8, 0, .ro, 0x0, .none⟩]⟩, -- DLE_ST_FIRST
  ⟨0xA040, 1, 0x1000000, 1, 4, [⟨12, 0, .ro, 0x0, .none⟩]⟩, -- DLE_LINT_HEAD
  ⟨0xA044, 1, 0x1000000, 1, 4, [⟨12, 0, .rw, 0x0, .h⟩]⟩, -- DLE_LINT_TAIL
  ⟨0xA048, 1, 0x1000000, 1, 4, [⟨12, 0, .rw, 0x0, .h⟩]⟩, -- DLE_LINT_WIN
  ⟨0xA04C, 1, 0x1000000, 1, 4, [⟨31, 0, .rc, 0x0, .none⟩]⟩] -- DLE_LINT_DROP

def part5 : List RegDesc := [
  ⟨0xA060, 1, 0x1000000, 8, 4, [⟨31, 0, .ro, 0x0, .none⟩]⟩, -- DLE_LINT_RECw
  ⟨0xB000, 1, 0x1000000, 1, 4, [⟨31, 29, .wo, 0x0, .h⟩, ⟨25, 24, .wo, 0x0, .h⟩, ⟨8, 0, .wo, 0x0, .h⟩]⟩, -- DLD_SVC_CMD
  ⟨0xB004, 1, 0x1000000, 1, 4, [⟨31, 31, .ro, 0x0, .none⟩, ⟨30, 28, .ro, 0x0, .none⟩, ⟨27, 25, .ro, 0x0, .none⟩, ⟨8, 0, .ro, 0x0, .none⟩]⟩, -- DLD_SVC_RESULT
  ⟨0xB010, 1, 0x1000000, 1, 4, [⟨31, 31, .rw, 0x1, .h⟩, ⟨15, 0, .rw, 0x10, .h⟩]⟩, -- DLD_RINSE_CTRL
  ⟨0xB014, 1, 0x1000000, 1, 4, [⟨31, 0, .rc, 0x0, .none⟩]⟩, -- DLD_RINSE_PASS
  ⟨0xB018, 1, 0x1000000, 1, 4, [⟨8, 8, .rw, 0x1, .h⟩, ⟨3, 0, .rw, 0x2, .h⟩]⟩, -- DLD_PATCH_CTRL
  ⟨0xB01C, 1, 0x1000000, 1, 4, [⟨31, 24, .rw, 0x10, .h⟩, ⟨23, 20, .rw, 0xC, .h⟩, ⟨15, 0, .rw, 0x40, .h⟩]⟩, -- DLD_WEAR_CTRL
  ⟨0xB020, 1, 0x1000000, 1, 4, [⟨25, 0, .ro, 0x0, .none⟩]⟩, -- DLD_MEND_COUNT
  ⟨0xB024, 1, 0x1000000, 1, 4, [⟨31, 16, .rc, 0x0, .none⟩, ⟨15, 0, .rc, 0x0, .none⟩]⟩, -- DLD_MEND_ERR
  ⟨0xB030, 1, 0x1000000, 1, 4, [⟨31, 31, .rc, 0x0, .none⟩, ⟨30, 29, .ro, 0x0, .none⟩, ⟨28, 28, .ro, 0x0, .none⟩, ⟨24, 16, .ro, 0x0, .none⟩, ⟨15, 0, .ro, 0x0, .none⟩]⟩, -- DLD_RETIRE
  ⟨0xB034, 1, 0x1000000, 1, 4, [⟨31, 16, .rc, 0x0, .none⟩, ⟨6, 0, .ro, 0x0, .none⟩]⟩, -- DLD_RETIRE_STATUS
  ⟨0xB040, 1, 0x1000000, 4, 4, [⟨31, 31, .ro, 0x0, .none⟩, ⟨30, 29, .ro, 0x0, .none⟩, ⟨24, 9, .ro, 0x0, .none⟩, ⟨8, 0, .ro, 0x0, .none⟩]⟩, -- DLD_LIFT_STATUSn
  ⟨0xB080, 1, 0x1000000, 20, 4, [⟨31, 31, .ro, 0x0, .none⟩, ⟨30, 30, .ro, 0x0, .none⟩, ⟨29, 29, .ro, 0x0, .none⟩, ⟨28, 24, .ro, 0x0, .none⟩, ⟨8, 0, .ro, 0x0, .none⟩]⟩, -- DLD_PANEL_STATUSp
  ⟨0xC000, 1, 0x1000000, 1, 4, [⟨19, 16, .rw, 0x4, .h⟩, ⟨11, 8, .rw, 0x3, .h⟩, ⟨7, 0, .rw, 0x10, .h⟩]⟩, -- DLH_CTRL
  ⟨0xC004, 1, 0x1000000, 1, 4, [⟨27, 16, .rwl, 0x6E, .h⟩, ⟨15, 0, .rwl, 0xF42, .h⟩]⟩, -- DLH_NEAR_TIMING
  ⟨0xC008, 1, 0x1000000, 1, 4, [⟨27, 16, .rwl, 0x140, .h⟩, ⟨15, 0, .rwl, 0x104, .h⟩]⟩, -- DLH_FAR_TIMING
  ⟨0xC00C, 1, 0x1000000, 1, 4, [⟨15, 0, .rwl, 0x200, .h⟩]⟩, -- DLH_RFM
  ⟨0xC010, 1, 0x1000000, 1, 4, [⟨27, 24, .rw, 0x2, .h⟩, ⟨23, 16, .rw, 0x69, .h⟩, ⟨15, 8, .rw, 0x5F, .h⟩, ⟨7, 0, .rwl, 0x55, .h⟩]⟩, -- DLH_THRESH0
  ⟨0xC014, 1, 0x1000000, 2, 4, [⟨27, 24, .rw, 0x2, .h⟩, ⟨23, 16, .rw, 0x64, .h⟩, ⟨15, 8, .rw, 0x5A, .h⟩, ⟨7, 0, .rwl, 0x55, .h⟩]⟩, -- DLH_THRESH1, 2
  ⟨0xC020, 1, 0x1000000, 1, 4, [⟨7, 0, .rw, 0x4, .h⟩]⟩, -- DLH_STEP_CTRL
  ⟨0xC024, 1, 0x1000000, 1, 4, [⟨31, 24, .rwl, 0x50, .h⟩, ⟨23, 16, .rwl, 0x60, .h⟩, ⟨15, 8, .rwl, 0x70, .h⟩, ⟨7, 0, .rwl, 0x0, .h⟩]⟩, -- DLH_THR_CAP0
  ⟨0xC028, 1, 0x1000000, 1, 4, [⟨31, 24, .rwl, 0x10, .h⟩, ⟨23, 16, .rwl, 0x20, .h⟩, ⟨15, 8, .rwl, 0x30, .h⟩, ⟨7, 0, .rwl, 0x40, .h⟩]⟩, -- DLH_THR_CAP1
  ⟨0xC030, 1, 0x1000000, 1, 4, [⟨1, 0, .rwl, 0x0, .m⟩]⟩, -- DLH_STAGGER
  ⟨0xC040, 1, 0x1000000, 3, 4, [⟨31, 31, .ro, 0x0, .none⟩, ⟨30, 30, .ro, 0x0, .none⟩, ⟨29, 29, .ro, 0x0, .none⟩, ⟨26, 24, .ro, 0x0, .none⟩, ⟨23, 16, .ro, 0x0, .none⟩, ⟨7, 0, .ro, 0x0, .none⟩]⟩, -- DLH_REGION_STATUSr
  ⟨0xD000, 1, 0x1000000, 1, 4, [⟨31, 24, .rwl, 0x28, .h⟩, ⟨23, 16, .rwl, 0x1A, .h⟩, ⟨15, 8, .rwl, 0xE, .h⟩, ⟨7, 0, .rwl, 0xE, .h⟩]⟩] -- DLS_NEAR_T0

def part6 : List RegDesc := [
  ⟨0xD004, 1, 0x1000000, 1, 4, [⟨31, 24, .rwl, 0xE, .h⟩, ⟨23, 16, .rwl, 0xA, .h⟩, ⟨15, 8, .rwl, 0xA, .h⟩, ⟨7, 4, .rwl, 0x2, .h⟩, ⟨3, 0, .rwl, 0x1, .h⟩]⟩, -- DLS_NEAR_T1
  ⟨0xD008, 1, 0x1000000, 1, 4, [⟨31, 24, .rwl, 0x11, .h⟩, ⟨23, 16, .rwl, 0xF, .h⟩, ⟨15, 8, .rwl, 0x7, .h⟩]⟩, -- DLS_NEAR_T2
  ⟨0xD00C, 1, 0x1000000, 1, 4, [⟨15, 8, .rwl, 0x4, .h⟩, ⟨7, 0, .rwl, 0x6, .h⟩]⟩, -- DLS_NEAR_T3
  ⟨0xD010, 1, 0x1000000, 1, 4, [⟨31, 24, .rwl, 0x90, .h⟩, ⟨23, 16, .rwl, 0x60, .h⟩, ⟨15, 8, .rwl, 0x30, .h⟩, ⟨7, 0, .rwl, 0x30, .h⟩]⟩, -- DLS_FAR_T0
  ⟨0xD014, 1, 0x1000000, 1, 4, [⟨31, 24, .rwl, 0x38, .h⟩, ⟨23, 16, .rwl, 0x18, .h⟩, ⟨15, 8, .rwl, 0x20, .h⟩, ⟨7, 4, .rwl, 0x4, .h⟩, ⟨3, 0, .rwl, 0x2, .h⟩]⟩, -- DLS_FAR_T1
  ⟨0xD018, 1, 0x1000000, 1, 4, [⟨31, 24, .rwl, 0x32, .h⟩, ⟨23, 16, .rwl, 0x30, .h⟩, ⟨15, 8, .rwl, 0x26, .h⟩]⟩, -- DLS_FAR_T2
  ⟨0xD01C, 1, 0x1000000, 1, 4, [⟨15, 8, .rwl, 0x10, .h⟩, ⟨7, 0, .rwl, 0x18, .h⟩]⟩, -- DLS_FAR_T3
  ⟨0xD020, 1, 0x1000000, 1, 4, [⟨31, 31, .rw, 0x1, .h⟩, ⟨30, 30, .rw, 0x1, .h⟩, ⟨23, 16, .rw, 0x8, .h⟩, ⟨15, 8, .rw, 0x20, .h⟩, ⟨7, 0, .rw, 0x8, .h⟩]⟩, -- DLS_CAL_CTRL
  ⟨0xD024, 1, 0x1000000, 1, 4, [⟨31, 31, .ro, 0x0, .none⟩, ⟨30, 30, .ro, 0x0, .none⟩, ⟨24, 16, .ro, 0x0, .none⟩, ⟨7, 0, .ro, 0x0, .none⟩]⟩, -- DLS_TRAIN_STATUS
  ⟨0xE000, 1, 0x1000000, 1, 4, [⟨31, 31, .rw, 0x1, .h⟩, ⟨30, 30, .rw, 0x0, .h⟩, ⟨27, 24, .rw, 0x3, .h⟩, ⟨23, 16, .rw, 0xE0, .h⟩, ⟨7, 0, .rwl, 0x8, .h⟩]⟩, -- DLW_CTRL
  ⟨0xE004, 1, 0x1000000, 1, 4, [⟨3, 0, .rw, 0x0, .h⟩]⟩, -- DLW_PHASE
  ⟨0xE008, 1, 0x1000000, 1, 4, [⟨15, 0, .rw, 0x0, .h⟩]⟩, -- DLW_STATIC
  ⟨0xE010, 1, 0x1000000, 17, 4, [⟨19, 0, .rw, 0x0, .h⟩]⟩, -- DLW_COEFc
  ⟨0xE060, 1, 0x1000000, 4, 4, [⟨24, 16, .rwl, 0x100, .h⟩, ⟨7, 6, .rwl, 0x0, .h⟩, ⟨5, 4, .rwl, 0x0, .h⟩, ⟨1, 1, .rwl, 0x0, .h⟩, ⟨0, 0, .rwl, 0x0, .h⟩]⟩, -- DLW_OPk
  ⟨0xE080, 1, 0x1000000, 16, 4, [⟨5, 4, .rwl, 0x0, .h⟩, ⟨1, 0, .rwl, 0x0, .h⟩]⟩, -- DLW_PHASE_OPp
  ⟨0xE0C0, 1, 0x1000000, 1, 4, [⟨23, 0, .rw, 0x0, .hm⟩]⟩, -- DLW_PURSE_GRANT
  ⟨0xE0C4, 1, 0x1000000, 1, 4, [⟨23, 0, .rw, 0x0, .m⟩]⟩, -- DLW_DEMAND
  ⟨0xE0C8, 1, 0x1000000, 1, 4, [⟨31, 24, .rw, 0x4, .h⟩, ⟨23, 0, .rw, 0xFFFFFF, .h⟩]⟩, -- DLW_PURSE_FALLBACK
  ⟨0xE0CC, 1, 0x1000000, 1, 4, [⟨31, 31, .ro, 0x0, .none⟩, ⟨30, 30, .ro, 0x0, .none⟩, ⟨23, 0, .ro, 0x0, .none⟩]⟩, -- DLW_PURSE_STATUS
  ⟨0xE0D0, 1, 0x1000000, 1, 4, [⟨23, 0, .ro, 0x0, .none⟩]⟩, -- DLW_SPENT
  ⟨0xE0D4, 1, 0x1000000, 1, 4, [⟨31, 31, .ro, 0x0, .none⟩, ⟨30, 30, .ro, 0x0, .none⟩, ⟨29, 29, .ro, 0x0, .none⟩, ⟨27, 24, .ro, 0x0, .none⟩, ⟨21, 20, .ro, 0x0, .none⟩, ⟨17, 16, .ro, 0x0, .none⟩, ⟨3, 0, .ro, 0x0, .none⟩]⟩, -- DLW_OP_STATUS
  ⟨0xE0E0, 1, 0x1000000, 1, 4, [⟨31, 31, .wo, 0x0, .h⟩, ⟨15, 8, .rw, 0x4, .h⟩, ⟨7, 0, .rw, 0x20, .h⟩]⟩, -- DLW_DIV_CTRL
  ⟨0xE0E4, 1, 0x1000000, 1, 4, [⟨31, 31, .ro, 0x0, .none⟩, ⟨30, 30, .ro, 0x0, .none⟩, ⟨29, 29, .ro, 0x0, .none⟩, ⟨7, 0, .ro, 0x0, .none⟩]⟩, -- DLW_DIV_STATUS
  ⟨0xE0E8, 1, 0x1000000, 1, 4, [⟨23, 0, .ro, 0x0, .none⟩]⟩, -- DLW_EST_LAST
  ⟨0xE0EC, 1, 0x1000000, 1, 4, [⟨31, 31, .ro, 0x0, .none⟩, ⟨23, 0, .ro, 0x0, .none⟩]⟩] -- DLW_MEAS_LAST

def part7 : List RegDesc := [
  ⟨0xE0F0, 1, 0x1000000, 1, 4, [⟨23, 0, .ro, 0x0, .none⟩]⟩, -- DLW_ACCT_LAST
  ⟨0xE100, 1, 0x1000000, 1, 4, [⟨8, 0, .rw, 0x0, .h⟩]⟩, -- DLW_ESEL
  ⟨0xE104, 1, 0x1000000, 1, 4, [⟨31, 0, .ro, 0x0, .none⟩]⟩, -- DLW_EREAD_LO
  ⟨0xE108, 1, 0x1000000, 1, 4, [⟨31, 0, .ro, 0x0, .none⟩]⟩, -- DLW_EREAD_HI
  ⟨0xE110, 1, 0x1000000, 1, 4, [⟨31, 31, .rw, 0x0, .h⟩, ⟨30, 30, .rw, 0x0, .h⟩, ⟨27, 24, .rw, 0x3, .h⟩]⟩, -- DLW_PM_CTRL
  ⟨0xE120, 1, 0x1000000, 8, 4, [⟨31, 31, .rw, 0x0, .h⟩, ⟨30, 30, .rw, 0x0, .h⟩, ⟨22, 16, .rw, 0x0, .h⟩, ⟨15, 8, .rw, 0x0, .h⟩, ⟨7, 0, .rw, 0xFF, .h⟩]⟩, -- DLW_RAILr
  ⟨0xE140, 1, 0x1000000, 8, 4, [⟨31, 31, .ro, 0x0, .none⟩, ⟨30, 30, .ro, 0x0, .none⟩, ⟨27, 24, .ro, 0x0, .none⟩, ⟨23, 0, .ro, 0x0, .none⟩]⟩, -- DLW_RAIL_READr
  ⟨0xE160, 1, 0x1000000, 1, 4, [⟨25, 24, .rw, 0x1, .h⟩, ⟨23, 16, .rw, 0x0, .h⟩, ⟨15, 0, .rw, 0x100, .h⟩]⟩, -- DLW_DROOP_CTRL
  ⟨0xE164, 1, 0x1000000, 1, 4, [⟨31, 0, .rc, 0x0, .none⟩]⟩, -- DLW_DROOP_COUNT
  ⟨0xE180, 1, 0x1000000, 1, 4, [⟨23, 0, .rw, 0xFFFFFF, .h⟩]⟩, -- DLW_PKG_CAP
  ⟨0xE184, 1, 0x1000000, 4, 4, [⟨23, 0, .rw, 0x0, .h⟩]⟩, -- DLW_FLOORi
  ⟨0xE1A0, 1, 0x1000000, 1, 4, [⟨5, 4, .rw, 0x0, .h⟩, ⟨3, 0, .rw, 0x0, .h⟩]⟩, -- DLW_HIST_SEL
  ⟨0xE1A4, 1, 0x1000000, 1, 4, [⟨23, 0, .ro, 0x0, .none⟩]⟩, -- DLW_HIST
  ⟨0xF000, 1, 0x1000000, 1, 4, [⟨31, 31, .ro, 0x0, .none⟩, ⟨3, 2, .ro, 0x0, .none⟩, ⟨1, 0, .ro, 0x0, .none⟩]⟩, -- DLK_ROLE
  ⟨0xF004, 1, 0x1000000, 1, 4, [⟨31, 24, .rwl, 0x40, .h⟩, ⟨23, 20, .rwl, 0x3, .h⟩, ⟨7, 0, .rwl, 0x32, .h⟩]⟩, -- DLK_CTRL
  ⟨0xF008, 1, 0x1000000, 1, 4, [⟨31, 31, .ro, 0x0, .none⟩, ⟨30, 30, .ro, 0x0, .none⟩, ⟨11, 8, .ro, 0x0, .none⟩, ⟨7, 4, .ro, 0x0, .none⟩, ⟨3, 0, .ro, 0x0, .none⟩]⟩, -- DLK_PRESENT
  ⟨0xF010, 1, 0x1000000, 4, 4, [⟨31, 31, .ro, 0x0, .none⟩, ⟨2, 0, .ro, 0x0, .none⟩]⟩, -- DLK_ABSENT_INFOi
  ⟨0xF020, 1, 0x1000000, 2, 4, [⟨31, 30, .ro, 0x0, .none⟩, ⟨4, 0, .ro, 0x0, .none⟩]⟩, -- DLK_LINKj
  ⟨0xF028, 1, 0x1000000, 2, 4, [⟨31, 0, .rc, 0x0, .none⟩]⟩, -- DLK_LINK_RETRYj
  ⟨0xF030, 1, 0x1000000, 1, 4, [⟨31, 31, .ro, 0x0, .none⟩, ⟨23, 16, .rw, 0x10, .h⟩, ⟨7, 6, .ro, 0x0, .none⟩, ⟨5, 4, .ro, 0x0, .none⟩, ⟨3, 2, .ro, 0x0, .none⟩, ⟨1, 0, .ro, 0x0, .none⟩]⟩, -- DLK_BCAST
  ⟨0xF034, 1, 0x1000000, 1, 4, [⟨31, 30, .wo, 0x0, .h⟩, ⟨1, 0, .wo, 0x0, .h⟩]⟩, -- DLK_JOIN
  ⟨0xF038, 1, 0x1000000, 1, 4, [⟨15, 12, .ro, 0x0, .none⟩, ⟨11, 8, .ro, 0x0, .none⟩, ⟨7, 4, .ro, 0x0, .none⟩, ⟨3, 0, .ro, 0x0, .none⟩]⟩, -- DLK_HB_STATUS
  ⟨0xF040, 1, 0x1000000, 1, 4, [⟨31, 0, .rc, 0x0, .none⟩]⟩, -- DLK_RTO_COUNT
  ⟨0xF044, 1, 0x1000000, 1, 4, [⟨31, 31, .rc, 0x0, .none⟩, ⟨23, 0, .ro, 0x0, .none⟩]⟩, -- DLK_CONFLICT_INFO
  ⟨0xF048, 1, 0x1000000, 1, 4, [⟨31, 0, .rc, 0x0, .none⟩]⟩] -- DLK_CONFLICT_COUNT

def part8 : List RegDesc := [
  ⟨0x10000, 1, 0x1000000, 1, 4, [⟨31, 31, .rw, 0x0, .h⟩, ⟨8, 0, .wo, 0x0, .h⟩]⟩, -- DLC_CTRL
  ⟨0x10004, 1, 0x1000000, 1, 4, [⟨7, 0, .ro, 0x0, .none⟩]⟩, -- DLC_SAT
  ⟨0x10008, 1, 0x1000000, 1, 4, [⟨31, 0, .ro, 0x0, .none⟩]⟩, -- DLC_CYCLE_LO
  ⟨0x1000C, 1, 0x1000000, 1, 4, [⟨31, 0, .ro, 0x0, .none⟩]⟩, -- DLC_CYCLE_HI
  ⟨0x10100, 1, 0x1000000, 8, 32, [⟨31, 31, .rw, 0x0, .h⟩, ⟨30, 30, .rw, 0x0, .h⟩, ⟨29, 29, .rw, 0x0, .h⟩, ⟨28, 28, .rw, 0x0, .h⟩, ⟨27, 27, .rw, 0x0, .h⟩, ⟨19, 16, .rw, 0xF, .h⟩, ⟨9, 0, .rw, 0x0, .h⟩]⟩, -- DLC_CNTn_CTRL
  ⟨0x10104, 1, 0x1000000, 8, 32, [⟨23, 0, .rw, 0xFFFFFF, .h⟩]⟩, -- DLC_CNTn_MASTERS
  ⟨0x10108, 1, 0x1000000, 8, 32, [⟨25, 0, .rw, 0x0, .h⟩]⟩, -- DLC_CNTn_BASE
  ⟨0x1010C, 1, 0x1000000, 8, 32, [⟨25, 0, .rw, 0x3FFFFFF, .h⟩]⟩, -- DLC_CNTn_LIMIT
  ⟨0x10110, 1, 0x1000000, 8, 32, [⟨31, 0, .ro, 0x0, .none⟩]⟩, -- DLC_CNTn_LO
  ⟨0x10114, 1, 0x1000000, 8, 32, [⟨15, 0, .ro, 0x0, .none⟩]⟩, -- DLC_CNTn_HI
  ⟨0x10400, 1, 0x1000000, 4, 256, [⟨31, 31, .rw, 0x0, .h⟩, ⟨30, 30, .rw, 0x0, .h⟩, ⟨4, 0, .rw, 0x0, .h⟩]⟩, -- DLC_HISTh_SEL
  ⟨0x10404, 1, 0x1000000, 4, 256, [⟨31, 0, .ro, 0x0, .none⟩]⟩, -- DLC_HISTh_MAX
  ⟨0x10408, 1, 0x1000000, 4, 256, [⟨31, 0, .ro, 0x0, .none⟩]⟩, -- DLC_HISTh_LOST
  ⟨0x10480, 4, 0x100, 32, 4, [⟨31, 0, .ro, 0x0, .none⟩]⟩, -- DLC_HISTh_BINb
  ⟨0x100000, 320, 0x1000, 1, 4, [⟨14, 8, .rw, 0x18, .h⟩, ⟨6, 0, .rw, 0x48, .h⟩]⟩, -- DLT_SCHED_CTRL
  ⟨0x100004, 320, 0x1000, 1, 4, [⟨31, 16, .rw, 0x1000, .h⟩, ⟨15, 0, .rw, 0x800, .h⟩]⟩, -- DLT_SCHED_AGE
  ⟨0x100008, 320, 0x1000, 1, 4, [⟨23, 16, .rw, 0x10, .h⟩, ⟨15, 8, .rw, 0x20, .h⟩, ⟨7, 0, .rw, 0x40, .h⟩]⟩, -- DLT_SCHED_IDLE
  ⟨0x10000C, 320, 0x1000, 1, 4, [⟨15, 0, .rw, 0x400, .h⟩]⟩, -- DLT_PD_CTRL
  ⟨0x100010, 320, 0x1000, 1, 4, [⟨31, 31, .ro, 0x0, .none⟩, ⟨30, 30, .ro, 0x0, .none⟩, ⟨29, 28, .ro, 0x0, .none⟩, ⟨27, 26, .ro, 0x0, .none⟩, ⟨22, 16, .ro, 0x0, .none⟩, ⟨14, 8, .ro, 0x0, .none⟩, ⟨5, 0, .ro, 0x0, .none⟩]⟩, -- DLT_QSTAT
  ⟨0x100014, 320, 0x1000, 1, 4, [⟨31, 0, .rc, 0x0, .none⟩]⟩, -- DLT_DRAIN_COUNT
  ⟨0x100018, 320, 0x1000, 1, 4, [⟨31, 0, .rc, 0x0, .none⟩]⟩, -- DLT_RAW_COUNT
  ⟨0x10001C, 320, 0x1000, 1, 4, [⟨31, 0, .rc, 0x0, .none⟩]⟩, -- DLT_ESC_COUNT
  ⟨0x100020, 320, 0x1000, 1, 4, [⟨31, 0, .rc, 0x0, .none⟩]⟩, -- DLT_PD_TIME
  ⟨0x100040, 320, 0x1000, 1, 4, [⟨31, 31, .ro, 0x0, .none⟩, ⟨30, 29, .ro, 0x0, .none⟩, ⟨23, 16, .ro, 0x0, .none⟩, ⟨15, 8, .ro, 0x0, .none⟩, ⟨7, 0, .ro, 0x0, .none⟩]⟩, -- DLT_FRZ_STATUS
  ⟨0x100044, 320, 0x1000, 1, 4, [⟨8, 8, .rw, 0x0, .h⟩, ⟨7, 0, .rw, 0x0, .h⟩]⟩] -- DLT_FRZ_SEL

def part9 : List RegDesc := [
  ⟨0x10004C, 320, 0x1000, 1, 4, [⟨1, 0, .wo, 0x0, .h⟩]⟩, -- DLT_FRZ_RELEASE
  ⟨0x100100, 320, 0x1000, 1, 4, [⟨31, 0, .rc, 0x0, .none⟩]⟩, -- DLT_ARB_MASKED
  ⟨0x100104, 320, 0x1000, 1, 4, [⟨31, 0, .rc, 0x0, .none⟩]⟩, -- DLT_ARB_IDLE
  ⟨0x100180, 320, 0x1000, 1, 4, [⟨8, 8, .ro, 0x0, .none⟩, ⟨7, 4, .ro, 0x0, .none⟩, ⟨3, 0, .ro, 0x0, .none⟩]⟩, -- DLT_REF_STATUS
  ⟨0x100184, 320, 0x1000, 1, 4, [⟨31, 31, .ro, 0x0, .none⟩, ⟨15, 8, .ro, 0x0, .none⟩, ⟨7, 0, .ro, 0x0, .none⟩]⟩, -- DLT_TEMP
  ⟨0x100188, 320, 0x1000, 1, 4, [⟨31, 0, .rc, 0x0, .none⟩]⟩, -- DLT_REF_FORCED
  ⟨0x10018C, 320, 0x1000, 1, 4, [⟨31, 0, .rc, 0x0, .none⟩]⟩, -- DLT_RFM_COUNT
  ⟨0x100200, 320, 0x1000, 1, 4, [⟨31, 0, .rc, 0x0, .none⟩]⟩, -- DLT_CRC_COUNT
  ⟨0x100204, 320, 0x1000, 1, 4, [⟨31, 0, .rc, 0x0, .none⟩]⟩, -- DLT_REBUILT_COUNT
  ⟨0x100208, 320, 0x1000, 1, 4, [⟨31, 0, .rc, 0x0, .none⟩]⟩, -- DLT_STAIN_COUNT
  ⟨0x10020C, 320, 0x1000, 1, 4, [⟨31, 0, .rc, 0x0, .none⟩]⟩, -- DLT_POISON_READ
  ⟨0x100210, 320, 0x1000, 1, 4, [⟨31, 16, .rc, 0x0, .none⟩, ⟨15, 0, .rc, 0x0, .none⟩]⟩, -- DLT_STACK_ECC
  ⟨0x100214, 320, 0x1000, 1, 4, [⟨31, 31, .ro, 0x0, .none⟩, ⟨3, 3, .ro, 0x0, .none⟩, ⟨2, 2, .ro, 0x0, .none⟩, ⟨1, 1, .ro, 0x0, .none⟩, ⟨0, 0, .ro, 0x0, .none⟩]⟩, -- DLT_ST_RESULT
  ⟨0x100280, 320, 0x1000, 1, 4, [⟨31, 30, .ro, 0x0, .none⟩, ⟨29, 28, .ro, 0x0, .none⟩, ⟨27, 27, .ro, 0x0, .none⟩, ⟨26, 26, .ro, 0x0, .none⟩, ⟨25, 24, .ro, 0x0, .none⟩, ⟨23, 23, .ro, 0x0, .none⟩]⟩, -- DLT_SVC_STATUS
  ⟨0x100284, 320, 0x1000, 1, 4, [⟨31, 31, .ro, 0x0, .none⟩, ⟨15, 0, .ro, 0x0, .none⟩]⟩, -- DLT_WEAR
  ⟨0x100288, 320, 0x1000, 1, 4, [⟨31, 31, .ro, 0x0, .none⟩, ⟨30, 26, .ro, 0x0, .none⟩, ⟨20, 16, .ro, 0x0, .none⟩, ⟨7, 0, .rc, 0x0, .none⟩]⟩, -- DLT_PATCH_USE
  ⟨0x100300, 320, 0x1000, 1, 4, [⟨31, 29, .wo, 0x0, .h⟩]⟩, -- DLT_HEM_CMD
  ⟨0x100304, 320, 0x1000, 1, 4, [⟨31, 29, .ro, 0x0, .none⟩, ⟨28, 26, .ro, 0x0, .none⟩, ⟨23, 16, .ro, 0x0, .none⟩, ⟨7, 0, .ro, 0x0, .none⟩]⟩, -- DLT_HEM_STATUS
  ⟨0x100308, 320, 0x1000, 1, 4, [⟨31, 0, .rc, 0x0, .none⟩]⟩, -- DLT_LB_ERR
  ⟨0x10030C, 320, 0x1000, 1, 4, [⟨31, 31, .ro, 0x0, .none⟩, ⟨8, 0, .ro, 0x0, .none⟩]⟩, -- DLT_LB_PIN
  ⟨0x100310, 320, 0x1000, 1, 4, [⟨31, 0, .rc, 0x0, .none⟩]⟩, -- DLT_HEM_ALERT
  ⟨0x100048, 320, 0x1000, 1, 4, [⟨31, 0, .ro, 0x0, .none⟩]⟩, -- DLT_FRZ_DATA
  ⟨0x1002C0, 320, 0x1000, 16, 4, [⟨31, 30, .ro, 0x0, .none⟩, ⟨29, 24, .ro, 0x0, .none⟩, ⟨23, 10, .ro, 0x0, .none⟩, ⟨5, 0, .ro, 0x0, .none⟩]⟩] -- DLT_PATCHe

/-- Every register of the window. -/
def all : List RegDesc := part0 ++ part1 ++ part2 ++ part3 ++ part4 ++ part5 ++ part6 ++ part7 ++ part8 ++ part9

/-- The register at a byte offset, with its two indices. -/
def findIn : List RegDesc → Nat → Option (RegDesc × Nat × Nat)
  | [], _ => none
  | r :: rest, off =>
    let d := off - r.base
    let i := d / r.stride
    let x := d % r.stride
    if r.base ≤ off ∧ i < r.count ∧ x % r.stride2 = 0 ∧ x / r.stride2 < r.count2 then some (r, i, x / r.stride2)
    else findIn rest off

def find (off : Nat) : Option (RegDesc × Nat × Nat) := findIn all off

end RegMap

/-- The value of a field map at reset. -/
def fieldsReset : List Field → Nat
  | [] => 0
  | f :: fs => f.reset <<< f.lo ||| fieldsReset fs

/-- The reset value of the register at an offset (R537). DLF_TILE_MAPt follows its index (R104). -/
def regReset (off : Nat) : Word :=
  if 0x4400 ≤ off ∧ off < 0x4900 ∧ off % 4 = 0 then BitVec.ofNat 32 ((off - 0x4400) / 4)
  else match RegMap.find off with
    | some (r, _, _) => BitVec.ofNat 32 (fieldsReset r.fields)
    | none => 0

end Sys2Proof.Machine
end

