-- ==== Sys2Proof/Machine/State.lean ====
section
/-!
DEFINITION. The state of one Deloth instance as plain data, and the instance right after reset.
Maps are lists of number and datum with the numbers strictly rising; an entry equal to its reader's default is absent.
-/
namespace Sys2Proof.Machine

/-- Why the block stops with a fault. -/
inductive Fault where
  /-- Raised by `execWarmStart`: R480 leaves the instance's behaviour undefined after a WARM start that did not follow
  an entry which drove dl_sr_done to 1. Safe: nothing is claimed of what follows. -/
  | warmUndefined
deriving DecidableEq, Repr

/-- Why a command has no meaning. -/
inductive Refusal where
  /-- Raised by an arm of `exec` that is not written yet. Safe: nothing is claimed of what follows. -/
  | notModelled (mnemonic : String)
deriving DecidableEq, Repr

/-! ## Requests -/

/-- Cache hints (R117). -/
inductive Hint where
  | none | stream | keep | lastuse
deriving DecidableEq, Repr

/-- What a transaction asks for (R111). -/
inductive Kind where
  | read | write | writebolt | zero | prefetch | clean | flush | atomic
  | contrib | tubOpen | tubAmend | tubDrain | reserved
deriving DecidableEq, Repr

/-- Where a transaction's answer goes. -/
inductive Src where
  /-- A request port and the tag its header carried. -/
  | port (n : Nat) (tag : BitVec 8)
  /-- A forwarding instance and the tag its REQ message carried (R464). -/
  | remote (inst : BitVec 2) (tag : Nat)
  /-- M16: a lease read or write-back of a tub's chunk, or a zero of a new spilled tub's chunks (R233, R240, R241). -/
  | m16 (tub : Nat) (chunk : Nat)
  /-- An access of M17, M18 or M21 to one line, or one ply, of a channel (R58). -/
  | unit
deriving DecidableEq, Repr

/-- One line of a channel: tile, bank coordinate, row before Patch redirection, line column (R83 to R86, R251). -/
structure Loc where
  tile : Nat
  bank : Nat
  row  : Nat
  col  : Nat
deriving DecidableEq, Repr

/-- A line with its 32 metadata bits (R336). -/
structure DLine where
  data : LineData
  code : BitVec 32
deriving DecidableEq, Repr

/-- The outcome of the line check (R337). -/
inductive Check where
  | good | stain | fail
deriving DecidableEq, Repr

/-- The entry kinds of R250, numbered as DLT_FRZ_DATA numbers them. -/
inductive EKind where
  | fill | direct | bg | data | delta | full
deriving DecidableEq, Repr

/-- Where a line that was read goes. -/
inductive Owner where
  /-- The miss entry of a line. -/
  | miss (l : Loc)
  /-- The drain read of a tile's Hamper entry. -/
  | drain (t : Nat) (hid : Nat)
  | job (j : Nat) (slot : Nat)
  /-- Nobody: the line is only rebuilt and written back. -/
  | nobody
deriving DecidableEq, Repr

/-- What an access of an internal master asks of a channel (R58, R250, R252). -/
inductive UnitOp where
  /-- A DIRECT read; of a line of a lift copy, which its own panel's Darn serves where its channel is out (R382). -/
  | read (o : Owner) (lift : Bool)
  /-- A BG entry: both lines of a ply. -/
  | ply (o : Owner)
  /-- A write of one line, which VERIFY may read back (R387); the job that it belongs to. -/
  | put (k : EKind) (x : DLine) (verify : Bool) (job : Option Nat)
deriving DecidableEq, Repr

/-- What a request does to one line in its home slice. `bolt` is a member's part of a ZERO or a WRITEBOLT. -/
inductive LineOp where
  | read (h : Hint)
  | write (h : Hint) (be : BitVec 64) (data : LineData)
  | prefetch (h : Hint)
  | clean
  | flush
  | atomic (aop : Nat) (wide : Bool) (off : Nat) (opnd cmp : BitVec 64)
  | zeroBolt
  | writeBolt (h : Hint) (line0 line1 : LineData)
  /-- An access of an internal master, which goes past the Press. -/
  | unit (u : UnitOp)
deriving DecidableEq, Repr

/-- A part of a transaction on its way to one tile: `idx` is the line within the request, or the member of a bolt. -/
structure Part where
  txn    : Nat
  idx    : Nat
  master : Nat
  prio   : Nat
  op     : LineOp
  loc    : Loc
  bolt   : Nat
deriving DecidableEq, Repr

/-- One transaction, from the acceptance of its header until its answer has left (R126). -/
structure Txn where
  src     : Src
  master  : Nat
  kind    : Kind
  aop     : Nat
  /-- Package address of the first byte, or the tub address of R115, bits 38:5. -/
  addr    : BitVec 34
  sectors : Nat
  hint    : Hint
  attr    : BitVec 16
  beats   : List (BeatEn × BeatData)
  owed    : Nat
  /-- The answer that the port front end fixed (R119). -/
  mark    : Option Rsp
  hasCredit : Bool
  reserved : Nat
  admitted : Bool
  prio    : Nat
  at_     : BitVec 64
  /-- Parts not yet at an arbiter input: the route of this master is back-pressured (R305). -/
  unsent  : List Part
  /-- Parts that have not finished. -/
  left    : Nat
  /-- Finished lines of a read: index, data, poisoned. -/
  lines   : SMap (LineData × Bool)
  poisoned : Bool
  /-- Answered silently: dl_req_mask discarded it (R143). -/
  silent  : Bool
  /-- Owner and sequence number of a forwarded request (R464). -/
  fwd     : Option (BitVec 2 × BitVec 16)
deriving DecidableEq, Repr

/-- One response burst of a port (R108, R110, R123). -/
structure RspBurst where
  tag    : BitVec 8
  code   : Rsp
  beats  : List BeatData
  poison : List (BitVec 8)
deriving DecidableEq, Repr

/-- Data beats that a port is still owed (R109, R127, R130). -/
inductive Owing where
  | txn (id : Nat) (n : Nat)
  | discarded (tag : BitVec 8) (n : Nat)
deriving DecidableEq, Repr

/-- A request port (R106, R128 to R130, R143 to R145). -/
structure Port where
  owing    : Option Owing
  reserved : Nat
  /-- Complete responses in the order they completed, with the transaction and its reserved beats (R129). -/
  done     : List (Nat × Nat × RspBurst)
  /-- The response last driven on the response channel. -/
  bus      : Option RspBurst
  /-- Ready stays 0 after a mask until the port is quiet (R145). -/
  blocked  : Bool
deriving DecidableEq, Repr

/-! ## The regulator -/

/-- A completion on its way back to the regulator: its transaction's admission time, and whether it is recorded (R522). -/
structure Due where
  at_    : BitVec 64
  record : Bool
  bolt   : Nat
deriving DecidableEq, Repr

/-- One of the 24 masters at the regulator (R280 to R291, R303). -/
structure Master where
  queue  : List Nat
  held   : Nat
  charge : Nat
  overBudget : Bool
  /-- Pressed in every TCLK of the window so far. -/
  pressed : Bool
  due    : List Due
  /-- Charge below 4 KiB that the energy CHARGE counter has not counted (R429). -/
  rest   : Nat
deriving DecidableEq, Repr

structure Regulator where
  masters : SMap Master
  factor  : Nat
  deliver : Nat
  guarSum : Nat
  /-- DLQ_MON_CTRL as it governs the running window (R302). -/
  mon     : BitVec 4
  /-- WINDOW as it governs the running window (R287). -/
  window  : Nat
  /-- QUOTA and QWIN as they govern the running quota window (R308). -/
  quota   : Nat
  qwin    : Nat
deriving DecidableEq, Repr

/-! ## A Press slice -/

structure Way where
  valid  : Bool
  dirty  : Bool
  keep   : Bool
  poison : Bool
  bank   : Nat
  row    : Nat
  bolt   : Nat
  data   : LineData
  /-- Its stored CRC-32C (R149, R184). -/
  crc    : BitVec 32
deriving DecidableEq, Repr

/-- One set: its ways and its recency order, most recent way first (R149). -/
structure PSet where
  ways  : SMap Way
  order : List Nat
deriving DecidableEq, Repr

/-- How a miss entry stands (R162). -/
inductive MissState where
  | waiting
  | arrived (data : LineData) (poison : Bool)
  /-- The zero fill of a blank line. -/
  | zero
  /-- The first request writes the whole line: no fill takes place (R166). -/
  | whole
deriving DecidableEq, Repr

structure Miss where
  loc     : Loc
  bolt    : Nat
  state   : MissState
  prio    : Nat
  waiters : List Part
deriving DecidableEq, Repr

/-- A line that waits for room in the Hamper (R164, R253). -/
structure OutLine where
  loc    : Loc
  bolt   : Nat
  data   : LineData
  poison : Bool
  victim : Bool
  /-- The part that finishes once the line is in the Hamper. -/
  waiter : Option Part
deriving DecidableEq, Repr

/-- The way chosen for a line whose victim still waits for the Hamper (R163, R164). -/
structure Claim where
  loc : Loc
  way : Nat
deriving DecidableEq, Repr

structure Slice where
  /-- Arbiter inputs by master, oldest first (R305). -/
  arb     : SMap (List Part)
  /-- The master last granted at each priority (R306). -/
  rr      : SMap Nat
  quota   : Nat
  quotaRaised : Bool
  /-- The input whose head the arbiter has decided to grant, and whether the grant counts against the quota (R311, R312). -/
  decided : Option (Nat × Bool)
  /-- The same, should the next TCLK begin a quota window; a held grant stands in both (R311, R312). -/
  atWindow : Option (Nat × Bool)
  /-- Granted requests that wait: for an operation in progress (R161), a candidate, or a resource; in grant order. -/
  held    : List Part
  /-- A granted request that waits for a resource: the slice accepts no grant meanwhile (R162, R332, R364, R446). -/
  stalled : Option Part
  /-- Bolts whose ZERO this slice has granted and not finished (R350). -/
  zeroing : List Nat
  sets    : SMap PSet
  miss    : List Miss
  outbox  : List OutLine
  /-- Lines a maintenance sweep treats after their operation ends (R180). -/
  deferred : List Loc
  claims  : List Claim
  /-- Sets by which a running sweep is behind in this slice: the TCLK in which it waited for the Hamper (R180). -/
  behind  : Nat
deriving DecidableEq, Repr

/-! ## A channel -/

/-- An entry of the read queue or of the background slot. `cols` are the line columns not yet read, `row` and `oddRow` the rows
that its even and its odd line name after redirection: a Patch move's pointer may lie between the two (R251, R386). -/
structure REntry where
  id    : Nat
  kind  : EKind
  bank  : Nat
  row   : Nat
  oddRow : Nat
  cols  : List Nat
  orow  : Nat
  owner : Owner
  prio  : Nat
  aged  : Bool
  since : BitVec 64
  /-- The internal master whose credit the entry holds. -/
  master : Option Nat
deriving DecidableEq, Repr

/-- The row that a line of a read entry names. -/
def REntry.rowOf (e : REntry) (col : Nat) : Nat := if e.kind = .bg ∧ col % 2 = 1 then e.oddRow else e.row

/-- An entry of the Hamper. For a DELTA `line` is the delta. -/
structure HEntry where
  id     : Nat
  kind   : EKind
  bank   : Nat
  row    : Nat
  col    : Nat
  orow   : Nat
  bolt   : Nat
  line   : DLine
  /-- Drain read issued. -/
  drained : Bool
  /-- The old line, once the drain read has returned. -/
  old    : Option DLine
  reserved : Bool
  deltaSent : Bool
  window : Bool
  urgent : Bool
  /-- M17 line write-back that VERIFY reads back (R387). -/
  verify : Bool
deriving DecidableEq, Repr

/-- A reservation of one Hamper entry for the delta of another member's DATA entry (R254). -/
structure Resv where
  tile : Nat
  hid  : Nat
  bank : Nat
  row  : Nat
  col  : Nat
deriving DecidableEq, Repr

inductive Mode where
  | read | hwm | forced | idle
deriving DecidableEq, Repr

/-- A read on its way back from the memory: what the array held, if it is defined. -/
structure Fly where
  kind    : EKind
  owner   : Owner
  bank    : Nat
  row     : Nat
  orow    : Nat
  col     : Nat
  at_     : Nat
  content : Option DLine
  prio    : Nat
  since   : BitVec 64
  master  : Option Nat
  /-- The last line of its entry: its return returns the credit. -/
  last    : Bool
  /-- The number of its entry. -/
  id      : Nat
deriving DecidableEq, Repr

/-- A write command of the last ones: the entry, its hem cycle, what the line held before it and what it holds after it. -/
structure Wrote where
  entry  : HEntry
  at_    : Nat
  before : Option DLine
  after  : Option DLine
deriving DecidableEq, Repr

/-- A bank as the scheduler sees it, in hem cycles (R266). -/
structure Bank where
  openRow : Option Nat
  actAt   : Option Nat
  preAt   : Option Nat
  rdAt    : Option Nat
  wrAt    : Option Nat
  /-- Busy with a refresh until this cycle. -/
  busyTo  : Nat
deriving DecidableEq, Repr

/-- A near rank, or the whole far channel (rank 0). -/
structure Rank where
  acts    : List Nat
  rdAt    : Option Nat
  wrAt    : Option Nat
  down    : Bool
  downAt  : Nat
  upAt    : Option Nat
  /-- Busy with a refresh until this cycle. -/
  busyTo  : Nat
  selfRefresh : Bool
deriving DecidableEq, Repr

/-- An HBM4 command as both pseudo-channels receive it: its history code, and the bank coordinate as stack ID, bank group and
bank (R266, R421). -/
structure Hbm where
  code  : Nat
  sid   : Nat
  group : Nat
  bank  : Nat
  row   : Nat
  col   : Nat
deriving DecidableEq, Repr

/-- What a hem drives and receives (R397 to R406): the command buses of a hem cycle, each on two edges, with their parity;
the two halves of the line that last crossed, with their metadata, the hem cycle in which it crossed or, of a burst, began to,
and whether the write or the read strobes went with it. For a far hem the halves are the two pseudo-channels' (R421). -/
structure Seam where
  at_  : Nat
  ra   : BitVec 10 × BitVec 10
  rpar : Bool × Bool
  ca   : BitVec 8 × BitVec 8
  cpar : Bool × Bool
  dq   : BitVec 256 × BitVec 256
  dm   : BitVec 16 × BitVec 16
  dqAt : Nat
  wdqs : Bool
  rdqs : Bool
  hbm  : Option Hbm
deriving DecidableEq, Repr

/-- Commands of a hem that no entry asks for: temperature reads (R410), read tracking, drift tracking, the hem's and the
stack's impedance calibration (R424). -/
inductive HemTask where
  | temp (rank : Nat)
  | trk (rank : Nat)
  | drift
  | gap
  | zq
deriving DecidableEq, Repr

/-- The mode registers of one layer of a near channel (R409), its training FIFO, oldest line first (R414), and the TRK
commands it has taken. -/
structure Layer where
  mr0  : BitVec 16
  mr1  : BitVec 16
  mr2  : BitVec 16
  mr4  : BitVec 16
  mr6  : BitVec 16
  mr7  : BitVec 16
  fifo : List DLine
  trks : Nat
deriving DecidableEq, Repr

/-- What the initialisation of a far stack sets in its mode registers, for all its channels (R420, R423, R427). -/
structure Stack where
  started : Bool
  cl      : Nat
  cwl     : Nat
  /-- The stack's own ECC; its host-side ECC stays off and its metadata bits carry the CRC. -/
  dieEcc  : Bool
  hostEcc : Bool
  metaOn  : Bool
  caParity : Bool
deriving DecidableEq, Repr

/-- Commands of the history (DLT_FRZ_DATA, SPACE 1), numbered 0 ACT to 7 other; with the bus that carried it, row or column,
its RCODE or CCODE, and whether it goes in SAFE mode, which takes two NCLK (R408). -/
structure Cmd where
  code  : Nat
  auto  : Bool
  bank  : Nat
  row   : Nat
  col   : Nat
  at_   : Nat
  onRow : Bool
  sub   : Nat
  safe  : Bool
deriving DecidableEq, Repr

/-- The freeze snapshot (R273): entries as DLT_FRZ_DATA shows them, by position, and the last commands. -/
structure Snapshot where
  source  : BitVec 2
  refErr  : Nat
  winWrites : Nat
  entries : SMap (BitVec 32)
  history : SMap (BitVec 32)
deriving DecidableEq, Repr

/-- What a command to one layer has changed there, for a layer discards a command whose bus fails (R407): a mode register with what
it held before, the count of TRK commands, the training FIFO by a WR or by a RD with the line that it took. -/
inductive ModeUndo where
  | mr (reg old : Nat)
  | trk
  | fifoWr
  | fifoRd (line : Option DLine)
deriving DecidableEq, Repr

/-- A command that has changed a layer: its hem cycle, its rank, and what it changed (R407). -/
structure ModeWrite where
  at_  : Nat
  rank : Nat
  undo : ModeUndo
deriving DecidableEq, Repr

/-- A parity report that has stopped the hem (R271). -/
structure Alert where
  source : BitVec 2
  at_    : Nat
  /-- NCLK in which the column bus failed its check, with the layers that discarded the command (R407). -/
  bad    : List (Nat × BitVec 2)
deriving DecidableEq, Repr

/-- The channel scheduler of a tile. -/
structure Chan where
  nextId  : Nat
  rq      : List REntry
  bg      : Option REntry
  ham     : List HEntry
  /-- DATA and DELTA entries whose write has been issued and whose drain read, or its rebuild, has not returned (R255,
  R261, R340). -/
  awaiting : List HEntry
  resv    : List Resv
  mode    : Mode
  /-- Hamper entries of the running round, in selection order (R261). -/
  round   : List Nat
  roundWr : Bool
  banks   : SMap Bank
  ranks   : SMap Rank
  colAt   : Option Nat
  fly     : List Fly
  /-- The last 16 commands, newest first. -/
  history : List Cmd
  /-- The last 16 write commands, newest first: those of the alert window are undone or kept at a freeze (R272). -/
  recent  : List Wrote
  alert   : Option Alert
  /-- The last NCLK in which each layer's dl_sm_alert_n bit is low (R407). -/
  lowTo   : SMap Nat
  /-- Refreshes a rank owes (R325). -/
  owed    : SMap Nat
  /-- The next far bank coordinate of the REFpb rotation (R315). -/
  rotor   : Nat
  /-- Refreshes due and not yet issued: the target of each. -/
  dueRef  : List Nat
  /-- RFM requests pending: the bank coordinate, and the hem cycle in which the request came (R318). -/
  rfm     : List (Nat × Nat)
  /-- The last due point of each near rank, or of the far sequence at 0: the next one lies after it (R319). -/
  base    : SMap Nat
  tasks   : List HemTask
  /-- The stack's calibration takes the channel until this cycle (R424). -/
  quietTo : Nat
  seam    : Seam
  /-- The last 16 mode register writes and TRK commands, newest first. -/
  mrws    : List ModeWrite
deriving DecidableEq, Repr

/-! ## Service of a tile -/

inductive SvcState where
  | in_ | lifting | out | returning
deriving DecidableEq, Repr

inductive Reason where
  | marking | frozen | keepOut | held
deriving DecidableEq, Repr

inductive PatchState where
  | free | moving | active
deriving DecidableEq, Repr

structure Patch where
  state : PatchState
  bank  : Nat
  row   : Nat
  spare : Nat
deriving DecidableEq, Repr

/-- A running move: the entry, the spare it fills, the spare the row leaves, its pointer, the job of its column. -/
structure Move where
  entry   : Nat
  bank    : Nat
  row     : Nat
  spare   : Nat
  old     : Option Nat
  ptr     : Nat
  job     : Option Nat
  /-- M21 has been asked to write the table's new record. -/
  saved   : Bool
deriving DecidableEq, Repr

/-- A row tracker entry (R387): FAIL counts, and parity rewrites by Rinse. -/
structure Track where
  bank   : Nat
  row    : Nat
  fails  : Nat
  fixes  : Nat
  force  : Bool
  /-- Its retirement has been reported (R390). -/
  told   : Bool
deriving DecidableEq, Repr

inductive HemUse where
  | idle | tracking | training | nearEnd | farEnd
deriving DecidableEq, Repr

structure Hem where
  use     : HemUse
  result  : Nat
  drift   : BitVec 8
  margin  : BitVec 8
  driftRaised : Bool
  lbPin   : Option (BitVec 9)
  stop    : Bool
  /-- Stopped by a return to service: the result is 5 (R419). -/
  byReturn : Bool
  /-- The trained values in use, as the TRAIN section holds them (R415, R423, R494). -/
  values  : Nat
deriving DecidableEq, Repr

/-- A Ledger section on its way to the channel. -/
structure LedJob where
  off  : Nat
  n    : Nat
  left : Nat
deriving DecidableEq, Repr

structure Svc where
  state   : SvcState
  reason  : Reason
  /-- Lift slot that holds, or is taking, this channel's copy. -/
  slot    : Option Nat
  hasCopy : Bool
  warmOut : Bool
  draining : Bool
  snap    : Option Snapshot
  patches : SMap Patch
  /-- Spare indices once taken: bank × 64 + index. -/
  spares  : List Nat
  allSparesUsed : Bool
  tracker : List Track
  move    : Option Move
  failsInWindow : Nat
  rate    : Nat
  advise  : Bool
  hem     : Hem
  /-- DLT_ST_RESULT bits (R354). -/
  stResult : BitVec 32
  /-- Sections that M21 is writing: byte offset, lines, and line writes not issued yet (R496). -/
  led     : List LedJob
deriving DecidableEq, Repr

structure Tile where
  slice : Slice
  chan  : Chan
  svc   : Svc
deriving DecidableEq, Repr

/-! ## Panels -/

/-- One line position of a bolt: panel, bank coordinate, usable row, bolt slot, line of the ply (R83, R336). -/
structure Stripe where
  panel : Nat
  bank  : Nat
  row   : Nat
  slot  : Nat
  half  : Nat
deriving DecidableEq, Repr

/-- What a job of the panel logic is for. -/
inductive JobKind where
  /-- Darn rebuild of one member's line, or of the parity line (member 16), for `owner` on its tile (R340, R365, R367). -/
  | rebuild (member : Nat) (owner : Owner) (writeBack : Bool) (ekind : EKind)
  /-- R370: the new line of an out member. -/
  | reconstruct (member : Nat) (line : DLine)
  /-- R341: stain conversion; the member and Hamper entry of a DATA drain read that started it, or the owner. -/
  | convert (member : Nat) (owner : Owner) (supplied : Option DLine)
  | rinse
  | walk (tile : Nat)
  /-- One column of a Patch move of a data row (false) or a parity row (true). -/
  | patch (tile : Nat) (parity : Bool) (loc : Loc)
  /-- The read-back of a rebuilt line (R387). -/
  | verify
  /-- Lift bolt n of a tile's lift copy: slot ply + 32 × half (R380). -/
  | lift (tile n : Nat)
deriving DecidableEq, Repr

/-- A job. Slots 0 to 15 are the members' lines, 16 the parity line; a job of a whole bolt adds 32 for line 1. -/
structure Job where
  stripe : Stripe
  kind   : JobKind
  prio   : Nat
  /-- Reads not issued yet: the hold of R368 waits for DELTA entries, or a rebuild slot is missing. -/
  toRead : List Nat
  /-- Reads issued and not returned. -/
  open_  : List Nat
  got    : SMap (DLine × Check)
  /-- Its FULL writes that are not created yet: it holds on until they are (R372). -/
  puts   : Nat
  /-- Lines that a FULL entry has replaced since the job asked for them: a conversion or a walk reads them again (R341). -/
  stale  : List Nat
  /-- The number of the read entry that a rebuild stands for, and whether that entry's age has raised its priority (R262, R367). -/
  born   : Nat
  aged   : Bool
deriving DecidableEq, Repr

/-- A ZERO or WRITEBOLT of one bolt, gathered from its members' grants (R170, R253, R350). -/
structure BoltOp where
  txn     : Nat
  bolt    : Nat
  zero    : Bool
  hint    : Hint
  stripe  : Stripe
  master  : Nat
  granted : List Nat
  lines   : SMap LineData
deriving DecidableEq, Repr

structure Panel where
  jobs      : List Nat
  boltOps   : List BoltOp
  /-- Positions of Rinse and of the walk in the order of R377: (W × NB + K) × 16 + s. -/
  rinsePos  : Nat
  walkTile  : Option Nat
  walkPos   : Nat
  /-- Tiles that wait for their walk (R379). -/
  walkQueue : List Nat
deriving DecidableEq, Repr

/-! ## Instance units -/

/-- The Blank map as the valid bolts: disjoint, rising, non-adjacent intervals first to last (R347). -/
structure BlankMap where
  valid  : List (Nat × Nat)
  /-- Words whose SEC-DED code shows an error, and whether it cannot be corrected (R351). -/
  errs   : SMap Bool
  busy   : Bool
  known  : Bool
  /-- Blank bolts that an uncorrectable word has made valid, with the keys of their lines written since (R351). -/
  lost   : SMap (List Nat)
deriving DecidableEq, Repr

/-- The Mend map: panels marked as a whole, and bolts that differ from their panel's mark, rising (R374, R376). -/
structure MendMap where
  panels : List Nat
  diff   : List Nat
  /-- Words whose SEC-DED code shows an error, and whether it cannot be corrected. -/
  errs   : SMap Bool
deriving DecidableEq, Repr

inductive TubState where
  | free | open_ | spilled | refused | failed
deriving DecidableEq, Repr

/-- An accumulator entry (R195, R201, R203, R207). -/
inductive Acc where
  /-- Binary32 pattern, or a 32-bit integer. -/
  | w32 (v : BitVec 32)
  /-- The window integer and the special state: 0 FINITE, 1 POS_INF, 2 NEG_INF, 3 NAN. -/
  | win (a : Int) (special : Nat)
  /-- MAX and MIN. -/
  | empty
  | nan
  | inf (neg : Bool)
  /-- The exact value (−1)^neg × mag × 2^exp. -/
  | num (neg : Bool) (mag : Nat) (exp : Int)
deriving DecidableEq, Repr

/-- A tub header (R224). -/
structure Tub where
  state  : TubState
  tag    : BitVec 16
  op     : Nat
  fmt    : Nat
  mode   : Nat
  wb     : Int
  size   : Nat
  expect : Nat
  sectorsIn : Nat
  /-- AGE of its descriptor (R227). -/
  age    : Nat
  /-- When the age restarted, its fixed limit, and whether STRAGGLER has been raised (R247). -/
  start  : BitVec 64
  limit  : Nat
  aged   : Bool
  /-- Its incarnation. -/
  gen    : Nat
deriving DecidableEq, Repr

/-- One opening of a tub: what stays until its requests have completed and its chunks are released (R239, R245). -/
structure Incarnation where
  op     : Nat
  fmt    : Nat
  mode   : Nat
  wb     : Int
  size   : Nat
  /-- INEXACT, OVERFLOW, NAN, INF, RESULT_OVF (R213). -/
  flags  : BitVec 5
  /-- Failed by a check failure or an M16 POISON (R244). -/
  failed : Bool
  /-- Its header is FREE or has been reopened. -/
  freed  : Bool
  home   : Nat
  chunks : Nat
  /-- Chunk numbers in the spill region; empty for a resident tub. -/
  spill  : List Nat
  accs   : SMap Acc
deriving DecidableEq, Repr

/-- A CONTRIB or a drain in its key's queue (R216, R237, R240). -/
structure Staged where
  txn     : Nat
  gen     : Nat
  key     : Nat
  tile    : Nat
  entries : Nat
  since   : BitVec 64
  drain   : Bool
  /-- Chunks of a spilled tub that are not leased yet: it joins its key's queue when there are none (R240). -/
  needs   : List Nat
  /-- Beats dispatched to the tile's lane input queue, and beats that have entered a lane pipeline (R214, R216). -/
  sent    : Nat
  entered : Nat
  /-- Beats whose elements are in their entries (R214, R215). -/
  written : Nat
deriving DecidableEq, Repr

/-- A lease chunk of a near slice (R240, R241): the incarnation, the chunk, and when it was last used. -/
structure Lease where
  gen   : Nat
  chunk : Nat
  used  : BitVec 64
  /-- 0 being read, 1 held, 2 being written back. -/
  phase : Nat
deriving DecidableEq, Repr

/-- A tub line whose next check fails (R185): the accumulators it holds, and its tile, set and way. -/
structure TubFlaw where
  gen  : Nat
  lo   : Nat
  n    : Nat
  tile : Nat
  set  : Nat
  way  : Nat
deriving DecidableEq, Repr

structure Mangle where
  key       : Nat
  /-- The key that a decided switch enters (R214). -/
  next      : Option Nat
  /-- The running batch: its beginning and its BATCH_MAX (R218). -/
  batch     : Option (BitVec 64 × Nat)
  /-- Tub requests waiting at the input, in admission order (R217). -/
  input     : List Nat
  queue     : List Staged
  tubs      : SMap Tub
  incs      : SMap Incarnation
  gen       : Nat
  /-- Resident chunks taken, by near tile. -/
  taken     : SMap Nat
  /-- Chunks taken in the spill region, as disjoint rising intervals. -/
  spillUsed : List (Nat × Nat)
  leases    : SMap (List Lease)
  /-- A SPILLED TUB_OPEN that waits for its ZEROs (R233): transaction and requests outstanding. -/
  opening   : List (Nat × Nat)
  flaws     : List TubFlaw
  /-- Enabled Mangle cycles for which a tile's lanes still take a beat or deliver a drain (R221, R237). -/
  busy      : SMap Nat
  /-- The counter of R444, and the MANGLE_EN pattern in force. -/
  phase     : Nat
  en        : Nat
deriving DecidableEq, Repr

structure RegionHeat where
  temp    : BitVec 8
  step    : Nat
  hold    : Nat
  doubled : Bool
  lost    : Bool
  crit    : Bool
  misses  : Nat
  /-- Hem cycles in which the doubled spacing last began, and ended (R324). -/
  halfFrom : Nat
  halfTo  : Option Nat
deriving DecidableEq, Repr

/-- A PMBus slot within the energy window (R433 to R435). -/
structure Rail where
  valid  : Bool
  stale  : Bool
  misses : Nat
  power  : Nat
  sum    : Nat
  count  : Nat
deriving DecidableEq, Repr

structure Energy where
  /-- Event counts since the last sample: owner × 16 + class (R428, R429). -/
  counts  : SMap Nat
  /-- Cumulative totals in pJ by ESEL index (R430, R431). -/
  totals  : SMap Nat
  /-- Coefficients in force (R431): index 0 to 16, 17 for STATIC. -/
  coefs   : SMap Nat
  eclk    : BitVec 64
  winPj   : Nat
  phase   : BitVec 4
  grant   : Nat
  fresh   : Bool
  staleCnt : Nat
  stale   : Bool
  pEff    : Nat
  aPrev   : Nat
  estPrev : Nat
  spent   : Nat
  exhausted : Bool
  rinseHold : Bool
  midwin  : Bool
  point   : Nat
  target  : Nat
  /-- Regions of a change of point still to run, in order (R446). -/
  changing : List Nat
  /-- The first of them is paused: its change has started. -/
  begun   : Bool
  chg     : Bool
  heldOff : BitVec 4
  run     : Nat
  diverged : Bool
  coefStale : Bool
  suspended : Bool
  measValid : Bool
  estLast : Nat
  measLast : Nat
  acctLast : Nat
  rails   : SMap Rail
  page    : SMap Nat
  /-- Where the PMBus sweep goes on, and VOUT_MODE as last read of a slot (R433). -/
  pmNext  : Nat
  vmodes  : SMap Nat
  /-- h[i][p] at i × 16 + p (R452). -/
  hist    : SMap Nat
  /-- The latest report of each instance: phase and A (R453). -/
  reports : SMap Nat
  started : Bool
  /-- The choice of step 5 of R443 that waits for the end of a running change. -/
  wish    : Option Nat
  /-- TCLK of a tile's ranks awake, and powered down, beyond the last whole count of ON and DLT_PD_TIME. -/
  onRest  : SMap Nat
  pdRest  : SMap Nat
deriving DecidableEq, Repr

inductive LinkState where
  | down | training | up | mismatch
deriving DecidableEq, Repr

/-- A message queued on a link, with its relay channel (R460, R461). -/
structure Queued where
  msg  : Msg
  chan : Nat
  relayed : Bool
deriving DecidableEq, Repr

structure Link where
  state   : LinkState
  modules : BitVec 5
  queue   : List Queued
deriving DecidableEq, Repr

/-- What an instance keeps of one other instance. -/
structure Peer where
  marked   : Bool
  cause    : BitVec 3
  unreach  : Bool
  seqOut   : BitVec 16
  seqIn    : BitVec 16
  /-- Sequence numbers skipped, whose late request is discarded (R464). -/
  skipped  : List Nat
  reorder  : SMap Msg
  /-- DLK_BCAST.STATE of the worker. -/
  bcast    : Nat
  acked    : Bool
  verified : Bool
  misses   : Nat
  hbWaiting : Bool
  beating  : Bool
  /-- The last management message to it took the path that is not preferred (R460). -/
  detour   : Bool
deriving DecidableEq, Repr

structure Package where
  links   : SMap Link
  peers   : SMap Peer
  /-- Bit j: the link between the neighbour on link j and the opposite instance is up, as far as the adapters know (R460,
  R466; log entry 27). -/
  far : BitVec 2
  isolated : Bool
  mgrLost : Bool
  applyAt : Bool
  /-- A HELLO has been exchanged since reset: until then DLK_PRESENT and DLK_ABSENT_INFO read their reset values (R477). -/
  helloSeen : Bool
  /-- TCLK and ECLK counts at the last heartbeat (R469). -/
  beatT   : BitVec 64
  beatE   : BitVec 64
  hbSeq   : BitVec 8
  bcastBusy : Bool
  /-- A JOIN rather than the first broadcast (R474). -/
  joining : Option (BitVec 2)
  /-- Forwarded requests outstanding, oldest first: the transaction, the owner, when it was sent. -/
  fwds    : List (Nat × BitVec 2 × BitVec 64)
  /-- Messages held back at their sender by a full queue, oldest first (R62, R63). -/
  held    : List Msg
  /-- Payload below 4 KiB sent and received (R428). -/
  txRest  : Nat
  rxRest  : Nat
deriving DecidableEq, Repr

/-- A Lint record, eight words (R358). -/
structure LintRec where
  words : List Word
deriving DecidableEq, Repr

structure Lint where
  /-- With the place of its source and kind in the order of R357. -/
  queue : List (Nat × LintRec)
  ring  : SMap LintRec
  head  : BitVec 13
  seq   : BitVec 15
  open_ : Bool
  /-- Lines of the diagnostic ways whose next check fails (R185). -/
  bad   : List Nat
deriving DecidableEq, Repr

structure Tally where
  counts : SMap Nat
  lastAt : SMap (BitVec 64)
  satRaised : BitVec 8
deriving DecidableEq, Repr

/-- Fuses of R485, with the unique identity; only the wrapper's FUSE_PROG writes them. -/
structure Fuses where
  uid    : BitVec 64
  minSeq : Nat
  revoke : BitVec 4
  debug  : Bool
  keys   : List (BitVec 384)
deriving DecidableEq, Repr

/-- Steps of DLB_BOOT_STATUS.STEP and the state of the image. -/
structure Boot where
  inst    : BitVec 2
  mgr     : BitVec 2
  step    : Nat
  halted  : Bool
  done    : Bool
  warm    : Bool
  applied : Bool
  imgState : Nat
  imgReason : Nat
  imgDetail : Nat
  image   : SMap Word
  layout  : List Word
  /-- The reset followed an entry that drove dl_sr_done to 1 and dl_mem_rst_n stayed deasserted (R480). -/
  warmOk  : Bool
  warmState : Nat
  warmErr : Nat
  ledOrderly : Bool
  ledBlank : Bool
  ledMatch : Bool
  ledCopyB : Nat
  ledLost : Nat
  epoch   : BitVec 32
  trainDone : Bool
  trainRestored : Bool
  trainFailed : Nat
  trainMargin : BitVec 8
  stRun   : Nat
  stFatal : Bool
  stTiles : Nat
  stPanels : Nat
  stPress : Bool
  stBlank : Bool
  stFirst : BitVec 32
deriving DecidableEq, Repr

/-- The sideband, the clocks and the wrapper. -/
structure Pins where
  /-- The logic is held in reset: by dl_rst_n, or since the entry into test mode (R541). -/
  rstAsserted : Bool
  /-- dl_rst_n is asserted. -/
  rstPin  : Bool
  memRst  : Bool
  ready   : Bool
  srDone  : Bool
  mask    : BitVec 24
  wrapper : BitVec 4
  testMode : Bool
  /-- A reset is needed after test mode (R541). -/
  testTainted : Bool
  shiftOut : List Nat
  pllCore : Bool
  pllSeam : Bool
  pllFar  : Bool
  /-- The hems forward their clock (R397, R401). -/
  ck      : Bool
  nearSlow : Bool
  far0Slow : Bool
  far1Slow : Bool
  droop   : Bool
deriving DecidableEq, Repr

/-- The last YCP response, and what each agent holds of a split pair (R36, R37, R530). -/
structure Ycp where
  rsp   : Option (BitVec 2 × Word)
  /-- dl_ycp_rsp_par of that response (R529). -/
  par   : Bool
  /-- What the manager's last read returned (R33, R36). -/
  mgr   : Option Word
  capHost : Option (Nat × Word)
  capMgr  : Option (Nat × Word)
  holdHost : Option (Nat × Word)
  holdMgr  : Option (Nat × Word)
deriving DecidableEq, Repr

/-- A report to the retirement list (R390): the DLD_RETIRE word without VALID. -/
abbrev Retire := Word

/-- A lift slot (R383): phase 0 idle, 1 copying, 2 held, 3 in use by a walk. -/
structure Lift where
  phase  : Nat
  tile   : Nat
  copied : Nat
  /-- Writes of the lift bolt under copy that wait to be mirrored (R381). -/
  mirror : List (Loc × DLine)
deriving DecidableEq, Repr

/-- Everything of the instance but the DRAM, the fuses and the command queue. -/
structure Dev where
  pins   : Pins
  cycle  : BitVec 64
  /-- The next unread free value of Config (the model's own counter). -/
  free   : Nat
  regs   : SMap Word
  ycp    : Ycp
  boot   : Boot
  nextTxn : Nat
  txns   : SMap Txn
  ports  : SMap Port
  reg    : Regulator
  tiles  : SMap Tile
  nextJob : Nat
  jobs   : SMap Job
  panels : SMap Panel
  blank  : BlankMap
  mend   : MendMap
  /-- Dirty lines a LASTUSE read discarded and nothing has rewritten since: line key and value (R168). -/
  lastUse : SMap LineData
  maint  : Nat
  /-- TCLK that the running maintenance operation has swept, up to 1024 (R180). -/
  sweep  : Nat
  mangle : Mangle
  heat   : SMap RegionHeat
  /-- When the last temperature poll was taken (R321). -/
  polled : Option (BitVec 64)
  /-- The poll period in TCLK, as POLL stood at that poll (R334). -/
  pollLen : Nat
  /-- The layers of the near channels, which the logic's reset does not reach: what they all hold, and by tile × 2 + rank
  those that differ (R409). -/
  layer  : Layer
  layers : SMap Layer
  /-- The two far stacks, which the logic's reset does not reach either. -/
  hbms : SMap Stack
  energy : Energy
  link   : Package
  tally  : Tally
  lint   : Lint
  retire : List Retire
  lifts  : SMap Lift
deriving DecidableEq, Repr

/-- The state of the block. -/
structure State where
  /-- Commands that wait, first in, first out. -/
  pending : List Instr
  fuses   : Fuses
  /-- Lines of the memory arrays whose contents are defined, by line key. -/
  dram    : SMap DLine
  dev     : Dev
deriving DecidableEq, Repr

/-! ## Reset -/

namespace Reset

def port : Port := ⟨none, 0, [], none, false⟩
def master : Master := ⟨[], 0, 0, false, true, [], 0⟩
def regulator : Regulator := ⟨[], 1024, 0, 0, 0, 4, 0x30, 0x40⟩
def way : Way := ⟨false, false, false, false, 0, 0, 0, 0, 0⟩
def pset : PSet := ⟨[], []⟩
def slice : Slice := ⟨[], [], 0, false, none, none, [], none, [], [], [], [], [], [], 0⟩
def bank : Bank := ⟨none, none, none, none, none, 0⟩
def rank : Rank := ⟨[], none, none, false, 0, none, 0, false⟩
/-- NOP with good parity on both buses, no data (R401). -/
def seam : Seam := ⟨0, (0, 0), (false, false), (0, 0), (false, false), (0, 0), (0, 0), 0, false, false, none⟩
/-- A layer after dl_sm_rst_n (R408, R409). Its vendor's codes are a DESIGN CHOICE (log entry 46). -/
def layer : Layer := ⟨0x0001, 0x1100, 0x0A0E, 0, 1, 0, [], 0⟩
def stack : Stack := ⟨false, 0, 0, false, false, false, false⟩
def chan : Chan := ⟨0, [], none, [], [], [], .read, [], false, [], [], none, [], [], [], none, [], [], 0, [], [], [], [],
  0, seam, []⟩
def hem : Hem := ⟨.idle, 0, 0, 0, false, none, false, false, 0⟩
def svc : Svc := ⟨.in_, .marking, none, false, false, false, none, [], [], false, [], none, 0, 0, false, hem, 0, []⟩
def tile : Tile := ⟨slice, chan, svc⟩
def panel : Panel := ⟨[], [], 0, none, 0, []⟩
def mangle : Mangle := ⟨0, none, none, [], [], [], [], 0, [], [], [], [], [], [], 0, 0⟩
def tub : Tub := ⟨.free, 0, 0, 0, 0, 0, 0, 0, 0, 0, 0, 0, false, 0⟩
def heat : RegionHeat := ⟨0, 0, 0, false, false, false, 0, 0, none⟩
def rail : Rail := ⟨false, false, 0, 0, 0, 0⟩
def energy : Energy :=
  ⟨[], [], [], 0, 0, 0, 0, false, 0, false, 0, 0, 0, 0, false, false, false, 0, 0, [], false, false, 0, 0, false, false, false,
   false, 0, 0, 0, [], [], 0, [], [], [], false, none, [], []⟩
def link : Link := ⟨.down, 0, []⟩
def peer : Peer := ⟨false, 0, true, 0, 0, [], [], 0, false, false, 0, false, false, false⟩
def package : Package := ⟨[], [], 0, false, false, false, false, 0, 0, 0, false, none, [], [], 0, 0⟩
def lint : Lint := ⟨[], [], 0, 0, false, []⟩
def tally : Tally := ⟨[], [], 0⟩
def boot : Boot :=
  ⟨0, 0, 0, false, false, false, false, 0, 0, 0, [], [], false, 0, 0, false, false, false, 0, 0, 0, false, false, 0, 0, 0,
   false, 0, 0, false, false, 0⟩
def ycp : Ycp := ⟨none, false, none, none, none, none, none⟩
/-- WS_BYPASS stands between dl_wsi and dl_wso with its one bit: 0, which no rule gives (R540, log entry 4). -/
def pins : Pins :=
  ⟨true, true, false, false, false, 0, 0, false, false, [0], false, false, false, false, false, false, false, false⟩
def blank : BlankMap := ⟨[], [], false, false, []⟩
def mend : MendMap := ⟨[], [], []⟩
def lift : Lift := ⟨0, 0, 0, []⟩

/-- The logic of the instance while dl_rst_n is asserted (R478, R537). -/
def dev : Dev :=
  { pins := pins, cycle := 0, free := 0, regs := [], ycp := ycp, boot := boot, nextTxn := 0, txns := [], ports := [],
    reg := regulator, tiles := [], nextJob := 0, jobs := [], panels := [], blank := blank, mend := mend, lastUse := [],
    maint := 0, sweep := 0, mangle := mangle, heat := [], polled := none, pollLen := 0x100000,
    layer := layer, layers := [], hbms := [], energy := energy, link := package, tally := tally, lint := lint,
    retire := [], lifts := [] }

/-- Fuses: values no rule gives (log entry 4). -/
def fuses : Fuses := ⟨1, 0, 0, true, [0, 0, 0, 0]⟩

end Reset

/-- The block right after the assertion of dl_rst_n, with an empty command queue and no memory line defined. -/
def State.reset : State := { pending := [], fuses := Reset.fuses, dram := [], dev := Reset.dev }

end Sys2Proof.Machine
end

