-- ==== Sys2Proof/Machine/Ops.lean ====
section
/-!
DEFINITION. Named operations over the state: maps by number, register fields, the parts of an instance by number, the
memory of lines, free values, energy event counts.
-/
namespace Sys2Proof.Machine

/-! ## Maps by number -/

/-- What stands at key `k`. -/
def mget {α : Type} : SMap α → Nat → Option α
  | [], _ => none
  | (j, a) :: m, k => if j = k then some a else mget m k

/-- Remove key `k`. -/
def merase {α : Type} : SMap α → Nat → SMap α
  | [], _ => []
  | (j, a) :: m, k => if j = k then merase m k else (j, a) :: merase m k

/-- Put `a` at key `k`, keeping the keys rising. -/
def minsert {α : Type} : SMap α → Nat → α → SMap α
  | [], k, a => [(k, a)]
  | (j, b) :: m, k, a =>
    if k < j then (k, a) :: (j, b) :: m
    else if k = j then (k, a) :: m
    else (j, b) :: minsert m k a

/-- What key `k` reads as: `d` where the map holds nothing. -/
def mgetD {α : Type} (d : α) (m : SMap α) (k : Nat) : α := (mget m k).getD d

/-- Put `a` at key `k`; an entry equal to the default `d` is not kept. -/
def mputD {α : Type} [DecidableEq α] (d : α) (m : SMap α) (k : Nat) (a : α) : SMap α :=
  if a = d then merase m k else minsert m k a

/-- The keys of `m` rise strictly, and all are at least `lo`: the canonical form of a map from `lo` on. -/
def keysFrom {α : Type} : Nat → SMap α → Bool
  | _, [] => true
  | lo, (j, _) :: m => decide (lo ≤ j) && keysFrom (j + 1) m

/-! ## Lists -/

/-- Remove the first element that satisfies `p`, if one does. -/
def takeFirst {α : Type} (p : α → Bool) : List α → Option (α × List α)
  | [] => none
  | a :: l => if p a then some (a, l) else (takeFirst p l).map fun r => (r.1, a :: r.2)

/-- Replace every element that satisfies `p`. -/
def updWhere {α : Type} (p : α → Bool) (f : α → α) (l : List α) : List α :=
  l.map fun a => if p a then f a else a

/-- Fold a step over 0 to n − 1. -/
def iter {α : Type} (n : Nat) (f : Nat → α → α) (a : α) : α :=
  (List.range n).foldl (fun acc i => f i acc) a

/-! ## Bits -/

/-- Bits hi to lo of a register (R15). -/
def bits (w : Word) (hi lo : Nat) : Nat := (w.toNat >>> lo) % 2 ^ (hi + 1 - lo)

/-- The register with bits hi to lo replaced. -/
def setBits (w : Word) (hi lo v : Nat) : Word :=
  let mask : Word := BitVec.ofNat 32 ((2 ^ (hi + 1 - lo) - 1) <<< lo)
  (w &&& ~~~mask) ||| (BitVec.ofNat 32 (v <<< lo) &&& mask)

/-- A field read as signed two's complement, of n bits. -/
def signed (n v : Nat) : Int := if v < 2 ^ (n - 1) then v else (v : Int) - 2 ^ n

def bit (b : Bool) : Nat := if b then 1 else 0

/-! ## Registers -/

/-- The stored value of the register at a byte offset. -/
def rget (d : Dev) (off : Nat) : Word := (mget d.regs off).getD (regReset off)

/-- Store a register, whole. -/
def rset (d : Dev) (off : Nat) (v : Word) : Dev := { d with regs := mputD (regReset off) d.regs off v }

/-- Bits hi to lo of the register at an offset. -/
def rbits (d : Dev) (off hi lo : Nat) : Nat := bits (rget d off) hi lo

def rsetBits (d : Dev) (off hi lo v : Nat) : Dev := rset d off (setBits (rget d off) hi lo v)

/-- Add to an event count in bits hi to lo, which holds at all-ones. -/
def rcount (d : Dev) (off hi lo n : Nat) : Dev :=
  rsetBits d off hi lo (min (rbits d off hi lo + n) (2 ^ (hi + 1 - lo) - 1))

/-- A 32-bit event count that holds at all-ones. -/
def rinc (d : Dev) (off n : Nat) : Dev := rcount d off 31 0 n

/-- Keep the larger value in a register. -/
def rmax (d : Dev) (off n : Nat) : Dev :=
  if (rget d off).toNat < n then rset d off (BitVec.ofNat 32 (min n 0xFFFFFFFF)) else d

/-- Offset of a register of a tile's block (R535). -/
def tileOff (t off : Nat) : Nat := 0x100000 + 0x1000 * t + off

/-! ## Parts of the instance -/

def getTile (d : Dev) (t : Nat) : Tile := mgetD Reset.tile d.tiles t
def setTile (d : Dev) (t : Nat) (x : Tile) : Dev := { d with tiles := mputD Reset.tile d.tiles t x }
def onSlice (d : Dev) (t : Nat) (f : Slice → Slice) : Dev :=
  setTile d t { getTile d t with slice := f (getTile d t).slice }
def onChan (d : Dev) (t : Nat) (f : Chan → Chan) : Dev :=
  setTile d t { getTile d t with chan := f (getTile d t).chan }
def onSvc (d : Dev) (t : Nat) (f : Svc → Svc) : Dev :=
  setTile d t { getTile d t with svc := f (getTile d t).svc }
def onHem (d : Dev) (t : Nat) (f : Hem → Hem) : Dev := onSvc d t fun v => { v with hem := f v.hem }
def slice (d : Dev) (t : Nat) : Slice := (getTile d t).slice
def chan (d : Dev) (t : Nat) : Chan := (getTile d t).chan
def svc (d : Dev) (t : Nat) : Svc := (getTile d t).svc

def getPort (d : Dev) (n : Nat) : Port := mgetD Reset.port d.ports n
def setPort (d : Dev) (n : Nat) (p : Port) : Dev := { d with ports := mputD Reset.port d.ports n p }
def getMaster (d : Dev) (m : Nat) : Master := mgetD Reset.master d.reg.masters m
def setMaster (d : Dev) (m : Nat) (x : Master) : Dev :=
  { d with reg := { d.reg with masters := mputD Reset.master d.reg.masters m x } }
def getPanel (d : Dev) (p : Nat) : Panel := mgetD Reset.panel d.panels p
def setPanel (d : Dev) (p : Nat) (x : Panel) : Dev := { d with panels := mputD Reset.panel d.panels p x }
def getHeat (d : Dev) (r : Nat) : RegionHeat := mgetD Reset.heat d.heat r
def setHeat (d : Dev) (r : Nat) (x : RegionHeat) : Dev := { d with heat := mputD Reset.heat d.heat r x }
def getTub (d : Dev) (i : Nat) : Tub := mgetD Reset.tub d.mangle.tubs i
def setTub (d : Dev) (i : Nat) (x : Tub) : Dev :=
  { d with mangle := { d.mangle with tubs := mputD Reset.tub d.mangle.tubs i x } }
def getLift (d : Dev) (n : Nat) : Lift := mgetD Reset.lift d.lifts n
def setLift (d : Dev) (n : Nat) (x : Lift) : Dev := { d with lifts := mputD Reset.lift d.lifts n x }
def getLink (d : Dev) (j : Nat) : Link := mgetD Reset.link d.link.links j
def setLink (d : Dev) (j : Nat) (x : Link) : Dev :=
  { d with link := { d.link with links := mputD Reset.link d.link.links j x } }
def getPeer (d : Dev) (i : Nat) : Peer := mgetD Reset.peer d.link.peers i
def setPeer (d : Dev) (i : Nat) (x : Peer) : Dev :=
  { d with link := { d.link with peers := mputD Reset.peer d.link.peers i x } }
def getTxn (d : Dev) (i : Nat) : Option Txn := mget d.txns i
def setTxn (d : Dev) (i : Nat) (x : Txn) : Dev := { d with txns := minsert d.txns i x }
def dropTxn (d : Dev) (i : Nat) : Dev := { d with txns := merase d.txns i }
def onTxn (d : Dev) (i : Nat) (f : Txn → Txn) : Dev :=
  match getTxn d i with
  | some x => setTxn d i (f x)
  | none => d
def getJob (d : Dev) (j : Nat) : Option Job := mget d.jobs j
def setJob (d : Dev) (j : Nat) (x : Job) : Dev := { d with jobs := minsert d.jobs j x }
def getSet (s : Slice) (i : Nat) : PSet := mgetD Reset.pset s.sets i
def setSet (s : Slice) (i : Nat) (x : PSet) : Slice := { s with sets := mputD Reset.pset s.sets i x }
def getWay (p : PSet) (w : Nat) : Way := mgetD Reset.way p.ways w
def setWay (p : PSet) (w : Nat) (x : Way) : PSet := { p with ways := mputD Reset.way p.ways w x }
def getBank (c : Chan) (b : Nat) : Bank := mgetD Reset.bank c.banks b
def setBank (c : Chan) (b : Nat) (x : Bank) : Chan := { c with banks := mputD Reset.bank c.banks b x }
def getRank (c : Chan) (r : Nat) : Rank := mgetD Reset.rank c.ranks r
def setRank (c : Chan) (r : Nat) (x : Rank) : Chan := { c with ranks := mputD Reset.rank c.ranks r x }

/-- The next free value, and the counter moved past it (log entry 9). -/
def freeLine (d : Dev) : DLine × Dev :=
  (⟨Config.freeLine d.free, Config.freeMeta d.free⟩, { d with free := d.free + 1 })

/-! ## Geometry (R22, R76, R86, R89) -/

def isFar (t : Nat) : Bool := 256 ≤ t
def regionOfTile (t : Nat) : Nat := if t < 256 then 0 else if t < 288 then 1 else 2
/-- Bank coordinates of a channel. -/
def nbOf (far : Bool) : Nat := if far then 48 else 32
/-- Usable rows of a bank. -/
def nwOf (far : Bool) : Nat := if far then 15360 else 1920
/-- Spare rows of a bank. -/
def sparesOf (far : Bool) : Nat := if far then 56 else 6
/-- Rank of a bank coordinate: the layer of a near channel; a far channel counts as one. -/
def rankOf (t bank : Nat) : Nat := if isFar t then 0 else bank / 16
def panelFar (p : Nat) : Bool := 16 ≤ p
def regionOfPanel (p : Nat) : Nat := if p < 16 then 0 else if p < 18 then 1 else 2

/-! ## Memory of lines -/

/-- The key of a line: tile, bank coordinate, row after redirection, line column. -/
def lineKey (t bank row col : Nat) : Nat := ((t * 64 + bank) * 16384 + row) * 32 + col
/-- The channel of a line key. -/
def keyTile (k : Nat) : Nat := k / (64 * 16384 * 32)

/-- What a line holds, where its contents are defined. -/
def memGet (m : SMap DLine) (k : Nat) : Option DLine := mget m k
def memPut (m : SMap DLine) (k : Nat) (l : DLine) : SMap DLine := minsert m k l
/-- The canonical form of the memory: its keys rise strictly; a line that is not listed has no defined contents. -/
def Memory.wf (m : SMap DLine) : Bool := keysFrom 0 m

/-! ## Lines and sectors -/

/-- Byte enables of a line as a mask of its bits. -/
def expandBe (be : BitVec 64) : LineData :=
  (List.range 64).foldl (fun (acc : LineData) i =>
    if be.getLsbD i then acc ||| (BitVec.ofNat 512 0xFF <<< (8 * i)) else acc) 0

/-- Replace the enabled bytes (R112). -/
def mergeLine (old new : LineData) (be : BitVec 64) : LineData :=
  let m := expandBe be
  (old &&& ~~~m) ||| (new &&& m)

/-! ## Energy counts (R428, R429) -/

/-- One owner's class advances by n: a tile's ten classes, then master m as owner 320 + m, the link as 344. -/
def eCount (d : Dev) (owner cls n : Nat) : Dev :=
  let k := owner * 16 + cls
  { d with energy := { d.energy with counts := mputD 0 d.energy.counts k (mgetD 0 d.energy.counts k + n) } }

/-! ## Outcomes -/

/-- A command whose whole effect is on the device. -/
def onDev (s : State) (f : Dev → Dev) : Host.Outcome State Fault Refusal := .next { s with dev := f s.dev }

end Sys2Proof.Machine
end

