-- ==== Sys2Proof/Machine/Flags.lean ====
section
/-!
DEFINITION. Raising an event (R509 to R521): its interrupt cause, the programmable counters with their filters; and the
Lint records (R356 to R359).
-/
namespace Sys2Proof.Machine

/-- Traffic class of a master (R301). -/
def trafficClass (d : Dev) (m : Nat) : Nat :=
  if m < 16 then bits (rget d 0x2114) (2 * m + 1) (2 * m) else bits (rget d 0x2118) (2 * (m - 16) + 1) (2 * (m - 16))

/-- Numbers of the events of MCLK and ECLK: only T events reach the programmable counters (R510, R512). -/
def isTEvent (e : Nat) : Bool :=
  !(e = 0x101 || e = 0x102 || (0x1C0 ≤ e && e ≤ 0x1C7) || e = 0x1E7)

/-- The filters of counter n on one occurrence (R519). -/
def passes (d : Dev) (n : Nat) (m : Option Nat) (bolt : Option Nat) : Bool :=
  let base := 0x10100 + 0x20 * n
  let c := rget d base
  let fm := !c.getLsbD 29 || (match m with | some x => (rget d (base + 4)).getLsbD x | none => false)
  let fa := !c.getLsbD 28 || (match bolt with
    | some b => decide (bits (rget d (base + 8)) 25 0 ≤ b ∧ b ≤ bits (rget d (base + 12)) 25 0)
    | none => false)
  let fc := !c.getLsbD 27 || (match m with | some x => c.getLsbD (16 + trafficClass d x) | none => false)
  fm && fa && fc

def frozen (d : Dev) : Bool := (rget d 0x10000).getLsbD 31

def countMax : Nat := 2 ^ 48 - 1

/-- Counter n takes k occurrences of event e (R518). -/
def countOne (e : Nat) (m bolt : Option Nat) (k : Nat) (d : Dev) (n : Nat) : Dev :=
  let c := rget d (0x10100 + 0x20 * n)
  if c.getLsbD 31 && !frozen d && decide (bits c 9 0 = e) && isTEvent e && passes d n m bolt then
    let add := if c.getLsbD 30 then (if mget d.tally.lastAt n = some d.cycle then 0 else 1) else k
    let v := min (mgetD 0 d.tally.counts n + add) countMax
    { d with tally := { d.tally with counts := mputD 0 d.tally.counts n v, lastAt := minsert d.tally.lastAt n d.cycle } }
  else d

/-- The programmable counters take k occurrences of event e. -/
def countEvent (e : Nat) (m bolt : Option Nat) (k : Nat) (d : Dev) : Dev :=
  if k = 0 then d else (List.range 8).foldl (countOne e m bolt k) d

/-- Offsets of the pending, enable and set registers of a line (R514). -/
def irqPend (n : Nat) : Nat := 0x80 + 4 * n
def irqEn (n : Nat) : Nat := 0xA0 + 4 * n
def irqSetOff (n : Nat) : Nat := 0xC0 + 4 * n

/-- Set the pending bit of an interrupt cause; count-only events have none (R511, R514). -/
def setPending (e : Nat) (d : Dev) : Dev :=
  if 0x100 ≤ e ∧ e < 0x200 then
    rset d (irqPend ((e - 0x100) / 0x20)) (rget d (irqPend ((e - 0x100) / 0x20)) ||| BitVec.ofNat 32 (1 <<< ((e - 0x100) % 0x20)))
  else d

/-- k occurrences of event e with their master and bolt. -/
def raiseN (d : Dev) (e : Nat) (k : Nat) (m bolt : Option Nat := none) : Dev :=
  if k = 0 then d else countEvent e m bolt k (setPending e d)

/-- One occurrence of event e (R509). -/
def raise (d : Dev) (e : Nat) (m bolt : Option Nat := none) : Dev := raiseN d e 1 m bolt

/-- The level of dl_irq[n] (R515). -/
def irqLevel (d : Dev) (n : Nat) : Bool := rget d (irqPend n) &&& rget d (irqEn n) != 0

/-- Interrupt causes that list M, and those that list A (R509, the cause table of R514). -/
def listsMaster (e : Nat) : Bool := [0x161, 0x162, 0x164, 0x165, 0x181, 0x182, 0x183, 0x1E6].contains e
def listsBolt (e : Nat) : Bool := [0x106, 0x107, 0x120, 0x121, 0x122, 0x123, 0x124, 0x125, 0x182, 0x1E6].contains e

/-- An occurrence of cause e with those of its attributes that the event lists. -/
def raiseCause (d : Dev) (e m bolt : Nat) : Dev :=
  raise d e (if listsMaster e then some m else none) (if listsBolt e then some bolt else none)

/-! Event numbers (R511, R512). -/
namespace Ev
abbrev CYCLES := 0x000
abbrev ADMIT := 0x001
abbrev CHARGE := 0x002
abbrev PRESS_HIT := 0x003
abbrev PRESS_MISS := 0x004
abbrev PRESS_FILL := 0x005
abbrev PRESS_WRITEBACK := 0x006
abbrev ATOMIC_DONE := 0x007
abbrev LINE_RD := 0x008
abbrev LINE_WR := 0x009
abbrev ACT := 0x00A
abbrev REFRESH := 0x00B
abbrev DRAIN_START := 0x00C
abbrev PD_TCLK := 0x00D
abbrev CONTRIB_ACCEPTED := 0x00E
abbrev MANGLE_BEAT := 0x00F
abbrev STAGING_WAIT := 0x010
abbrev REMOTE_FWD := 0x011
abbrev DARN_REBUILD := 0x012
abbrev RINSE_ENTRY := 0x013
abbrev CREDIT_WAIT := 0x014
abbrev DEMOTED := 0x015
abbrev KEEP_EVICT := 0x040
abbrev PRESS_DECLINE := 0x041
abbrev RAW_WAIT := 0x042
abbrev READ_ESCALATE := 0x043
abbrev QUOTA_MASKED := 0x044
abbrev MANGLE_SWITCH := 0x045
abbrev STARTUP_DONE := 0x100
abbrev WARM_READY := 0x101
abbrev PATTERN_REJECTED := 0x102
abbrev SELFTEST_FAIL := 0x103
abbrev LEDGER_COPY := 0x104
abbrev LEDGER_LOST := 0x105
abbrev BLANK_SRAM := 0x106
abbrev MEND_SRAM := 0x107
abbrev PRESS_SRAM := 0x108
abbrev LINT_DROP := 0x109
abbrev TALLY_SAT := 0x10A
abbrev CRC_FAIL := 0x120
abbrev REBUILT := 0x121
abbrev LINE_STAINED := 0x122
abbrev LINE_UNREACHABLE := 0x123
abbrev LINE_DROPPED := 0x124
abbrev PARITY_FIXED := 0x125
abbrev STACK_ECC_CORR := 0x126
abbrev STACK_ECC_UNCORR := 0x127
abbrev TILE_FROZEN := 0x140
abbrev CHANNEL_OUT := 0x141
abbrev CHANNEL_RETURNED := 0x142
abbrev LIFT_READY := 0x143
abbrev PANEL_DOUBLE := 0x144
abbrev ROW_PATCHED := 0x145
abbrev PAGE_RETIRE := 0x146
abbrev WEAR_ADVISE := 0x147
abbrev RINSE_PASS := 0x148
abbrev HEM_DRIFT := 0x149
abbrev STRAGGLER := 0x160
abbrev TUB_REFUSED := 0x161
abbrev TUB_SPILL := 0x162
abbrev TUB_FAILED := 0x163
abbrev TUB_SURPLUS := 0x164
abbrev TUB_EARLY_DRAIN := 0x165
abbrev MANGLE_INEXACT := 0x166
abbrev MANGLE_OVERFLOW := 0x167
abbrev MANGLE_SPECIAL := 0x168
abbrev GUARANTEE_SCALED := 0x180
abbrev GUARANTEE_MISSED := 0x181
abbrev DENIED := 0x182
abbrev PORT_PROTOCOL := 0x183
abbrev THERMAL_CRITICAL := 0x1A0
abbrev TEMP_LOST := 0x1A1
abbrev THROTTLE_STEP := 0x1A2
abbrev REFRESH_DOUBLED := 0x1A3
abbrev REFRESH_FORCED := 0x1A4
abbrev PURSE_EXHAUSTED := 0x1C0
abbrev PURSE_STALE := 0x1C1
abbrev OPPOINT_CHANGE := 0x1C2
abbrev RELOCK_FAIL := 0x1C3
abbrev DROOP := 0x1C4
abbrev ESTIMATE_DIVERGED := 0x1C5
abbrev PMBUS_FAULT := 0x1C6
abbrev CAP_SHORT := 0x1C7
abbrev INSTANCE_ABSENT := 0x1E0
abbrev ISOLATED := 0x1E1
abbrev MANAGER_LOST := 0x1E2
abbrev BCAST_FAIL := 0x1E3
abbrev LINK_MODULE_DOWN := 0x1E4
abbrev LINK_MISMATCH := 0x1E5
abbrev REMOTE_TIMEOUT := 0x1E6
abbrev CONFLICT := 0x1E7
end Ev

/-! ## Lint records -/

def lintDrop (d : Dev) : Dev :=
  let d' := if rget d 0xA04C = 0 then raise d Ev.LINT_DROP else d
  rinc d' 0xA04C 1

/-- Where a record points (R358): a line and its package address, or neither. -/
structure LintAt where
  tile : Nat := 0
  bank : Nat := 0
  row  : Nat := 0
  col  : Nat := 0
  master : Nat := 0
  addr : Nat := 0

/-- The source of a record in the order of R357: a tile, its service state and Patch table included; the panel logic; or an
instance unit as R49 lists them (log entry 62). -/
def lintSource (d : Dev) (kind tile : Nat) : Nat :=
  if kind = 0x01 ∨ kind = 0x03 ∨ kind = 0x06 ∨ kind = 0x21 ∨ kind = 0x23 ∨ kind = 0x26 ∨ kind = 0x28 ∨
      kind = 0x29 then tile
  else if kind = 0x02 ∨ kind = 0x20 ∨ kind = 0x24 ∨ kind = 0x27 then 320 + rbits d (0x4400 + 4 * tile) 8 4
  else 400 + match kind with
    | 0x04 | 0x25 => 5
    | 0x22 => 6
    | 0x05 => 9
    | 0x32 | 0x33 => 10
    | 0x2A | 0x2B | 0x2C => 13
    | 0x2D | 0x2E | 0x2F | 0x31 => 15
    | _ => 11

/-- A record with its sequence number. -/
def withSeq (r : LintRec) (n : Nat) : LintRec :=
  match r.words with
  | w :: ws => ⟨setBits w 23 9 (n % 2 ^ 15) :: ws⟩
  | [] => r
def seqOf (r : LintRec) : Nat := bits (r.words.getD 0 0) 23 9

/-- The record goes after those of the same TCLK whose source and kind do not come after it. -/
def offer (key : Nat) (r : LintRec) : List (Nat × LintRec) → List (Nat × LintRec)
  | [] => [(key, r)]
  | e :: l => if key < e.1 then (key, r) :: e :: l else e :: offer key r l

/-- The queue with a new record among those offered in its TCLK, which take their sequence numbers in that order. -/
def offered (l : Lint) (key : Nat) (r : LintRec) : List (Nat × LintRec) :=
  let now (e : Nat × LintRec) : Bool := e.2.words.getD 2 0 = r.words.getD 2 0 && e.2.words.getD 3 0 = r.words.getD 3 0
  let mine := l.queue.filter now
  let first := match mine with | e :: _ => seqOf e.2 | [] => l.seq.toNat
  let all := offer key r mine
  l.queue.filter (fun e => !now e) ++ ((List.range all.length).zip all).map fun e => (e.2.1, withSeq e.2.2 (first + e.1))

/-- Offer a record to the Lint writer (R357, R358). Records offered before the diagnostic ways are cleared at apply are
discarded and not counted (R488). -/
def lint (d : Dev) (kind : Nat) (w : LintAt := {}) (detail detail2 : Nat := 0) : Dev :=
  if !d.lint.open_ then d
  else
    let w0 := 0x80000000 + kind * 2 ^ 24 + d.lint.seq.toNat * 2 ^ 9 + w.tile
    let w1 := w.row * 2 ^ 18 + w.bank * 2 ^ 12 + w.col * 2 ^ 7 + w.master
    let rec_ : LintRec := ⟨[w0, w1, d.cycle.toNat % 2 ^ 32, d.cycle.toNat / 2 ^ 32, w.addr % 2 ^ 32, w.addr / 2 ^ 32,
      detail, detail2].map (BitVec.ofNat 32)⟩
    let q := offered d.lint (lintSource d kind w.tile * 128 + kind) rec_
    let d1 := { d with lint := { d.lint with seq := d.lint.seq + 1, queue := q.take 64 } }
    if d.lint.queue.length < 64 then d1 else lintDrop d1

/-- The oldest unconsumed record (DLE_LINT_TAIL). -/
def lintTail (d : Dev) : BitVec 13 := (rget d 0xA044).setWidth 13

/-- A check of a Press entry has failed (R184): kind 0 cacheable, 1 tub, 2 diagnostic (DLP_SRAM_INFO). -/
def pressError (d : Dev) (kind : Nat) (dirty : Bool) (tile set way : Nat) : Dev :=
  let d1 := raise (rinc d 0x6030 1) Ev.PRESS_SRAM
  if (rget d1 0x6034).getLsbD 31 then d1
  else rset d1 0x6034 (BitVec.ofNat 32 (2 ^ 31 + bit dirty * 2 ^ 30 + kind * 2 ^ 28 + way * 2 ^ 24 + set * 2 ^ 14 + tile))

/-- The diagnostic line of record i: its slice among the four, and its set (R356). -/
def diagLine (i : Nat) : Nat := i % 4 * 1024 + i / 8

/-- The line of record i is read: where its check fails, both its records are discarded, and read with VALID 1 and every
other field 0 (R185, R359). DIRTY of its capture is 0: DESIGN CHOICE (log entry 72). -/
def diagCheck (d : Dev) (i : Nat) : Dev :=
  if d.lint.bad.contains (diagLine i) then
    let gone : LintRec := ⟨[0x80000000, 0, 0, 0, 0, 0, 0, 0]⟩
    let one (e : Nat × LintRec) : Nat × LintRec := if diagLine e.1 = diagLine i then (e.1, gone) else e
    let l := { d.lint with ring := d.lint.ring.map one, bad := d.lint.bad.filter (· ≠ diagLine i) }
    pressError { d with lint := l } 2 false (316 + i % 4) (i / 8) 15
  else d

/-- The writer writes its oldest queued record at HEAD, or drops it when the ring is full (R356, R357). The record merges
into its half of a line. -/
def lintWrite (d : Dev) : Dev :=
  match d.lint.queue with
  | [] => d
  | (_, r) :: q =>
    let d1 := { d with lint := { d.lint with queue := q } }
    if d.lint.head + 1 = lintTail d then lintDrop d1
    else
      let d2 := diagCheck d1 d1.lint.head.toNat
      { d2 with lint := { d2.lint with ring := minsert d2.lint.ring d2.lint.head.toNat r, head := d2.lint.head + 1 } }

/-- A write of DLE_LINT_TAIL is taken when it lies from the old TAIL to HEAD, modulo 8192 (DLE_LINT_TAIL). -/
def lintTailOk (d : Dev) (v : Word) : Bool :=
  decide ((v.setWidth 13 - lintTail d).toNat ≤ (d.lint.head - lintTail d).toNat)

/-- The record at INDEX lies in the ring's live range. -/
def lintLive (d : Dev) : Bool :=
  let i : BitVec 13 := (rget d 0xA048).setWidth 13
  decide ((i - lintTail d).toNat < (d.lint.head - lintTail d).toNat)

/-- A read of a word of the record at INDEX checks its line. -/
def lintRead (d : Dev) (off : Nat) : Dev :=
  if 0xA060 ≤ off ∧ off < 0xA080 ∧ lintLive d = true then diagCheck d ((rget d 0xA048).toNat % 8192) else d

/-- Word w of the record at INDEX: 0 outside the ring's live range. -/
def lintWord (d : Dev) (w : Nat) : Word :=
  let i : BitVec 13 := (rget d 0xA048).setWidth 13
  if lintLive d then
    match mget d.lint.ring i.toNat with
    | some r => r.words.getD w 0
    | none => 0
  else 0

end Sys2Proof.Machine
end

