-- ==== Sys2Proof/Machine/Operands.lean ====
section
/-!
DEFINITION. The operands of requests: addresses, the fold of an address into tile, bank, row and column and its
inverse, stripes and parity placement, sectors and beats, lengths, the checks of the fold unit.
-/
namespace Sys2Proof.Machine

/-! ## Headers (R111 to R117) -/

def hintOf (h : BitVec 2) : Hint := match h.toNat with | 0 => .none | 1 => .stream | 2 => .keep | _ => .lastuse

/-- TYPE of a kind (R111). -/
def Kind.code : Kind → Nat
  | .read => 0 | .write => 1 | .writebolt => 2 | .zero => 3 | .prefetch => 4 | .clean => 5 | .flush => 6 | .atomic => 7
  | .contrib => 8 | .tubOpen => 9 | .tubAmend => 10 | .tubDrain => 11 | .reserved => 12

def kindOfCode (c : Nat) : Kind :=
  match c with
  | 0 => .read | 1 => .write | 2 => .writebolt | 3 => .zero | 4 => .prefetch | 5 => .clean | 6 => .flush | 7 => .atomic
  | 8 => .contrib | 9 => .tubOpen | 10 => .tubAmend | 11 => .tubDrain | _ => .reserved

def Kind.isTub : Kind → Bool
  | .contrib | .tubOpen | .tubAmend | .tubDrain => true
  | _ => false

/-- Beats of n sectors (R111). -/
def beatsOf (sectors : Nat) : Nat := (sectors + 15) / 16

/-- Request data beats of a kind, the header's included (R111). -/
def Kind.reqBeats (k : Kind) (sectors : Nat) : Nat :=
  match k with
  | .write | .writebolt | .contrib => beatsOf sectors
  | _ => 1

/-- Response beats with OKAY or POISON (R111). -/
def Kind.rspBeats (k : Kind) (sectors : Nat) : Nat :=
  match k with
  | .read | .tubDrain => beatsOf sectors
  | _ => 1

/-- The hint that applies (R117). -/
def Kind.hint (k : Kind) (h : Hint) : Hint :=
  match k, h with
  | .read, h => h
  | .write, .lastuse | .writebolt, .lastuse | .prefetch, .lastuse => .none
  | .write, h | .writebolt, h | .prefetch, h => h
  | _, _ => .none

def byteAddr (a : BitVec 34) : Nat := a.toNat * 32
/-- Instance slot of an address (R74, R115). -/
def slotOf (a : BitVec 34) : Nat := a.toNat / 2 ^ 32
def tubIdOf (a : BitVec 34) : Nat := a.toNat / 2 ^ 16 % 2 ^ 16
def tubSector (a : BitVec 34) : Nat := a.toNat % 2 ^ 11

/-- AOP, SIZE and AOFF of an ATOMIC (R114). -/
def aopOf (attr : BitVec 16) : Nat := attr.toNat % 8
def atomicWide (attr : BitVec 16) : Bool := attr.getLsbD 3
def aoffOf (attr : BitVec 16) : Nat := attr.toNat / 16 % 8

/-- The checks of the port front end, in the order of R121; `none` where every one passes (R114, R119). -/
def frontCheck (k : Kind) (aop : Nat) (a : BitVec 34) (sectors : Nat) (attr : BitVec 16) : Option Rsp :=
  let first := byteAddr a
  let last := first + sectors * 32 - 1
  match k with
  | .reserved => some .denied
  | .atomic =>
    if aop ≥ 5 then some .denied
    else if sectors ≠ 1 ∨ (atomicWide attr ∧ aoffOf attr % 2 = 1) then some .length else none
  | .read | .write | .prefetch | .clean | .flush => if last / 2048 ≤ first / 2048 + 1 then none else some .length
  | .writebolt | .zero => if a.toNat % 64 = 0 ∧ (sectors = 64 ∨ sectors = 128) then none else some .length
  | .tubOpen | .tubAmend => if sectors = 1 ∧ tubSector a = 0 then none else some .length
  | .contrib | .tubDrain => none

/-! ## Regions and the fold (R76, R83 to R86) -/

def regionFirst (r : Nat) : Nat := if r = 0 then 0 else if r = 1 then 0x780000000 else 0x12C0000000
def regionSize (r : Nat) : Nat := if r = 0 then 0x780000000 else 0xB40000000
def regionOf (ia : Nat) : Option Nat :=
  if ia < 0x780000000 then some 0 else if ia < 0x12C0000000 then some 1 else if ia < 0x1E00000000 then some 2 else none
def npOf (r : Nat) : Nat := if r = 0 then 16 else 2
/-- First panel of a region (R85). -/
def panelBase (r : Nat) : Nat := if r = 0 then 0 else if r = 1 then 16 else 18
def foldOrder (d : Dev) (r : Nat) : Nat := rbits d (0x4000 + 4 * r) 1 0

def xorLow (k w : Nat) : Nat := k / 16 * 16 + Nat.xor (k % 16) (w % 16)

/-- Panel number within the region, bank coordinate and usable row of row group G (R84). -/
def foldGroup (order np nb nw g : Nat) : Nat × Nat × Nat :=
  match order with
  | 0 => (g / (nb * nw), g % nb, g / nb % nw)
  | 1 => (g / (nb * nw), xorLow (g % nb) (g / nb % nw), g / nb % nw)
  | 2 => (g / (nw * nb), g / nw % nb, g % nw)
  | _ => (g % np, g / np % nb, g / (np * nb))

/-- The row group at a panel number, bank coordinate and usable row: the inverse of `foldGroup` (R103). -/
def unfoldGroup (order np nb nw pn k w : Nat) : Nat :=
  match order with
  | 0 => (pn * nw + w) * nb + k
  | 1 => (pn * nw + w) * nb + xorLow k w
  | 2 => (pn * nb + k) * nw + w
  | _ => (w * nb + k) * np + pn

/-- Panel and member of a tile (R87). -/
def panelOf (d : Dev) (t : Nat) : Nat := rbits d (0x4400 + 4 * t) 8 4
def memberOf (d : Dev) (t : Nat) : Nat := rbits d (0x4400 + 4 * t) 3 0

/-- The tile at a member position of a panel. -/
def tileAt (d : Dev) (panel member : Nat) : Nat :=
  let want : Word := BitVec.ofNat 32 (panel * 16 + member)
  let guess := panel * 16 + member
  if rget d (0x4400 + 4 * guess) = want then guess
  else ((List.range 320).find? fun t => rget d (0x4400 + 4 * t) = want).getD guess

/-- The stripe that holds the line of an instance address, and the line's data ply (R83, R84). -/
def stripeOf (d : Dev) (r ia : Nat) : Stripe × Nat :=
  let off := ia - regionFirst r
  let far := r != 0
  let f := foldGroup (foldOrder d r) (npOf r) (nbOf far) (nwOf far) (off / 32768)
  (⟨panelBase r + f.1, f.2.1, f.2.2, off / 2048 % 16, off / 64 % 2⟩, off / 128 % 16)

/-- Line column of the data lines of a stripe (R150). -/
def Stripe.col (st : Stripe) : Nat := 2 * st.slot + st.half
/-- Parity member, row and column (R84, R91). -/
def Stripe.parityMember (st : Stripe) : Nat := (st.slot + st.row) % 16
def Stripe.parityBank (st : Stripe) : Nat := Nat.xor st.bank 1
def Stripe.parityRow (st : Stripe) : Nat := nwOf (panelFar st.panel) + st.row / 16
def Stripe.parityCol (st : Stripe) : Nat := 2 * (st.row % 16) + st.half

def stripeDataLoc (d : Dev) (st : Stripe) (member : Nat) : Loc := ⟨tileAt d st.panel member, st.bank, st.row, st.col⟩
def stripeParityLoc (d : Dev) (st : Stripe) : Loc :=
  ⟨tileAt d st.panel st.parityMember, st.parityBank, st.parityRow, st.parityCol⟩

/-- Bolt number of a stripe, and the instance address of its first byte (R77, R103). -/
def stripeBolt (d : Dev) (st : Stripe) : Nat :=
  let r := regionOfPanel st.panel
  let far := panelFar st.panel
  regionFirst r / 2048 +
    unfoldGroup (foldOrder d r) (npOf r) (nbOf far) (nwOf far) (st.panel - panelBase r) st.bank st.row * 16 + st.slot

/-- What a line of a channel belongs to, its row named before redirection. -/
inductive LineRole where
  | data (st : Stripe)
  | parity (st : Stripe)
  | other
deriving DecidableEq, Repr

def roleOf (d : Dev) (l : Loc) : LineRole :=
  let far := isFar l.tile
  let nw := nwOf far
  if l.row < nw then .data ⟨panelOf d l.tile, l.bank, l.row, l.col / 2, l.col % 2⟩
  else if l.row < nw + nw / 16 then
    let w := (l.row - nw) * 16 + l.col / 2
    .parity ⟨panelOf d l.tile, Nat.xor l.bank 1, w, (memberOf d l.tile + 16 - w % 16) % 16, l.col % 2⟩
  else .other

/-- Bolt of a line, 0 for a row that belongs to no bolt. -/
def lineBolt (d : Dev) (l : Loc) : Nat :=
  match roleOf d l with
  | .data st | .parity st => stripeBolt d st
  | .other => 0

/-- Package address of a data line (W4, W5 of R358). -/
def lineAddr (d : Dev) (l : Loc) : Nat :=
  match roleOf d l with
  | .data st =>
    d.boot.inst.toNat * 2 ^ 37 + stripeBolt d st * 2048 + (memberOf d l.tile + 16 - st.slot) % 16 * 128 + st.half * 64
  | _ => 0

/-- Where a line stands, for a Lint record. DESIGN CHOICE (log entry 76): MASTER is 0 in every record; R358 says "MASTER, or 0" and
names no kind of record that has one. -/
def lintLine (d : Dev) (l : Loc) (master : Nat := 0) : LintAt := ⟨l.tile, l.bank, l.row, l.col, master, lineAddr d l⟩

/-- Set of a line in its home slice (R150). -/
def setIndex (l : Loc) : Nat := l.col * 32 + Nat.xor l.row l.bank % 32

/-! ## Sectors and beats (R108) -/

def sectorData (beats : List (BeatEn × BeatData)) (q : Nat) : Sector :=
  (((beats.getD (q / 16) (0, 0)).2) >>> (256 * (q % 16))).setWidth 256
def sectorBe (beats : List (BeatEn × BeatData)) (q : Nat) : BitVec 32 :=
  (((beats.getD (q / 16) (0, 0)).1) >>> (32 * (q % 16))).setWidth 32

/-- First line, and number of lines, that n sectors from a byte address touch. -/
def firstLine (first : Nat) : Nat := first / 64
def lineCount (first sectors : Nat) : Nat := (first + sectors * 32 - 1) / 64 - first / 64 + 1

/-- Write data and byte enables for line i of a request: a sector outside the request has no enable. -/
def lineWrite (first sectors : Nat) (beats : List (BeatEn × BeatData)) (i : Nat) : BitVec 64 × LineData :=
  let half (k : Nat) : BitVec 32 × Sector :=
    let sec := 2 * (first / 64 + i) + k
    let s0 := first / 32
    if s0 ≤ sec ∧ sec < s0 + sectors then (sectorBe beats (sec - s0), sectorData beats (sec - s0)) else (0, 0)
  ((half 1).1 ++ (half 0).1, (half 1).2 ++ (half 0).2)

/-- Whole lines 0 and 1 of data ply p of bolt b of a WRITEBOLT. -/
def boltLine (beats : List (BeatEn × BeatData)) (b p half : Nat) : LineData :=
  let q := b * 64 + p * 4 + half * 2
  sectorData beats (q + 1) ++ sectorData beats q

/-- One response beat from a list of sectors. -/
def packBeat (ss : List Sector) : BeatData :=
  ss.reverse.foldl (fun (acc : BeatData) (x : Sector) =>
    let w : BeatData := x.setWidth 4096
    (acc <<< 256) ||| w) 0

/-- Beats of at most 16 sectors each. -/
def packBeats (n : Nat) (f : Nat → Sector) : List BeatData :=
  (List.range (beatsOf n)).map fun b => packBeat ((List.range (min 16 (n - 16 * b))).map fun j => f (16 * b + j))

/-- rsp_poison[7:0] of each beat: lane group i holds sectors 2i and 2i + 1 of the beat (R123). -/
def poisonBits (n : Nat) (bad : Nat → Bool) : List (BitVec 8) :=
  (List.range (beatsOf n)).map fun b => (List.range 8).foldl (fun (acc : BitVec 8) i =>
    let q := 16 * b + 2 * i
    if (q < n && bad q) || (q + 1 < n && bad (q + 1)) then acc ||| BitVec.ofNat 8 (1 <<< i) else acc) 0

/-! ## The checks of the fold unit (R78, R96, R98 to R101) -/

/-- First and last bolt of n sectors at an instance address. -/
def boltRange (ia sectors : Nat) : Nat × Nat := (ia / 2048, (ia + sectors * 32 - 1) / 2048)

def spillRange (d : Dev) : Option (Nat × Nat) :=
  let n := rbits d 0x4014 13 0
  let b := rbits d 0x4010 15 0
  if n = 0 then none else some (b * 1024, (b + n) * 1024 - 1)

/-- Size of a lift slot in units of 2 MiB, by SERVES (R94, R95). DESIGN CHOICE (log entry 71): a slot with SERVES 0b11 counts 45, as
those of the stacks do; no rule gives it a size, and its image is rejected whatever it is. -/
def liftSize (serves : Nat) : Nat := if serves = 0 then 4 else 45

/-- Bolts of an enabled lift slot (R94, R95). -/
def liftRange (d : Dev) (n : Nat) : Option (Nat × Nat) :=
  let w := rget d (0x4020 + 4 * n)
  if w.getLsbD 31 then some (bits w 15 0 * 1024, (bits w 15 0 + liftSize (bits w 30 29)) * 1024 - 1) else none

def inRange (r : Option (Nat × Nat)) (b : Nat) : Bool :=
  match r with | some (lo, hi) => decide (lo ≤ b ∧ b ≤ hi) | none => false

/-- Read and write needs of a kind (R99). -/
def Kind.needsRead : Kind → Bool
  | .read | .prefetch | .clean | .flush | .atomic => true
  | _ => false
def Kind.needsWrite : Kind → Bool
  | .write | .writebolt | .zero | .atomic => true
  | _ => false

/-- What denies master m an access of kind k to a bolt: the SOURCE of DLF_DENY_INFO (steps 4 and 5 of R78). -/
def denies (d : Dev) (m : Nat) (k : Kind) (b : Nat) : Option Nat :=
  let inSpill := inRange (spillRange d) b
  let inLift := (List.range 4).any fun n => inRange (liftRange d n) b
  let reads23 := m = 23 && !k.needsWrite
  if inSpill && !(m = 16 || reads23) then some 17
  else if inLift && !(m = 17 || reads23) then some 18
  else
    let w := (List.range 16).find? fun n =>
      let base := rget d (0x4100 + 16 * n)
      base.getLsbD 31 && decide (bits base 25 0 ≤ b ∧ b ≤ rbits d (0x4104 + 16 * n) 25 0)
    let masks := match w with
      | some n => (rget d (0x4108 + 16 * n), rget d (0x410C + 16 * n))
      | none => (rget d 0x4040, rget d 0x4044)
    if (k.needsRead && !masks.1.getLsbD m) || (k.needsWrite && !masks.2.getLsbD m) then some (w.getD 16) else none

/-- An instance is in this instance's absent set (R466). -/
def isAbsent (d : Dev) (i : Nat) : Bool :=
  i ≠ d.boot.inst.toNat && ((getPeer d i).marked || (getPeer d i).unreach)

/-- What the fold unit decides of a request. -/
inductive FoldOut where
  | answer (c : Rsp)
  | forward (inst : Nat)
  | deny (source : Nat)
  | local (region ia : Nat)
deriving DecidableEq, Repr

/-- Steps 1 to 5 of R78. DESIGN CHOICE (log entry 56): where different sources deny both touched bolts at the same step, the
recorded SOURCE is the lower bolt's: R102 does not say which. -/
def foldCheck (d : Dev) (m : Nat) (k : Kind) (a : BitVec 34) (sectors : Nat) : FoldOut :=
  let first := byteAddr a
  let last := first + sectors * 32 - 1
  let ia := first % 2 ^ 37
  if last ≥ 0x8000000000 then .answer .range
  else if first / 2 ^ 37 ≠ last / 2 ^ 37 then .answer .range
  else match regionOf ia, regionOf (last % 2 ^ 37) with
    | some r, some r' =>
      if r ≠ r' then .answer .range
      else if slotOf a ≠ d.boot.inst.toNat then
        if isAbsent d (slotOf a) || d.link.isolated then .answer .absent else .forward (slotOf a)
      else
        let (b0, b1) := boltRange ia sectors
        let touched := if b0 = b1 then [b0] else [b0, b1]
        let s4 := touched.findSome? fun b => (denies d m k b).filter (fun x => x ≥ 17)
        match s4 with
        | some src => .deny src
        | none => match touched.findSome? (denies d m k) with
          | some src => .deny src
          | none => .local r ia
    | _, _ => .answer .range

/-- TUB_OPEN and TUB_AMEND descriptor word n (R227, R236). -/
def descWord (beats : List (BeatEn × BeatData)) (n : Nat) : Word := ((sectorData beats 0) >>> (32 * n)).setWidth 32

end Sys2Proof.Machine
end

