-- ==== Sys2Proof/Machine/Integrity.lean ====
section
/-!
DEFINITION. The line check: CRC-32C over a line and its location word, the three outcomes, stains (R335 to R345).
-/
namespace Sys2Proof.Machine

/-- One message bit enters the reflected CRC register of polynomial 0x1EDC6F41 (R335). -/
def crcBit (c b : Nat) : Nat :=
  let x := Nat.xor (c % 2) b
  if x = 1 then Nat.xor (c / 2) 0x82F63B78 else c / 2

/-- CRC-32C of n message bits, the first bit of byte 0 lowest. -/
def crcBits (n msg : Nat) : Nat :=
  Nat.xor ((List.range n).foldl (fun c i => crcBit c (msg >>> i % 2)) 0xFFFFFFFF) 0xFFFFFFFF

/-- The location word (R335). -/
def locWord (l : Loc) : Nat := l.col + l.row * 2 ^ 5 + l.bank * 2 ^ 19 + l.tile * 2 ^ 25

/-- The check code of a line's data at its location (R335). -/
def lineCode (l : Loc) (data : LineData) : BitVec 32 :=
  BitVec.ofNat 32 (crcBits 576 (data.toNat + locWord l * 2 ^ 512))

/-- A line with its code. -/
def coded (l : Loc) (data : LineData) : DLine := ⟨data, lineCode l data⟩

/-- A stain at a location: zero data with the inverted code (R341). -/
def stainAt (l : Loc) : DLine := ⟨0, ~~~(lineCode l 0)⟩

/-- The outcome of R337; `bad` says that the stack reports an uncorrected error. -/
def checkLine (l : Loc) (x : DLine) (bad : Bool) : Check :=
  let c := lineCode l x.data
  if bad then .fail else if x.code = c then .good else if x.code = ~~~c then .stain else .fail

/-- Data and metadata XOR (R336). -/
def xorLine (a b : DLine) : DLine := ⟨a.data ^^^ b.data, a.code ^^^ b.code⟩
def xorLines (ls : List DLine) : DLine := ls.foldl xorLine ⟨0, 0⟩

/-- What a dirty line is written back as: a poisoned one as a stain (R345). -/
def writeBackLine (l : Loc) (data : LineData) (poison : Bool) : DLine := if poison then stainAt l else coded l data

/-- Line at byte offset o of copy A or B (R493). -/
def ledgerLoc (t : Nat) (copyB : Bool) (o : Nat) : Loc :=
  if isFar t then ⟨t, o / 16384 + (if copyB then 24 else 0), 16376 + o % 16384 / 2048, o % 2048 / 64⟩
  else ⟨t, o / 4096 + (if copyB then 16 else 0), 2046 + o % 4096 / 2048, o % 2048 / 64⟩

end Sys2Proof.Machine
end

