-- ==== Sys2Proof/Machine/Seam.lean ====
section
/-!
DEFINITION. The Seam and the far hem as their pins show them: command buses and parity, beats of a line, the layers' mode
registers, SAFE mode and training (R397 to R415, R420, R421).
-/
namespace Sys2Proof.Machine

/-! ## Command buses (R402, R403, R406) -/

/-- RA on the two edges. -/
def rowEdges (rcode rank bank row : Nat) : BitVec 10 × BitVec 10 :=
  (BitVec.ofNat 10 (rcode + rank * 2 ^ 3 + bank * 2 ^ 4 + row / 512 * 2 ^ 8), BitVec.ofNat 10 (row % 512))

/-- CA on the two edges. -/
def colEdges (ccode rank bank col : Nat) (ap : Bool) : BitVec 8 × BitVec 8 :=
  (BitVec.ofNat 8 (ccode + rank * 2 ^ 3 + bank * 2 ^ 4), BitVec.ofNat 8 (col + bit ap * 2 ^ 5))

/-- The number of ones is odd. -/
def isOdd {n : Nat} (v : BitVec n) : Bool := (List.range n).foldl (fun acc i => acc != v.getLsbD i) false

/-- The parity bits of the two edges of a bus (R406). -/
def parityOf {n : Nat} (e : BitVec n × BitVec n) : Bool × Bool := (isOdd e.1, isOdd e.2)

/-- A bus fails where the ones of an edge and its parity bit are odd. -/
def edgeFails {n : Nat} (v : BitVec n) (par : Bool) : Bool := isOdd v != par

/-- What the hem drives with a command is sampled with some bits changed, the parity bit as the top one: the layer's check
of the two buses, row and column; of edge 0 alone in SAFE mode (R408). -/
def busFails (safe : Bool) (s : Seam) (f : BusFlips) : Bool × Bool :=
  let row (v : BitVec 10) (p : Bool) (x : BitVec 11) : Bool := edgeFails (v ^^^ x.setWidth 10) (p != x.getLsbD 10)
  let col (v : BitVec 8) (p : Bool) (x : BitVec 9) : Bool := edgeFails (v ^^^ x.setWidth 8) (p != x.getLsbD 8)
  (row s.ra.1 s.rpar.1 f.row0 || (!safe && row s.ra.2 s.rpar.2 f.row1),
    col s.ca.1 s.cpar.1 f.col0 || (!safe && col s.ca.2 s.cpar.2 f.col1))

/-- RCODE or CCODE of a history code; 3 (PREA), 5 (SRE) and the CCODE of a mode register or training command stand apart. -/
def subOf (code : Nat) : Nat :=
  match code with | 0 => 1 | 1 => 1 | 2 => 2 | 3 => 2 | 4 => 4 | 5 => 6 | _ => 7

/-- Row commands of the history codes; the others go on the column bus. -/
def isRowCode (k : Nat) : Bool := !(k = 1 || k = 2 || k = 7)

/-- A command of the history with its own bus and code, outside SAFE mode. -/
def cmd (code : Nat) (auto : Bool) (bank row col at_ : Nat) : Cmd :=
  ⟨code, auto, bank, row, col, at_, isRowCode code, subOf code, false⟩

/-- The last cycle that carries a command: in SAFE mode its second NCLK (R408). -/
def Cmd.last (x : Cmd) : Nat := x.at_ + bit x.safe

/-- What a bus carries of a command in cycle n: both edges; of a SAFE command the edge-0 bits in the first NCLK and the edge-1 bits
in the second, where edge 0 alone is sampled. -/
def Cmd.edges {w : Nat} (x : Cmd) (n : Nat) (e : BitVec w × BitVec w) : BitVec w × BitVec w :=
  if !x.safe then e else if n = x.at_ then (e.1, e.1) else (e.2, e.2)

/-- The hem drives cycle n of a command; the other bus keeps that cycle's command, or carries a NOP. A far command goes to
both pseudo-channels (R266, R421). -/
def driveAt (t n : Nat) (x : Cmd) (s : Seam) : Seam :=
  let s0 := if s.at_ = n then s else { s with at_ := n, ra := (0, 0), rpar := (false, false), ca := (0, 0), cpar := (false, false) }
  if isFar t then { s0 with hbm := some ⟨x.code, x.bank / 16, x.bank % 16 / 4, x.bank % 4, x.row, x.col⟩ }
  else if x.onRow then
    let e := x.edges n (rowEdges x.sub (x.bank / 16) (x.bank % 16) x.row)
    { s0 with ra := e, rpar := parityOf e }
  else
    let e := x.edges n (colEdges x.sub (x.bank / 16) (x.bank % 16) x.col x.auto)
    { s0 with ca := e, cpar := parityOf e }

/-- A command joins the history and goes out. -/
def record (c : Chan) (t : Nat) (x : Cmd) : Chan := { c with history := (x :: c.history).take 16, seam := driveAt t x.last x c.seam }

/-- The command buses as they were in cycle n, from the history: NOP where it has no command of that cycle (R407). -/
def busAt (c : Chan) (t n : Nat) : Seam :=
  (c.history.filter fun x => x.at_ ≤ n && n ≤ x.last).foldl (fun s x => driveAt t n x s) { Reset.seam with at_ := n }

/-! ## Lines on the data pins (R399, R421) -/

/-- A line in its two halves: the beats of edge 0 and edge 1, or pseudo-channels 0 and 1, with their CRC bits. -/
def halvesOf (x : DLine) : (BitVec 256 × BitVec 256) × (BitVec 16 × BitVec 16) :=
  ((x.data.setWidth 256, (x.data >>> (256 : Nat)).setWidth 256), (x.code.setWidth 16, (x.code >>> (16 : Nat)).setWidth 16))

/-- A line crosses in a cycle, with the write or the read strobes. A SAFE read holds each beat for a whole NCLK: the pins show its
second one (R408). -/
def driveLine (x : DLine) (wr safe : Bool) (at_ : Nat) (c : Chan) : Chan :=
  let h := halvesOf x
  let beats := if safe && !wr then ((h.1.2, h.1.2), (h.2.2, h.2.2)) else h
  { c with seam := { c.seam with dq := beats.1, dm := beats.2, dqAt := at_ + bit (safe && !wr), wdqs := wr, rdqs := !wr } }

/-- Beat n of a burst on one pseudo-channel: its DQ bits, and its two metadata pins (R421). -/
def farBeat (half : BitVec 256) (crc : BitVec 16) (n : Nat) : BitVec 32 × BitVec 2 :=
  ((half >>> (32 * n)).setWidth 32, (crc >>> (2 * n)).setWidth 2)

/-! ## Layers (R408 to R410) -/

def layerOf (d : Dev) (t rank : Nat) : Layer := mgetD d.layer d.layers (2 * t + rank)
def onLayer (d : Dev) (t rank : Nat) (f : Layer → Layer) : Dev :=
  { d with layers := mputD d.layer d.layers (2 * t + rank) (f (layerOf d t rank)) }
/-- Every layer of the instance but those of some tiles. -/
def onLayers (d : Dev) (except : List Nat) (f : Layer → Layer) : Dev :=
  let keep := except.flatMap fun t => [(2 * t, layerOf d t 0), (2 * t + 1, layerOf d t 1)]
  let c := f d.layer
  let ls := d.layers.map fun e => (e.1, f e.2)
  { d with layer := c, layers := keep.foldl (fun m e => mputD c m e.1 e.2) (ls.filter fun e => e.2 ≠ c) }

def mrOf (x : Layer) (n : Nat) : BitVec 16 :=
  match n with | 0 => x.mr0 | 1 => x.mr1 | 2 => x.mr2 | 4 => x.mr4 | 6 => x.mr6 | 7 => x.mr7 | _ => 0

/-- The line that MRR returns (R410). -/
def mrrLine (x : Layer) (n : Nat) : DLine := ⟨(mrOf x n).setWidth 512, 0⟩

/-- MR2 in its ranges. -/
def mr2Ok (v : BitVec 16) : Bool :=
  let cwl := (v >>> (8 : Nat)).toNat
  let cl := v.toNat % 2 ^ 8
  decide (10 ≤ cwl ∧ cwl ≤ 31 ∧ 14 ≤ cl ∧ cl ≤ 31)

/-- A register as it was before a write. -/
def setMr (x : Layer) (n old : Nat) : Layer :=
  let v := BitVec.ofNat 16 old
  match n with
  | 2 => { x with mr2 := v } | 6 => { x with mr6 := v } | 7 => { x with mr7 := v } | _ => x

def setsMr (n : Nat) (u : ModeUndo) : Bool := match u with | .mr k _ => k = n | _ => false
def isFifoWr (u : ModeUndo) : Bool := match u with | .fifoWr => true | _ => false
/-- The line that a RD of the FIFO has taken. -/
def fifoLine (u : ModeUndo) : Option DLine := match u with | .fifoRd x => x | _ => none

/-- A layer without the command that it discards, given what has changed it since, newest first: a register that a later write has
set stays; a line leaves the FIFO for a WR, and the one read last goes back for a RD, unless MR6 has been set since (R407). -/
def undoMode (since : List ModeUndo) (u : ModeUndo) (x : Layer) : Layer :=
  match u with
  | .mr n old => if since.any (setsMr n) then x else setMr x n old
  | .trk => { x with trks := x.trks - 1 }
  | .fifoWr =>
    let later := (since.filter isFifoWr).length
    if since.any (setsMr 6) then x
    else if later < x.fifo.length then { x with fifo := x.fifo.eraseIdx (x.fifo.length - 1 - later) }
    else { x with fifo := x.fifo.tail }
  | .fifoRd line =>
    if since.any (setsMr 6) then x else { x with fifo := ((since.findSome? fifoLine).or line).toList ++ x.fifo }

/-- MRW takes the value from bytes 0 and 1 of its line (R409, R410). -/
def mrw (x : Layer) (n : Nat) (line : DLine) : Layer :=
  let v : BitVec 16 := line.data.setWidth 16
  match n with
  | 2 => if mr2Ok v then { x with mr2 := v } else x
  | 6 => if v.toNat < 8 then { x with mr6 := v } else x
  | 7 => { x with mr7 := 0 }
  | _ => x

def valueLine (v : BitVec 16) : DLine := ⟨v.setWidth 512, 0⟩
def isSafe (x : Layer) : Bool := x.mr6.getLsbD 0
/-- Read and write latency in NCLK; in SAFE mode counted from the second NCLK of the command (R408). -/
def layerCl (x : Layer) : Nat := if isSafe x then 32 else x.mr2.toNat % 32
def layerCwl (x : Layer) : Nat := if isSafe x then 24 else x.mr2.toNat / 2 ^ 8 % 32

/-- The layer of a near rank is in SAFE mode. -/
def safeRank (d : Dev) (t rank : Nat) : Bool := !isFar t && isSafe (layerOf d t rank)

/-- The cycle in which the line of a column command crosses: its latency after it (R266, R408, R423). -/
def crossAt (d : Dev) (t rank at_ : Nat) (wr : Bool) : Nat :=
  if isFar t then
    let x := mgetD Reset.stack d.hbms (regionOfTile t - 1)
    at_ + (if wr then x.cwl else x.cl)
  else
    let x := layerOf d t rank
    at_ + bit (isSafe x) + (if wr then layerCwl x else layerCl x)

/-- The line of a column command crosses (R399, R421). -/
def crossLine (d : Dev) (t rank at_ : Nat) (wr : Bool) (x : DLine) : Dev :=
  onChan d t (driveLine x wr (safeRank d t rank) (crossAt d t rank at_ wr))

/-- A command as the hem sends it to its rank: in SAFE mode over two NCLK (R408). -/
def asSent (d : Dev) (t : Nat) (x : Cmd) : Cmd := { x with safe := safeRank d t (x.bank / 16) }

/-- dl_sm_rst_n (R408, R409). -/
def layerReset (x : Layer) : Layer := { Reset.layer with mr0 := x.mr0, mr1 := x.mr1 }
/-- Self-refresh entry, which enters SAFE mode; MR4 is not valid after the exit (R408, R411). -/
def layerSleep (x : Layer) : Layer := { x with mr6 := x.mr6 ||| 1, mr4 := 0 }
/-- A parity error (R407). -/
def layerPerr (x : Layer) : Layer := { x with mr7 := 0x8000 ||| BitVec.ofNat 16 (min 0xFF (x.mr7.toNat % 2 ^ 8 + 1)) }
/-- The layer's own temperature conversion (R411). -/
def layerTemp (x : Layer) (v : Option (BitVec 8)) : Layer :=
  { x with mr4 := match v with | some b => 0x8000 ||| b.setWidth 16 | none => 0 }
/-- The reading of an MRR line of MR4 (R411). -/
def tempOf (line : DLine) : Option (BitVec 8) := if line.data.getLsbD 15 then some (line.data.setWidth 8) else none

/-- Temperature of a stack in a reading of eight bits: above 127 it reads as 127 (R422). -/
def stackTemp (v : Option Int) : Option (BitVec 8) := v.map fun x => BitVec.ofInt 8 (max (-128) (min 127 x))

/-! ## SAFE mode (R408) -/

/-- Least spacing of commands in SAFE mode, near. -/
def safeGap : Nat := 64

/-- The first cycle for a next command of a channel whose layers need a spacing. -/
def slotAfter (c : Chan) (gap : Nat) : Nat := match c.history with | x :: _ => x.at_ + gap | [] => gap

/-- NCLK from a failing command to its report: four, or in SAFE mode up to eight (R407, R408). -/
def alertLag (safe : Bool) : List Nat := if safe then [4, 5, 6, 7, 8, 3, 2, 1] else [4]

/-- MR2 from DLS_NEAR_T1 (R414, R427). -/
def latencyWord (d : Dev) : BitVec 16 := BitVec.ofNat 16 (rbits d 0xD004 23 16 * 2 ^ 8 + rbits d 0xD004 31 24)
/-- Step 3 of R414: MR2, then normal mode. -/
def normalScript (d : Dev) : List (Nat × BitVec 16) := [(2, latencyWord d), (6, 0)]

/-- Both layers of a near channel are in normal mode: out of SAFE, command training and FIFO mode (R419). -/
def inNormal (d : Dev) (t : Nat) : Bool := isFar t || ((layerOf d t 0).mr6 = 0 && (layerOf d t 1).mr6 = 0)

/-! ## Training (R414, R415) -/

/-- Step 1: the identity that MRR of MR0 and MR1 returns. -/
def identityOk (x : Layer) : Bool :=
  let v := (mrrLine x 0).data.setWidth 16
  let r : BitVec 16 := (mrrLine x 1).data.setWidth 16
  v != (0x0000 : BitVec 16) && v != 0xFFFF && r.toNat / 2 ^ 12 = 1 && r.toNat / 2 ^ 8 % 16 = 1

/-- In command training the layer returns the sampled buses on dq[19:0] and dq[35:20]. -/
def catrnLine (s : Seam) : BitVec 36 :=
  let row := s.ra.1.toNat + s.ra.2.toNat * 2 ^ 10
  let col := s.ca.1.toNat + s.ca.2.toNat * 2 ^ 8
  BitVec.ofNat 36 (row + col * 2 ^ 20)

/-- WR and RD of the training FIFO: 16 lines, oldest first. -/
def fifoWr (x : Layer) (l : DLine) : Layer := { x with fifo := if x.fifo.length < 16 then x.fifo ++ [l] else x.fifo }
def fifoRd (x : Layer) : Option DLine × Layer := (x.fifo.head?, { x with fifo := x.fifo.tail })

/-- PRBS7 from a seed: the state after n bits, of the polynomial x^7 + x^6 + 1, its top bit the next one out. PRESUMED
(log entry 65): R414 prints no polynomial. -/
def prbsAt (seed : Nat) : Nat → Nat
  | 0 => seed
  | n + 1 => let s := prbsAt seed n; (s * 2 + (s / 64 + s / 32) % 2) % 128
def prbsBit (seed n : Nat) : Bool := prbsAt seed n / 64 % 2 = 1
/-- The seed of pin i: dq[i], and dm[j] as pin 256 + j. -/
def pinSeed (i : Nat) : Nat := i % 127 + 1
/-- A value of w pins from pin p on, of generator bit n. -/
def prbsPins (w p n : Nat) : Nat := ((List.range w).map fun i => bit (prbsBit (pinSeed (p + i)) n) * 2 ^ i).sum
/-- The read-training pattern of a layer's next TRK: two bits of every generator. -/
def trkLine (x : Layer) : DLine :=
  let beat (n : Nat) : Nat × Nat := (prbsPins 256 0 n, prbsPins 16 256 n)
  let a := beat (2 * x.trks)
  let b := beat (2 * x.trks + 1)
  ⟨BitVec.ofNat 512 (a.1 + b.1 * 2 ^ 256), BitVec.ofNat 32 (a.2 + b.2 * 2 ^ 16)⟩

/-- The least eye that passes. -/
def eyeLimit : Nat := 16

/-- The step at which a training fails: of R414, or 8 for a far hem; none where it completes. -/
def failStep (d : Dev) (t : Nat) (r : Trial) : Option Nat :=
  if isFar t then (if r.farOk then none else some 8)
  else if !identityOk (layerOf d t 0) || !identityOk (layerOf d t 1) then some 1
  else if r.eyeCmd.toNat < eyeLimit then some 2
  else if r.eyeRead.toNat < eyeLimit then some 4
  else if r.eyeWrite.toNat < eyeLimit then some 5
  else if r.errs ≠ 0 then some 6
  else if !r.zqOk then some 7 else none

/-- The narrowest eye of the steps that ran; a hem that failed before any eye was measured shows 0 (log entry 46). -/
def trialMargin (t : Nat) (r : Trial) (step : Option Nat) : BitVec 8 :=
  let least (a b : BitVec 8) : BitVec 8 := if a.toNat < b.toNat then a else b
  if isFar t then r.eyeRead
  else match step with
    | some 1 => 0
    | some 2 => r.eyeCmd
    | some 4 => least r.eyeCmd r.eyeRead
    | _ => least (least r.eyeCmd r.eyeRead) r.eyeWrite

/-- Step and pin of a HEM_TRAIN record (R426): steps 1, 3 and 7 name no pin; step 2 names a command pin, the others a data or
metadata pin. -/
def trainPin (t step : Nat) (pin : Option (Fin 292)) : Nat :=
  let fits (p : Nat) : Bool :=
    if isFar t then decide (p < 68)
    else if step = 2 then decide (272 ≤ p) else (step = 4 || step = 5 || step = 6) && decide (p < 272)
  match pin with | some p => if fits p.val then p.val else 0xFFFFFFFF | none => 0xFFFFFFFF

/-- The layers of a near hem hold the identities that its trial finds. -/
def trialIds (d : Dev) (t : Nat) (r : Trial) : Dev :=
  let put (i : BitVec 16 × BitVec 16) (x : Layer) : Layer := { x with mr0 := i.1, mr1 := i.2 }
  if isFar t then d else onLayer (onLayer d t 0 (put r.id0)) t 1 (put r.id1)

end Sys2Proof.Machine
end

