-- ==== Sys2Proof/Machine/Entries.lean ====
section
/-!
DEFINITION. Entries of a channel (R250 to R258): creation with Patch redirection, room, same-line order, reservations;
the Blank and Mend maps; when a channel counts as out for a bolt.
-/
namespace Sys2Proof.Machine

/-! ## The Blank map (R347) as intervals, the Mend map (R374) as panel marks and differences -/

def blankHas : List (Nat × Nat) → Nat → Bool
  | [], _ => false
  | (lo, hi) :: m, b => if b < lo then false else if b ≤ hi then true else blankHas m b

/-- Make bolts lo to hi valid, keeping intervals disjoint and non-adjacent. -/
def blankAdd : List (Nat × Nat) → Nat → Nat → List (Nat × Nat)
  | [], lo, hi => [(lo, hi)]
  | (a, b) :: m, lo, hi =>
    if hi + 1 < a then (lo, hi) :: (a, b) :: m
    else if b + 1 < lo then (a, b) :: blankAdd m lo hi
    else blankAdd m (min a lo) (max b hi)

def blankDel : List (Nat × Nat) → Nat → List (Nat × Nat)
  | [], _ => []
  | (a, b) :: m, x =>
    if x < a ∨ b < x then (a, b) :: blankDel m x
    else (if a < x then [(a, x - 1)] else []) ++ (if x < b then [(x + 1, b)] else []) ++ m

def blankCount (m : List (Nat × Nat)) : Nat := (m.map fun e => e.2 - e.1 + 1).sum

/-- The word of a map that holds a bolt's bit (R351). -/
def mapWord (bolt : Nat) : Nat := bolt / 64

/-- The bit that a lookup finds: a word that cannot be corrected is all valid (R351). -/
def isValid (d : Dev) (bolt : Nat) : Bool := blankHas d.blank.valid bolt || mget d.blank.errs (mapWord bolt) = some true
def setValid (d : Dev) (bolt : Nat) : Dev := { d with blank := { d.blank with valid := blankAdd d.blank.valid bolt bolt } }
def setBlank (d : Dev) (bolt : Nat) : Dev :=
  { d with blank := { d.blank with valid := blankDel d.blank.valid bolt, lost := merase d.blank.lost bolt } }

/-- A lookup in the Blank map: an error of its word is corrected, or the word becomes all valid, and it is counted (R351). -/
def blankLook (d : Dev) (bolt : Nat) : Dev :=
  let w := mapWord bolt
  let fixed (valid : List (Nat × Nat)) : Dev := { d with blank := { d.blank with valid := valid, errs := merase d.blank.errs w } }
  match mget d.blank.errs w with
  | none => d
  | some false => rcount (fixed d.blank.valid) 0xA010 15 0 1
  | some true =>
    let gone := ((List.range 64).map (64 * w + ·)).filter fun b => !blankHas d.blank.valid b
    let d := { d with blank := { d.blank with lost := gone.foldl (fun m b => minsert m b []) d.blank.lost } }
    let fixed (valid : List (Nat × Nat)) : Dev := { d with blank := { d.blank with valid := valid, errs := merase d.blank.errs w } }
    lint (raise (rcount (fixed (blankAdd d.blank.valid (64 * w) (64 * w + 63))) 0xA010 31 16 1) Ev.BLANK_SRAM none (some bolt))
      0x04 {} w

/-- A line of a bolt that was blank has not been written since its word became all valid: what it holds is undefined. -/
def isLost (d : Dev) (bolt key : Nat) : Bool := match mget d.blank.lost bolt with | some ks => !ks.contains key | none => false
/-- A line of such a bolt is written; with its last line the bolt is whole. -/
def foundLine (d : Dev) (bolt key : Nat) : Dev :=
  match mget d.blank.lost bolt with
  | some ks =>
    let ks' := if ks.contains key then ks else key :: ks
    { d with blank := { d.blank with lost := if 34 ≤ ks'.length then merase d.blank.lost bolt else minsert d.blank.lost bolt ks' } }
  | none => d

/-- Every word of the Blank map is read. -/
def blankLookAll (d : Dev) : Dev := (d.blank.errs.map Prod.fst).foldl (fun d w => blankLook d (64 * w)) d

/-- Bolts of a panel (R76, R84). -/
def panelBolts (p : Nat) : Nat := let far := panelFar p; nbOf far * nwOf far * 16

/-- The panel of a bolt. -/
def boltPanel (d : Dev) (bolt : Nat) : Nat :=
  match regionOf (bolt * 2048) with
  | some r => (stripeOf d r (bolt * 2048)).1.panel
  | none => 0

def mendBit (d : Dev) (bolt : Nat) : Bool := d.mend.diff.contains bolt != d.mend.panels.contains (boltPanel d bolt)

/-- The bit that a lookup finds: a word that cannot be corrected is all marked (R374). -/
def mendHas (d : Dev) (bolt : Nat) : Bool := mget d.mend.errs (mapWord bolt) = some true || mendBit d bolt

def insertNat : List Nat → Nat → List Nat
  | [], x => [x]
  | a :: l, x => if x < a then x :: a :: l else if x = a then a :: l else a :: insertNat l x

def putMend (d : Dev) (bolt : Nat) (v : Bool) : Dev :=
  if mendBit d bolt = v then d
  else if d.mend.diff.contains bolt then { d with mend := { d.mend with diff := d.mend.diff.erase bolt } }
  else { d with mend := { d.mend with diff := insertNat d.mend.diff bolt } }

/-- Marked bolts of a panel. -/
def mendCountPanel (d : Dev) (p : Nat) : Nat :=
  let n := (d.mend.diff.filter fun b => boltPanel d b = p).length
  if d.mend.panels.contains p then panelBolts p - n else n

/-- Tiles of a panel. -/
def panelTiles (d : Dev) (p : Nat) : List Nat := (List.range 16).map (tileAt d p)

/-- The panel is DOUBLE (R384). -/
def isDouble (d : Dev) (p : Nat) : Bool :=
  let n := ((panelTiles d p).filter fun t =>
    (svc d t).state = .out || ((svc d t).state = .returning && mendCountPanel d p ≠ 0)).length
  2 ≤ n

/-- A change of a panel's service states or marks; entry into DOUBLE raises PANEL_DOUBLE (R384). -/
def withDouble (p : Nat) (f : Dev → Dev) (d : Dev) : Dev :=
  let d1 := f d
  if isDouble d1 p && !isDouble d p then raise d1 Ev.PANEL_DOUBLE else d1

/-- A bolt is marked, or its mark is cleared. -/
def markBolt (d : Dev) (bolt : Nat) (v : Bool) : Dev :=
  if mendBit d bolt = v then d else withDouble (boltPanel d bolt) (putMend · bolt v) d

/-- A lookup in the Mend map: an error of its word is corrected, or the word becomes all marked, and it is counted (R374). -/
def mendLook (d : Dev) (bolt : Nat) : Dev :=
  let w := mapWord bolt
  let fixed : Dev := { d with mend := { d.mend with errs := merase d.mend.errs w } }
  match mget d.mend.errs w with
  | none => d
  | some false => rcount fixed 0xB024 15 0 1
  | some true =>
    let d1 := (List.range 64).foldl (fun d i => markBolt d (64 * w + i) true) fixed
    lint (raise (rcount d1 0xB024 31 16 1) Ev.MEND_SRAM none (some bolt)) 0x25 {} w

/-- A bit of the Mend map takes a value; its word is read first. -/
def setMend (d : Dev) (bolt : Nat) (v : Bool) : Dev := markBolt (mendLook d bolt) bolt v

/-- Mark every bolt of a panel (R376). -/
def markPanel (d : Dev) (p : Nat) : Dev :=
  let mine (w : Nat) : Bool := (List.range 64).any fun i => boltPanel d (64 * w + i) = p
  let d1 := ((d.mend.errs.map Prod.fst).filter mine).foldl (fun d w => mendLook d (64 * w)) d
  { d1 with mend := { d1.mend with panels := insertNat d1.mend.panels p,
                                   diff := d1.mend.diff.filter fun b => boltPanel d1 b ≠ p } }

/-- Marked bolts of the instance (DLD_MEND_COUNT). -/
def mendCount (d : Dev) : Nat := ((List.range 20).map (mendCountPanel d)).sum

/-! ## Service (R361, R384) -/

/-- A channel counts as out for a bolt: OUT, or RETURNING with the bolt marked. -/
def countsOut (d : Dev) (t bolt : Nat) : Bool :=
  match (svc d t).state with
  | .out => true
  | .returning => mendHas d bolt
  | _ => false

/-- The Mend bit of a bolt is looked up where a channel of its panel is RETURNING. -/
def outLook (d : Dev) (st : Stripe) : Dev :=
  if (List.range 16).any fun m => (svc d (tileAt d st.panel m)).state = .returning then mendLook d (stripeBolt d st) else d

/-- Members of a stripe's panel that count as out for its bolt. -/
def outMembers (d : Dev) (st : Stripe) : List Nat :=
  let b := stripeBolt d st
  (List.range 16).filter fun m => countsOut d (tileAt d st.panel m) b

def inService (d : Dev) (t : Nat) : Bool := (svc d t).state != .out

/-! ## Redirection (R251, R386) -/

def spareRow (t i : Nat) : Nat := let nw := nwOf (isFar t); nw + nw / 16 + i

/-- The row that an access to a line names after redirection. -/
def redirect (d : Dev) (l : Loc) : Nat :=
  let s := svc d l.tile
  let hit := (List.range 16).findSome? fun e =>
    let p := mgetD (⟨.free, 0, 0, 0⟩ : Patch) s.patches e
    if p.bank = l.bank ∧ p.row = l.row then
      match s.move with
      | some m =>
        if m.entry = e then
          if l.col < m.ptr then some (spareRow l.tile m.spare)
          else match m.old with
            | some o => some (spareRow l.tile o)
            | none => none
        else if p.state = .active then some (spareRow l.tile p.spare) else none
      | none => if p.state = .active then some (spareRow l.tile p.spare) else none
    else none
  hit.getD l.row

/-! ## Room and caps -/

def dfCount (c : Chan) : Nat := (c.ham.filter fun e => e.kind != .delta).length
/-- Occupancy: entries of every kind (R259); a reservation takes an entry from creation (R254). -/
def hamUsed (c : Chan) : Nat := c.ham.length + c.resv.length

/-- Room for n DATA or FULL entries (R253). -/
def hamRoom (c : Chan) (n : Nat) : Bool := decide (dfCount c + n ≤ 80 ∧ hamUsed c + n ≤ 96)

/-! ## Reads that wait for a rebuild slot (R367) -/

def isRebuild (j : Job) : Bool := match j.kind with | .rebuild _ _ _ _ => true | _ => false
def started (j : Job) : Bool := !j.open_.isEmpty || !j.got.isEmpty

/-- Rebuild slots of a panel in use. -/
def slotsUsed (d : Dev) (p : Nat) : Nat :=
  ((getPanel d p).jobs.filter fun i => match getJob d i with | some j => isRebuild j && started j && j.puts = 0 | none => false).length

/-- A read entry that waits in its read queue for a rebuild slot: the job of its rebuild, its line, its number and priority. -/
structure SlotWait where
  job    : Nat
  kind   : EKind
  loc    : Loc
  born   : Nat
  prio   : Nat
  aged   : Bool
deriving DecidableEq, Repr

/-- The jobs of a panel that rebuild for a read entry of tile t while every slot is taken: the entry waits in the read queue. -/
def slotWaiters (d : Dev) (t : Nat) : List SlotWait :=
  let p := panelOf d t
  let of (i : Nat) : Option SlotWait :=
    match getJob d i with
    | some j => (match j.kind with
      | .rebuild m o _ k =>
        if !started j && o != .nobody && (k = .fill || k = .direct) && tileAt d j.stripe.panel m = t then
          some ⟨i, k, stripeDataLoc d j.stripe m, j.born, j.prio, j.aged⟩
        else none
      | _ => none)
    | none => none
  let ws := (getPanel d p).jobs.filterMap of
  if ws.isEmpty || slotsUsed d p < 32 then [] else ws

/-- The read queue of a tile is empty (R259, R367). -/
def readsEmpty (d : Dev) (t : Nat) : Bool := (chan d t).rq.isEmpty && (slotWaiters d t).isEmpty
/-- A read entry of the read queue is for one of these bank coordinates. -/
def readsOn (d : Dev) (t : Nat) (on : Nat → Bool) : Bool :=
  (chan d t).rq.any (fun e => on e.bank) || (slotWaiters d t).any fun w => on w.loc.bank

/-- Live entries that the throttle cap counts (R332). DESIGN CHOICE (log entry 83): a FILL or DIRECT entry whose line has failed its check
counts until its rebuild starts; R332 does not say whether it lives on during the rebuild. -/
def capCount (d : Dev) (t : Nat) : Nat :=
  let c := chan d t
  c.rq.length + (slotWaiters d t).length + (c.fly.filter fun f => f.kind = .fill || f.kind = .direct).length + dfCount c

/-- The cap of a tile's region at its throttle step; none when there is no cap (R332). -/
def capOf (d : Dev) (t : Nat) : Option Nat :=
  let s := (getHeat d (regionOfTile t)).step
  let v := if s < 4 then rbits d 0xC024 (8 * s + 7) (8 * s) else rbits d 0xC028 (8 * (s - 4) + 7) (8 * (s - 4))
  if v = 0 ∨ 128 < v then none else some v

/-- n new entries that come together keep below the cap; a cap below n lets them come into an empty tile (R332, log entry 20). -/
def capFits (d : Dev) (t n : Nat) : Bool :=
  match capOf d t with | some cap => decide (capCount d t + n ≤ max n cap) | none => true

/-- The region of a tile is in a change of rate (R446). -/
def rateChanging (d : Dev) (t : Nat) : Bool := d.energy.begun && d.energy.changing.head? = some (regionOfTile t)

/-- An internal master may create an entry of the kinds that the throttle caps; a take-out's drain does not hold it (R332,
R446). -/
def unitMay (d : Dev) (t : Nat) : Bool :=
  capFits d t 1 && !rateChanging d t && !d.pins.srDone

/-- The slice may create entries of its own kinds: the throttle cap, a take-out's hold, a region change (R332, R364, R446). -/
def mayCreate (d : Dev) (t : Nat) : Bool :=
  unitMay d t && !(svc d t).draining

/-! ## Creating entries -/

/-- A Hamper entry is of a line of a read entry (R251). -/
def REntry.names (e : REntry) (h : HEntry) : Bool := h.bank = e.bank && e.cols.contains h.col && h.row = e.rowOf h.col

/-- A Hamper entry of the line that a new read must wait for becomes urgent (R256, R257). -/
def markUrgent (e : REntry) (h : HEntry) : HEntry := if e.names h then { h with urgent := true } else h

/-- A new read entry that waits for a Hamper entry of its line (R257). -/
def rawWait (d : Dev) (l : Loc) (waits : Bool) : Dev :=
  if waits then raise (rinc d (tileOff l.tile 0x018) 1) Ev.RAW_WAIT none (some (lineBolt d l)) else d

/-- A sleeping rank wakes by POWER_DOWN_EXIT only; the entry waits for it (R270). A read entry for FILL or DIRECT; of an
internal master's, the master and the time of its admission. -/
def addRead (d : Dev) (k : EKind) (l : Loc) (owner : Owner) (prio : Nat) (by_ : Option (Nat × BitVec 64) := none) : Dev :=
  let c := chan d l.tile
  let row := redirect d l
  let e : REntry := ⟨c.nextId, k, l.bank, row, row, [l.col], l.row, owner, prio, false, (by_.map Prod.snd).getD d.cycle, by_.map Prod.fst⟩
  let d1 := onChan d l.tile fun c =>
    { c with nextId := c.nextId + 1, rq := c.rq ++ [e], ham := c.ham.map (markUrgent e) }
  rawWait d1 l (c.ham.any e.names)

/-- A BG entry: both lines of a ply, each redirected by itself (R250, R251). -/
def addBg (d : Dev) (l : Loc) (owner : Owner) (prio : Nat) (by_ : Nat × BitVec 64) : Dev :=
  let c := chan d l.tile
  let col := l.col / 2 * 2
  let row (k : Nat) : Nat := redirect d { l with col := k }
  let e : REntry := ⟨c.nextId, .bg, l.bank, row col, row (col + 1), [col, col + 1], l.row, owner, prio, false, by_.2, some by_.1⟩
  let d1 := onChan d l.tile fun c =>
    { c with nextId := c.nextId + 1, bg := some e, ham := c.ham.map (markUrgent e) }
  rawWait d1 l (c.ham.any e.names)

/-! ## Jobs that a new write touches -/

def dropJob (d : Dev) (id : Nat) : Dev :=
  match getJob d id with
  | some j =>
    let p := getPanel d j.stripe.panel
    setPanel { d with jobs := merase d.jobs id } j.stripe.panel { p with jobs := p.jobs.erase id }
  | none => d

/-- A Patch move reads the line into which a new entry will write: it reads its column again (R256, R388). -/
def restartColumn (d : Dev) (l : Loc) : Dev :=
  match (svc d l.tile).move with
  | some m =>
    match m.job with
    | some id =>
      if m.bank = l.bank && m.row = l.row && m.ptr = l.col then
        onSvc (dropJob d id) l.tile fun s => { s with move := some { m with job := none } }
      else d
    | none => d
  | none => d

/-- A FULL entry will replace a line that a job has asked for, or the line that a rebuild is for: a job of the whole bolt and a
conversion read it again, a rebuild and a reconstruct write when they turn into a conversion (R341). A ply is read again whole. A walk
that has asked for its writes keeps the slots: it then takes the bolt up again (R377). -/
def staleJob (st : Stripe) (slot : Nat) (j : Job) : Job :=
  let slots : List Nat :=
    match j.kind with
    | .rinse | .walk _ => if { j.stripe with half := st.half } = st then [slot, slot + 32] else []
    | .convert m _ (some _) => if j.stripe = st && slot ≠ m then [slot] else []
    | .rebuild _ _ _ _ | .reconstruct _ _ | .convert _ _ none => if j.stripe = st then [slot] else []
    | _ => []
  let later := match j.kind with | .rebuild _ _ _ _ | .reconstruct _ _ => true | _ => false
  let here := slots.filter fun s => (mget j.got s).isSome && !later
  let own (s : Nat) : Bool := match j.kind with | .rebuild m _ _ _ => s = m | _ => false
  let open_ := slots.filter fun s => j.open_.contains s || (later && (mget j.got s).isSome) || own s
  if j.puts ≠ 0 then (match j.kind with | .walk _ => { j with stale := (j.stale ++ slots).eraseDups } | _ => j)
  else { j with got := here.foldl merase j.got, toRead := j.toRead ++ here, stale := (j.stale ++ open_).eraseDups }

/-- Every job of the line's panel but the one that writes it takes note of a new line. -/
def restale (d : Dev) (l : Loc) (by_ : Option Nat := none) : Dev :=
  let go (st : Stripe) (slot : Nat) : Dev :=
    ((getPanel d st.panel).jobs.filter fun i => some i ≠ by_).foldl (fun d i => match getJob d i with
      | some j => if staleJob st slot j = j then d else setJob d i (staleJob st slot j)
      | none => d) d
  match roleOf d l with
  | .data st => go st (memberOf d l.tile)
  | .parity st => go st 16
  | .other => d

/-- The next Hamper entry of a channel. -/
def hamEntry (d : Dev) (k : EKind) (l : Loc) (bolt : Nat) (x : DLine) (verify : Bool) : HEntry :=
  ⟨(chan d l.tile).nextId, k, l.bank, redirect d l, l.col, l.row, bolt, x, false, none, false, false, false, false, verify⟩

/-- A Hamper entry is created, by a job's own write or another. -/
def addHam (d : Dev) (k : EKind) (l : Loc) (bolt : Nat) (x : DLine) (verify : Bool := false) (by_ : Option Nat := none) : Dev :=
  let d := restartColumn (if k = .full then restale d l by_ else d) l
  let e := hamEntry d k l bolt x verify
  onChan d l.tile fun c => { c with nextId := c.nextId + 1, ham := c.ham ++ [e] }

/-- DIRECT entries that have not completed (R252). -/
def directCount (d : Dev) (t : Nat) : Nat :=
  let c := chan d t
  (c.rq.filter fun e => e.kind = .direct).length + (c.fly.filter fun f => f.kind = .direct).length +
    ((slotWaiters d t).filter fun w => w.kind = .direct).length

/-! ## Reservations and holds of a stripe (R254, R368) -/

/-- DELTA entries and reservations at the parity member for a stripe's parity line, but for one entry's reservation. -/
def deltasPending (d : Dev) (st : Stripe) (except : Option (Nat × Nat)) : Bool :=
  let l := stripeParityLoc d st
  let c := chan d l.tile
  c.ham.any (fun e => e.kind = .delta && e.bank = l.bank && e.orow = l.row && e.col = l.col) ||
  c.resv.any (fun r => r.bank = l.bank && r.row = l.row && r.col = l.col && some (r.tile, r.hid) ≠ except)

/-- A job holds its line positions from its start until it has read its lines and its FULL entries are created (R368, R372,
R377, R392, log entry 20). -/
def jobHolds (j : Job) : Bool :=
  match j.kind with
  | .verify | .lift _ _ => false
  | .patch _ par _ => par
  | _ => true

/-- The same bolt; and the same line position where the job is of one position. -/
def jobCovers (j : Job) (st : Stripe) : Bool :=
  let s := j.stripe
  let whole := match j.kind with | .rinse | .walk _ => true | _ => false
  s.panel = st.panel && s.bank = st.bank && s.row = st.row && s.slot = st.slot && (whole || s.half = st.half)

/-- A line position is held, so that no new reservation is granted there (R368). -/
def isHeld (d : Dev) (st : Stripe) : Bool :=
  (getPanel d st.panel).jobs.any fun i =>
    match getJob d i with
    | some j => jobHolds j && jobCovers j st
    | none => false

/-- A job holds a line position of the bolt: whole-bolt writes wait (R372, R377, log entry 20). -/
def boltRead (d : Dev) (st : Stripe) : Bool := isHeld d { st with half := 0 } || isHeld d { st with half := 1 }

end Sys2Proof.Machine
end

