-- ==== Sys2Proof/Machine/Regulator.lean ====
section
/-!
DEFINITION. The regulator (R280 to R304): credits, charges, budgets, priorities, deliverable capacity, windows,
completions and their latency (R522 to R524).
-/
namespace Sys2Proof.Machine

/-! ## Guarantees and limits -/

def guarBwRaw (d : Dev) (m : Nat) : Nat := rbits d (0x2200 + 16 * m) 15 0
def guarOtRaw (d : Dev) (m : Nat) : Nat := rbits d (0x2200 + 16 * m) 25 16
def maxOt (d : Dev) (m : Nat) : Nat := rbits d (0x2204 + 16 * m) 12 0
def demotePrio (d : Dev) (m : Nat) : Nat := rbits d (0x2204 + 16 * m) 18 16

/-- Scaled guarantees (R298). -/
def guarBw (d : Dev) (m : Nat) : Nat := guarBwRaw d m * d.reg.factor / 1024
def guarOt (d : Dev) (m : Nat) : Nat :=
  if guarOtRaw d m = 0 then 0 else max 1 (guarOtRaw d m * d.reg.factor / 1024)

def masters : List Nat := List.range 24
def heldAll (d : Dev) : Nat := (masters.map fun m => (getMaster d m).held).sum
/-- Size of the shared pool, and shared credits in use (R281). -/
def sharedPool (d : Dev) : Nat := 6144 - (masters.map (guarOt d)).sum
def sharedUsed (d : Dev) : Nat := (masters.map fun m => (getMaster d m).held - guarOt d m).sum

/-- Base priority (R289). -/
def basePrio (d : Dev) (m : Nat) : Nat :=
  if m < 16 then rbits d (0x2000 + 4 * m) 2 0 else rbits d 0x2110 (3 * (m - 16) + 2) (3 * (m - 16))

/-- Budget of a window in bytes (R288). -/
def budget (d : Dev) (m : Nat) : Nat := guarBw d m * d.reg.window * 256 / 16

/-- The next admission of m finds it over budget (R288). -/
def isOver (d : Dev) (m : Nat) : Bool := decide (budget d m ≤ (getMaster d m).charge * 32)

/-- Effective priority of the next admission (R289). -/
def effPrio (d : Dev) (m : Nat) : Nat := if isOver d m then min (basePrio d m) (demotePrio d m) else basePrio d m

def capped (d : Dev) (m : Nat) : Bool :=
  maxOt d m ≠ 0 && decide (max (maxOt d m) (guarOt d m) ≤ (getMaster d m).held)

def belowGuarantee (d : Dev) (m : Nat) : Bool := decide ((getMaster d m).held < guarOt d m)

/-- The oldest request of a master waits for a credit: its data have come, and it holds none. -/
def headWaits (d : Dev) (m : Nat) : Bool :=
  match (getMaster d m).queue with
  | id :: _ => (match getTxn d id with | some x => x.owed = 0 && !x.hasCredit | none => false)
  | [] => false

/-- Masters that wait with a request for a credit (R284). -/
def waiting (d : Dev) : List Nat := masters.filter (headWaits d)

/-- Master x goes before master m for a shared credit (R284). -/
def goesBefore (d : Dev) (x m : Nat) : Bool := effPrio d m < effPrio d x || (effPrio d x = effPrio d m && decide (x < m))

/-- Master m may take a credit now (R282 to R284, R299). -/
def creditOk (d : Dev) (m : Nat) : Bool :=
  let free := 6144 - heldAll d
  if belowGuarantee d m then
    decide (((waiting d).filter fun x => x ≠ m && belowGuarantee d x && goesBefore d x m).length < free)
  else if capped d m then false
  else
    let first := ((waiting d).filter fun x => x ≠ m && belowGuarantee d x).length
    let ahead := ((waiting d).filter fun x => x ≠ m && !belowGuarantee d x && !capped d x && goesBefore d x m).length
    decide (sharedUsed d + ahead < sharedPool d ∧ first + ahead < free)

def takeCredit (d : Dev) (m : Nat) : Dev := setMaster d m { getMaster d m with held := (getMaster d m).held + 1 }

/-! ## Charges (R286) -/

/-- A 64-bit pair counts up and holds at all-ones. -/
def add64 (d : Dev) (lo n : Nat) : Dev :=
  let v := min ((rget d lo).toNat + (rget d (lo + 4)).toNat * 2 ^ 32 + n) (2 ^ 64 - 1)
  rset (rset d lo (BitVec.ofNat 32 (v % 2 ^ 32))) (lo + 4) (BitVec.ofNat 32 (v / 2 ^ 32))

/-- Charge of a request in units of 32 B. -/
def chargeOf (k : Kind) (sectors : Nat) (marked : Bool) : Nat :=
  if marked then 1
  else match k with
    | .zero | .atomic | .tubOpen | .tubAmend | .reserved => 1
    | _ => sectors

/-- The charge of an admission, its events and counts (R286, R288, R302, R429, R511). -/
def chargeAdmit (d : Dev) (m units : Nat) (bolt : Option Nat) : Dev :=
  let x := getMaster d m
  let over_ := isOver d m
  let rest := x.rest + units * 32
  let d1 := setMaster d m { x with charge := min (x.charge + units) 0xFFFFFFFF, overBudget := over_, rest := rest % 4096 }
  let d2 := eCount (eCount d1 (320 + m) 0 1) (320 + m) 1 (rest / 4096)
  let d3 := raiseN (raise d2 Ev.ADMIT (some m) bolt) Ev.CHARGE units (some m)
  let d4 := if over_ then raise d3 Ev.DEMOTED (some m) else d3
  if d4.reg.mon.getLsbD (trafficClass d4 m) then d4 else add64 d4 (0x2140 + 8 * trafficClass d4 m) (units * 32)

/-! ## Accesses of internal masters (R58, R250, R286, R291) -/

def newTxn (d : Dev) (x : Txn) : Nat × Dev :=
  (d.nextTxn, { d with nextTxn := d.nextTxn + 1, txns := minsert d.txns d.nextTxn x })

/-- A request waits at the regulator. -/
def queueAt (d : Dev) (m id : Nat) : Dev := setMaster d m { getMaster d m with queue := (getMaster d m).queue ++ [id] }

/-- An access of M17, M18 or M21 waits at the regulator, with the priority of what waits for it. -/
def post (d : Dev) (m prio : Nat) (u : UnitOp) (l : Loc) (bolt : Nat) : Dev :=
  let kind : Kind := match u with | .put _ _ _ _ => .write | _ => .read
  let n := match u with | .ply _ => 4 | _ => 2
  let p : Part := ⟨d.nextTxn, 0, m, prio, .unit u, l, bolt⟩
  let x : Txn := ⟨.unit, m, kind, 0, 0, n, .none, 0, [], 0, none, false, 0, false, prio, 0, [p], 1, [], false, false, none⟩
  let r := newTxn d x
  queueAt r.2 m r.1

/-! ## Completions -/

/-- A completion reaches the regulator's side; CREDIT_RETURN returns its credit. -/
def pushDue (d : Dev) (m : Nat) (at_ : BitVec 64) (record : Bool) : Dev :=
  setMaster d m { getMaster d m with due := (getMaster d m).due ++ [⟨at_, record, 0⟩] }

/-- Bucket of a latency (R523). -/
def bucketOf (l : Nat) : Nat :=
  if l < 8 then 0
  else
    let e := Nat.log2 l
    min 31 (2 * (e - 3) + l / 2 ^ (e - 1) % 2 + 1)

/-- Histogram h records a completion of latency l by master m (R522 to R524). -/
def histOne (m l : Nat) (d : Dev) (h : Nat) : Dev :=
  let base := 0x10400 + 0x100 * h
  let sel := rget d base
  let mine := if sel.getLsbD 30 then bits sel 1 0 = trafficClass d m else bits sel 4 0 = m
  if sel.getLsbD 31 && decide mine && !frozen d then
    let n := if mget d.tally.lastAt (8 + h) = some d.cycle then mgetD 0 d.tally.counts (8 + h) else 0
    let d1 := { d with tally := { d.tally with lastAt := minsert d.tally.lastAt (8 + h) d.cycle,
                                               counts := mputD 0 d.tally.counts (8 + h) (n + 1) } }
    if n < 4 then rmax (rinc d1 (base + 0x80 + 4 * bucketOf l) 1) (base + 4) l else rinc d1 (base + 8) 1
  else d

def histRecord (d : Dev) (m l : Nat) : Dev := (List.range 4).foldl (histOne m l) d

/-- The oldest completion of master m returns its credit; its latency is recorded (R280, R522). -/
def creditReturn (d : Dev) (m : Nat) : Dev :=
  match (getMaster d m).due with
  | [] => d
  | x :: rest =>
    let y := getMaster d m
    let d1 := setMaster d m { y with due := rest, held := y.held - 1 }
    if x.record then histRecord d1 m (d.cycle - x.at_).toNat else d1

/-- Accesses of an internal master that begin and end within one command, one after another: each takes a credit, is admitted
and charged, and its completion returns the credit and is recorded (R58, R280, R286, R522). -/
def unitRun (m units n : Nat) (bolt : Option Nat) (d : Dev) : Dev :=
  iter n (fun _ d => creditReturn (pushDue (chargeAdmit (takeCredit d m) m units bolt) m d.cycle true) m) d

/-! ## Deliverable capacity and windows (R292 to R304) -/

/-- Channels of region r that count as out for the regulator: out, or under rebuild (R293). -/
def outCount (d : Dev) (r : Nat) : Nat :=
  ((List.range 320).filter fun t =>
    regionOfTile t = r && ((svc d t).state = .out || (svc d t).state = .returning)).length

/-- The region counts at its lower rate (R293, R446). -/
def slowRate (d : Dev) (r : Nat) : Bool :=
  let op (k : Nat) := rget d (0xE060 + 4 * k)
  let slowAt (k : Nat) := if r = 0 then (op k).getLsbD 1 else (op k).getLsbD 0
  let now := if r = 0 then d.pins.nearSlow else if r = 1 then d.pins.far0Slow else d.pins.far1Slow
  now || (d.energy.chg && d.energy.changing.head? = some r && slowAt d.energy.target)

/-- 5 × 2^20 × D_r of R292: the fractions 5, 16 × 16, 256 and 256 cleared; p is in fifths of a byte per TCLK. -/
def deliverRegion (d : Dev) (r : Nat) : Nat :=
  let far := r != 0
  let n := if far then 32 else 256
  let p5 := if far then (if slowRate d r then 192 else 256) else (if slowRate d r then 128 else 160)
  let outs := outCount d r
  let avail16 := 16 * n - outs * (16 + rbits d 0x2100 20 16)
  let h := getHeat d r
  let dbl := h.doubled || h.lost
  let ref := rget d 0x2104
  let refv := if far then (if dbl then bits ref 31 24 else bits ref 23 16) else (if dbl then bits ref 15 8 else bits ref 7 0)
  let thrv := if h.step < 4 then rbits d 0x2108 (8 * h.step + 7) (8 * h.step)
    else rbits d 0x210C (8 * (h.step - 4) + 7) (8 * (h.step - 4))
  p5 * avail16 * (refv + 1) * (thrv + 1)

/-- D in units of 1/16 B per TCLK: one rounding down (R292). -/
def deliverable (d : Dev) : Nat :=
  16 * rbits d 0x2100 14 8 * (deliverRegion d 0 + deliverRegion d 1 + deliverRegion d 2) / (100 * 5 * 16 * 256 * 256)

def guarSum (d : Dev) : Nat := (masters.map (guarBwRaw d)).sum

/-- A new FACTOR for capacity D (R297). -/
def factorFor (dl s : Nat) : Nat := if s = 0 then 1024 else min 1024 (dl * 1024 / s)

/-- Master m missed its guarantee in the window that ends (R303, R304). -/
def missed (d : Dev) (m : Nat) : Bool :=
  let x := getMaster d m
  guarBw d m ≠ 0 && x.pressed && decide (x.charge * 32 < budget d m) && d.reg.mon.getLsbD (trafficClass d m)

def recordMiss (d : Dev) (m : Nat) : Dev :=
  let d1 := rinc (raise d Ev.GUARANTEE_MISSED (some m)) 0x2134 1
  if (rget d1 0x2130).getLsbD 31 then d1
  else rset d1 0x2130 (BitVec.ofNat 32 (2 ^ 31 + trafficClass d m * 2 ^ 8 + m))

/-- A request of the master waits for admission: its data have come (R303). -/
def awaits (d : Dev) (m : Nat) : Bool :=
  match (getMaster d m).queue with
  | id :: _ => (match getTxn d id with | some x => x.owed = 0 | none => false)
  | [] => false

/-- Pressed in this TCLK (R303). -/
def pressedNow (d : Dev) (m : Nat) : Bool :=
  awaits d m || (guarOt d m ≠ 0 && decide (guarOt d m ≤ (getMaster d m).held))

/-- A regulation window ends and the next begins (R287, R297, R299, R302, R304). -/
def regWindowEnd (d : Dev) : Dev :=
  if !d.boot.applied then d
  else
    let d1 := (masters.filter (missed d)).foldl recordMiss d
    let dl := deliverable d1
    let f := factorFor dl (guarSum d1)
    let d2 := if f = d1.reg.factor then d1 else raise d1 Ev.GUARANTEE_SCALED
    let reg' := { d2.reg with factor := f, deliver := dl, guarSum := guarSum d1 }
    let reg'' := { reg' with mon := BitVec.ofNat 4 (rbits d2 0x211C 3 0), window := max 1 (rbits d2 0x2100 7 0) }
    let d3 := { d2 with reg := reg'' }
    masters.foldl (fun (d : Dev) m =>
      setMaster d m { getMaster d m with charge := 0, overBudget := false, pressed := pressedNow d m }) d3

end Sys2Proof.Machine
end

