-- ==== Sys2Proof/Machine/Darn.lean ====
section
/-!
DEFINITION. The panel logic: reads and writes of lines with the out-of-service paths, Darn rebuilds, reconstruct writes,
stain conversion, whole-bolt writes (R170, R250 to R255, R340 to R345, R349, R365 to R373, R380 to R384).
-/
namespace Sys2Proof.Machine

/-! ## Marks and counts of a failing line -/

/-- The row tracker takes a FAIL (or a parity rewrite) of a row: 8 entries, most recently counted first (R387, R393). -/
def trackRow (bank row fails fixes : Nat) (force : Bool) (l : List Track) : List Track :=
  match takeFirst (fun t => t.bank = bank && t.row = row) l with
  | some (t, rest) => ⟨bank, row, t.fails + fails, t.fixes + fixes, t.force || force, t.told⟩ :: rest
  | none => ⟨bank, row, fails, fixes, force, false⟩ :: l.take 7

/-- A line read with outcome FAIL: R343, R387, R395. A Ledger line has no bolt (R509). -/
def recordFail (d : Dev) (l : Loc) (ekind ecc : Nat) : Dev :=
  let bolt := match roleOf d l with | .other => none | _ => some (lineBolt d l)
  let d1 := raise (rinc d (tileOff l.tile 0x200) 1) Ev.CRC_FAIL none bolt
  let d2 := lint d1 0x01 (lintLine d1 l) ekind ecc
  onSvc d2 l.tile fun s =>
    { s with tracker := trackRow l.bank l.row 1 0 false s.tracker, failsInWindow := s.failsInWindow + 1 }

def EKind.num : EKind → Nat
  | .fill => 0 | .direct => 1 | .bg => 2 | .data => 3 | .delta => 4 | .full => 5

def lineDropped (d : Dev) (l : Loc) (bolt : Nat) : Dev :=
  lint (raise (setMend d bolt true) Ev.LINE_DROPPED none (some bolt)) 0x24 (lintLine d l)

def lineUnreachable (d : Dev) (l : Loc) (bolt : Nat) : Dev :=
  lint (raise d Ev.LINE_UNREACHABLE none (some bolt)) 0x27 (lintLine d l)

/-! ## Delivering a line that was read -/

/-- The delta of a DATA entry goes into its reservation at the parity member (R254, R255). -/
def sendDelta (d : Dev) (t : Nat) (e : HEntry) (old : DLine) : Dev :=
  let l : Loc := ⟨t, e.bank, e.orow, e.col⟩
  match roleOf d l with
  | .data st =>
    let pl := stripeParityLoc d st
    match takeFirst (fun r : Resv => r.tile = t && r.hid = e.id) (chan d pl.tile).resv with
    | some (_, rest) => addHam (onChan d pl.tile fun c => { c with resv := rest }) .delta pl e.bolt (xorLine old e.line)
    | none => d
  | _ => d

/-- The old line of a drain read has arrived: a DATA entry sends its delta, a DELTA entry keeps it for its write. -/
def drainArrived (d : Dev) (t hid : Nat) (old : DLine) : Dev :=
  let c := chan d t
  match c.ham.find? (fun e => e.id = hid), c.awaiting.find? (fun e => e.id = hid) with
  | some e, _ =>
    let d1 := if e.kind = .data then sendDelta d t e old else d
    let keep (x : HEntry) : HEntry := { x with old := some old, deltaSent := e.kind = .data }
    onChan d1 t fun c => { c with ham := updWhere (fun x => x.id = hid) keep c.ham }
  | none, some e =>
    onChan (sendDelta d t e old) t fun c => { c with awaiting := c.awaiting.filter fun x => x.id ≠ hid }
  | none, none => d

/-- The reservation of a DATA entry is released and no delta follows (R341). -/
def releaseResv (d : Dev) (t hid : Nat) : Dev :=
  let drop (c : Chan) : Chan := { c with resv := c.resv.filter fun r => !(r.tile = t && r.hid = hid) }
  let d1 := (panelTiles d (panelOf d t)).foldl (fun d x => onChan d x drop) d
  onChan d1 t fun c =>
    { c with ham := updWhere (fun x => x.id = hid) (fun x => { x with deltaSent := true }) c.ham,
             awaiting := c.awaiting.filter fun x => x.id ≠ hid }

/-- A line reaches its job; one that a FULL entry has replaced meanwhile is read again (R341). -/
def jobGot (d : Dev) (j slot : Nat) (x : DLine) (k : Check) : Dev :=
  match getJob d j with
  | some job =>
    let again := job.stale.contains slot && match job.kind with | .convert _ _ _ | .rinse | .walk _ => true | _ => false
    let job1 := { job with open_ := job.open_.erase slot, toRead := job.toRead.erase slot }
    if again then setJob d j { job1 with toRead := job1.toRead ++ [slot], stale := job.stale.erase slot }
    else setJob d j { job1 with got := minsert job.got slot (x, k) }
  | none => d

/-- A line fill reaches its miss entry. Where a LASTUSE read discarded a dirty value of the line, the fill brings that
value or the one that memory holds: a free choice (R168, log entry 10). -/
def missArrived (d : Dev) (l : Loc) (data : LineData) (poison : Bool) : Dev :=
  let v := match mget d.lastUse (lineKey l.tile l.bank l.row l.col) with
    | some x => if !poison && Config.freeChoice d.free then x else data
    | none => data
  onSlice { d with free := d.free + 1 } l.tile fun s =>
    { s with miss := updWhere (fun m => m.loc = l) (fun m => { m with state := .arrived v poison }) s.miss }

/-- A line fill from a channel has come into a slice (R511). -/
def pressFill (d : Dev) (o : Owner) : Dev :=
  match o with
  | .miss l => raise d Ev.PRESS_FILL none (some (lineBolt d l))
  | _ => d

/-- A checked line reaches its owner (R339, R342, R344). -/
def deliver (d : Dev) (o : Owner) (x : DLine) (k : Check) : Dev :=
  match o with
  | .miss l => missArrived d l (if k = .good then x.data else 0) (k != .good)
  | .drain t hid => drainArrived d t hid x
  | .job j s => jobGot d j s x k
  | .nobody => d

/-! ## Jobs -/

/-- A new job: nothing asked for yet. -/
def mkJob (st : Stripe) (kind : JobKind) (prio : Nat) (toRead : List Nat) : Job := ⟨st, kind, prio, toRead, [], [], 0, [], 0, false⟩

/-- Location of a slot of a job: members 0 to 15, parity 16; 32 more for line 1 of a whole bolt. -/
def slotLoc (d : Dev) (st : Stripe) (slot : Nat) : Loc :=
  let st' := if 32 ≤ slot then { st with half := 1 } else st
  if slot % 32 = 16 then stripeParityLoc d st' else stripeDataLoc d st' (slot % 32)

def addJob (d : Dev) (j : Job) : Dev :=
  let id := d.nextJob
  let p := getPanel d j.stripe.panel
  setPanel (setJob { d with nextJob := id + 1 } id j) j.stripe.panel { p with jobs := p.jobs ++ [id] }

def ownerEntry (j : Job) : Option (Nat × Nat) :=
  match j.kind with
  | .rebuild _ (.drain t h) _ _ => some (t, h)
  | .convert _ (.drain t h) _ => some (t, h)
  | _ => none

/-- The line of a paired ply of channel t with index i, and its bolt (R93, R94). -/
def pairedLoc (d : Dev) (t i h : Nat) : Loc × Nat :=
  let nw := nwOf (isFar t)
  let w := i % nw
  let st : Stripe := ⟨panelOf d t, i / nw, w, (memberOf d t + 16 - w % 16) % 16, h⟩
  (stripeDataLoc d st (memberOf d t), stripeBolt d st)

/-- The line that a slot of a job names, and its bolt. -/
def jobLoc (d : Dev) (j : Job) (slot : Nat) : Loc × Nat :=
  match j.kind with
  | .lift t n => pairedLoc d t (16 * n + slot % 32) (slot / 32)
  | _ => (slotLoc d j.stripe slot, stripeBolt d j.stripe)

/-- The highest effective priority among the requests that wait on a rebuild; nobody waits on the other jobs (R291). -/
def waitPrio (d : Dev) (j : Job) : Nat :=
  match j.kind with
  | .rebuild _ (.miss x) _ _ => ((slice d x.tile).miss.find? fun e => e.loc = x).elim 0 Miss.prio
  | _ => 0

/-- M17 asks for one slot of a job as a DIRECT read (R252, R291, R367); a line of an out channel cannot be read for a rebuild. -/
def issueDirect (id : Nat) (d : Dev) (slot : Nat) : Dev :=
  match getJob d id with
  | none => d
  | some j =>
    let l := jobLoc d j slot
    let asks := match j.kind with | .patch _ _ _ | .lift _ _ => true | _ => false
    if !asks && countsOut d l.1.tile l.2 then jobGot d id slot ⟨0, 0⟩ .fail
    else
      let j1 := { j with toRead := j.toRead.erase slot, open_ := j.open_ ++ [slot] }
      post (setJob d id j1) 17 (waitPrio d j) (.read (.job id slot) false) l.1 l.2

/-- The line that a job is about. -/
def jobMember (j : Job) : Option Nat :=
  match j.kind with
  | .rebuild m _ _ _ | .reconstruct m _ | .convert m _ _ => some m
  | _ => none

/-- An earlier job has a new value of the same line for which its parity line is not created yet: entries of one line keep
their order (R371). -/
def behind (d : Dev) (id : Nat) (j : Job) : Bool :=
  (getPanel d j.stripe.panel).jobs.any fun i => decide (i < id) && match getJob d i with
    | some x => (match x.kind with | .reconstruct _ _ | .convert _ _ (some _) => true | _ => false) &&
        x.stripe = j.stripe && jobMember x = jobMember j
    | none => false

/-- A job waits for deltas on their way to its line position, or behind another (R368, R371). -/
def jobWaits (d : Dev) (id : Nat) (j : Job) : Bool :=
  match j.kind with
  | .lift _ _ => false
  | _ => deltasPending d j.stripe (ownerEntry j) || behind d id j

/-- A job asks for the reads that it still lacks, where it need not wait (R367, R368). -/
def kickJob (d : Dev) (id : Nat) : Dev :=
  match getJob d id with
  | none => d
  | some j =>
    match j.kind with
    | .rinse | .walk _ => d
    | _ =>
      if j.toRead.isEmpty || jobWaits d id j then d
      else if isRebuild j && !started j && 32 ≤ slotsUsed d j.stripe.panel then d
      else
        let d1 := if isRebuild j && !started j then raise d Ev.DARN_REBUILD none (some (stripeBolt d j.stripe)) else d
        j.toRead.foldl (issueDirect id) d1

def kickPanel (d : Dev) (p : Nat) : Dev := (getPanel d p).jobs.foldl kickJob d

def startJob (d : Dev) (j : Job) : Dev := kickJob (addJob d j) d.nextJob

/-- Darn rebuilds a data line for its owner (R340, R365); `born` is the number of the read entry that asked for it, the next one
where no entry has. -/
def startRebuild (d : Dev) (l : Loc) (o : Owner) (prio : Nat) (writeBack : Bool) (k : EKind) (born : Option Nat := none) : Dev :=
  match roleOf d l with
  | .data st =>
    let m := memberOf d l.tile
    let waits := match o with
      | .miss x => ((slice d x.tile).miss.find? fun e => e.loc = x).elim 0 Miss.prio
      | _ => 0
    startJob d { mkJob st (.rebuild m o writeBack k) (max prio waits) (((List.range 16).filter (· ≠ m)) ++ [16]) with
      born := born.getD (chan d l.tile).nextId }
  | _ => deliver d o ⟨0, 0⟩ .fail

/-! ## Reads (R365, R366, R382, R384) -/

/-- Where slot n holds the lift copy of a paired line of channel t (R94). -/
def liftLoc (d : Dev) (n : Nat) (l : Loc) : Loc :=
  let ia := rbits d (0x4020 + 4 * n) 15 0 * 2 ^ 21 + (l.bank * nwOf (isFar l.tile) + l.row) * 128 + l.col % 2 * 64
  match regionOf ia with
  | some r => let sp := stripeOf d r ia; stripeDataLoc d sp.1 ((sp.2 + sp.1.slot) % 16)
  | none => l

/-- A line is read for its owner: on its channel, through Darn, by M17 from the lift copy at M17's own priority, or as poison. -/
def readLine (d : Dev) (k : EKind) (l : Loc) (o : Owner) (prio : Nat) : Dev :=
  match roleOf d l with
  | .data st =>
    let bolt := stripeBolt d st
    let d := outLook d st
    if countsOut d l.tile bolt then
      let paired := st.parityMember = memberOf d l.tile
      match (svc d l.tile).slot, paired && (svc d l.tile).hasCopy with
      | some slot, true => let ll := liftLoc d slot l; post d 17 0 (.read o true) ll (lineBolt d ll)
      | _, _ =>
        if paired || 2 ≤ (outMembers d st).length then deliver (lineUnreachable d l bolt) o ⟨0, 0⟩ .stain
        else startRebuild d l o prio false k
    else addRead d k l o prio
  | _ => addRead d k l o prio

/-! ## Writes (R171, R349, R369, R370, R381, R384) -/

/-- M17 writes a line of the lift copy, as a write-back in the slot's panel (R171, R381, R382). -/
def liftWrite (d : Dev) (ll : Loc) (x : DLine) : Dev := post d 17 0 (.put .data x false none) ll (lineBolt d ll)

/-- What a paired line of channel l.tile becomes in its lift copy. -/
def liftLine (l ll : Loc) (x : DLine) : DLine := writeBackLine ll x.data (x = stainAt l)

/-- A write of a paired line of a channel in LIFTING is mirrored where its lift bolt has been read: at once, or after the
bolt under copy has been written (R381). -/
def mirror (d : Dev) (l : Loc) (x : DLine) : Dev :=
  let s := svc d l.tile
  match s.state, s.slot with
  | .lifting, some n =>
    let i := (l.bank * nwOf (isFar l.tile) + l.row) / 16
    let ll := liftLoc d n l
    let f := getLift d n
    if i < f.copied then liftWrite d ll (liftLine l ll x)
    else if i = f.copied && d.jobs.any (fun e => e.2.kind = .lift l.tile i) then
      setLift d n { f with mirror := f.mirror ++ [(ll, liftLine l ll x)] }
    else d
  | _, _ => d

/-- A data line is created on its own channel. -/
def dataHam (d : Dev) (st : Stripe) (k : EKind) (l : Loc) (bolt : Nat) (x : DLine) (verify : Bool := false) : Dev :=
  let d1 := addHam d k l bolt x verify
  if st.parityMember = memberOf d l.tile then mirror d1 l x else d1

/-- A DATA or FULL line on its way to its channel: the row of R369 or R384 that applies. A Ledger line of a frozen tile is written
in the Ledger save alone (R275, R503). -/
def writeLine (d : Dev) (k : EKind) (l : Loc) (bolt : Nat) (x : DLine) (verify : Bool := false) : Dev :=
  match roleOf d l with
  | .data st =>
    let d := outLook d st
    let outs := outMembers d st
    let me := memberOf d l.tile
    let q := st.parityMember
    if !outs.contains me then
      if k = .data && outs.contains q then dataHam (setMend d bolt true) st .full l bolt x else dataHam d st k l bolt x verify
    else
      match (svc d l.tile).slot, q = me && (svc d l.tile).hasCopy with
      | some slot, true =>
        let ll := liftLoc d slot l
        liftWrite (restale (setMend d bolt true) l) ll (liftLine l ll x)
      | _, _ =>
        if 2 ≤ outs.length || q = me then lineDropped d l bolt
        else startJob (setMend d bolt true) (mkJob st (.reconstruct me x) 0 ((List.range 16).filter (· ≠ me)))
  | .parity st => if countsOut d l.tile (stripeBolt d st) then setMend d bolt true else addHam d k l bolt x
  | .other =>
    if (svc d l.tile).state = .out && (svc d l.tile).reason = .frozen && d.boot.warmState ≠ 3 then d else addHam d k l bolt x

/-- One data line of a bolt whose 16 plies and parity the panel logic holds. -/
def writeBoltMember (st : Stripe) (bolt : Nat) (d : Dev) (e : Nat × DLine) : Dev :=
  let l := stripeDataLoc d st e.1
  let outs := outMembers d st
  if !outs.contains e.1 then dataHam d st .full l bolt e.2
  else if st.parityMember = e.1 && (svc d l.tile).hasCopy then writeLine d .full l bolt e.2
  else if 2 ≤ outs.length || st.parityMember = e.1 then lineDropped d l bolt
  else setMend d bolt true

/-- The FULL entries of a whole bolt, 32 data lines and 2 parity lines, and its Blank bit (R170, R349). `f half member`
is the line's data. -/
def writeWholeBolt (d : Dev) (st : Stripe) (f : Nat → Nat → LineData × Bool) : Dev :=
  let bolt := stripeBolt d st
  let one (d : Dev) (half : Nat) : Dev :=
    let s := { st with half := half }
    let ls := (List.range 16).map fun m =>
      (m, writeBackLine (stripeDataLoc d s m) (f half m).1 (f half m).2)
    let d1 := ls.foldl (writeBoltMember s bolt) d
    writeLine d1 .full (stripeParityLoc d s) bolt (xorLines (ls.map Prod.snd))
  setValid (one (one (blankLook d bolt) 0) 1) bolt

/-- Every Hamper of the panel has room for a whole bolt (R253), no cap forbids it (R332), and nothing reads the bolt. -/
def boltRoom (d : Dev) (st : Stripe) : Bool :=
  !boltRead d st && (List.range 16).all fun m =>
    let t := tileAt d st.panel m
    let n := if m = st.parityMember then 4 else 2
    hamRoom (chan d t) n && capFits d t n && !rateChanging d t

/-- A dirty line leaves its slice for its channel: the zero fill of a blank bolt, or the parity update (R171, R172,
R349). None while the Hampers it needs have no room. -/
def writeBack (d : Dev) (l : Loc) (bolt : Nat) (data : LineData) (poison : Bool) : Option Dev :=
  match roleOf d l with
  | .data st =>
    let count (d : Dev) := raise d Ev.PRESS_WRITEBACK none (some bolt)
    let d := blankLook d bolt
    if isValid d bolt then
      if hamRoom (chan d l.tile) 1 then some (count (writeLine d .data l bolt (writeBackLine l data poison))) else none
    else if boltRoom d st then
      let me := memberOf d l.tile
      some (count (writeWholeBolt d st fun h m => if h = st.half ∧ m = me then (data, poison) else (0, false)))
    else none
  | _ => none

/-! ## Ends of jobs -/

/-- Its lines have returned, and it has not asked for its writes yet. -/
def jobReady (j : Job) : Bool := j.toRead.isEmpty && j.open_.isEmpty && j.puts = 0

/-- The first job of a panel that satisfies `p`. -/
def findJob (d : Dev) (panel : Nat) (p : Job → Bool) : Option (Nat × Job) :=
  (getPanel d panel).jobs.findSome? fun i =>
    match getJob d i with
    | some j => if p j then some (i, j) else none
    | none => none

def anyFail (j : Job) : Bool := j.got.any fun e => e.2.2 = .fail

/-- A column of a Patch move is written: its pointer advances (R388). -/
def passColumn (d : Dev) (t : Nat) : Dev :=
  onSvc d t fun s => { s with move := s.move.map fun m => { m with ptr := m.ptr + 1, job := none } }

def rinsePass (d : Dev) : Dev := raise (rinc d 0xB014 1) Ev.RINSE_PASS

/-- The panel's walk goes on to the next bolt; past the last one, Rinse counts a pass (R394). -/
def rinseOn (d : Dev) (p : Nat) : Dev :=
  let x := getPanel d p
  if panelBolts p ≤ x.rinsePos + 1 then rinsePass (setPanel d p { x with rinsePos := 0 })
  else setPanel d p { x with rinsePos := x.rinsePos + 1 }

/-- Other members that count as out for a bolt of the walk of member a. -/
def otherOut (d : Dev) (st : Stripe) (a : Nat) : List Nat := (outMembers d st).filter (· ≠ a)

/-- Work of a bolt that waits for Darn because tile t counted as out there: the bolt's channel takes it, in its order, once the
bit is cleared (R256, R371, R377). -/
def takeBack (t : Nat) (d : Dev) (id : Nat) : Dev :=
  match getJob d id with
  | none => d
  | some j =>
    let me := memberOf d t
    let l := stripeDataLoc d j.stripe me
    let bolt := stripeBolt d j.stripe
    match j.kind with
    | .reconstruct m x | .convert m .nobody (some x) => if m = me then writeLine (dropJob d id) .data l bolt x else d
    | .rebuild m o _ k => if m = me && j.puts = 0 then readLine (dropJob d id) k l o j.prio else d
    | .convert _ _ none =>
      if j.puts = 0 && (mget j.got me).isSome then setJob d id { j with got := merase j.got me, toRead := j.toRead ++ [me] } else d
    | _ => d

/-- Jobs of a panel that concern one bolt. -/
def boltJobs (d : Dev) (st : Stripe) : List Nat :=
  (getPanel d st.panel).jobs.filter fun i =>
    match getJob d i with
    | some j => { j.stripe with half := 0 } = { st with half := 0 } && (match j.kind with | .lift _ _ => false | _ => true)
    | none => false

/-- What a channel takes back with the bit of a bolt: Hamper entries, and read entries. -/
def backCount (d : Dev) (t : Nat) (st : Stripe) : Nat × Nat :=
  let me := memberOf d t
  let js := (boltJobs d st).filterMap (getJob d)
  let wr (x : Job) : Bool := match x.kind with | .reconstruct m _ | .convert m .nobody (some _) => m = me | _ => false
  let rd (x : Job) : Bool := match x.kind with | .rebuild m _ _ _ => m = me && x.puts = 0 | _ => false
  ((js.filter wr).length, (js.filter rd).length)

/-- The last entry of a walk's bolt, at `tile`, waits until the returning channel has room for what it takes back with it (R253,
R332, R377). -/
def walkFits (d : Dev) (tile id : Nat) : Bool :=
  match getJob d id with
  | none => true
  | some j => match j.kind with
    | .walk t =>
      let n := backCount d t j.stripe
      let own := bit (tile = t)
      j.puts ≠ 1 || !(otherOut d j.stripe (memberOf d t)).isEmpty || n.1 + n.2 = 0 ||
        (hamRoom (chan d t) (own + n.1) && capFits d t (own + n.1 + n.2))
    | _ => true

/-- The walk meets a blank marked bolt: it clears the bit, and does nothing else (R377). DESIGN CHOICE (log entry 77): where another
channel of the panel is out the bit stays, as R385 has it of every bolt that the walk visits. -/
def passBlank (d : Dev) (st : Stripe) (t : Nat) : Dev :=
  if (otherOut d st (memberOf d t)).isEmpty then setMend d (stripeBolt d st) false else d

/-- The walk leaves a bolt; its bit is cleared where every member's ply has been written (R377, R385). -/
def walkOn (d : Dev) (st : Stripe) (t : Nat) : Dev :=
  let d1 := if (otherOut d st (memberOf d t)).isEmpty then
    (boltJobs d st).foldl (takeBack t) (setMend d (stripeBolt d st) false) else d
  setPanel d1 st.panel { getPanel d1 st.panel with walkPos := (getPanel d1 st.panel).walkPos + 1 }

/-- A lift bolt has been written: it is valid, and the writes that waited for it are mirrored (R349, R380, R381). -/
def liftDone (d : Dev) (t : Nat) : Dev :=
  match (svc d t).slot with
  | none => d
  | some n =>
    let f := getLift d n
    let ia := rbits d (0x4020 + 4 * n) 15 0 * 2 ^ 21 + f.copied * 2048
    let bolt := ia / 2048
    let d1 := setLift (setValid (blankLook d bolt) bolt) n { f with copied := f.copied + 1, mirror := [] }
    f.mirror.foldl (fun d e => liftWrite d e.1 e.2) d1

/-- A job ends: its FULL entries are created (R341, R372). A walk whose lines a write has reached between its reads and that end
leaves the mark, and takes the bolt up again. -/
def endJob (d : Dev) (id : Nat) : Dev :=
  match getJob d id with
  | none => d
  | some j =>
    let d1 := dropJob d id
    match j.kind with
    | .convert _ (.drain t h) _ => releaseResv d1 t h
    | .rinse => rinseOn d1 j.stripe.panel
    | .walk t => if j.stale.isEmpty then walkOn d1 j.stripe t else d1
    | .lift t _ => liftDone d1 t
    | _ => d1

/-- One of the FULL entries of a job is created. -/
def putDone (d : Dev) (id : Nat) : Dev :=
  match getJob d id with
  | none => d
  | some j => if j.puts ≤ 1 then endJob d id else setJob d id { j with puts := j.puts - 1 }

/-- M17 asks for the writes of a job, which holds its position until they are created (R286, R372). -/
def postPuts (d : Dev) (id : Nat) (bolt : Nat) (verify : Bool) (ws : List (Loc × DLine)) : Dev :=
  match getJob d id with
  | none => d
  | some j =>
    if ws.isEmpty then endJob d id
    else ws.foldl (fun d e => post d 17 0 (.put .full e.2 verify (some id)) e.1 bolt) (setJob d id { j with puts := ws.length })

/-- A job that turns into a conversion reads again what a write has reached since (R341). -/
def reread (j : Job) : Job :=
  let again := j.stale.filter fun s => (mget j.got s).isSome && s ≠ 16
  { j with got := again.foldl merase j.got, toRead := j.toRead ++ again, stale := [] }

/-- The lines of a rebuild have returned: the rebuilt line is checked and used (R340, R342, R365). -/
def finishRebuild (d : Dev) (id : Nat) (j : Job) : Dev :=
  match j.kind with
  | .rebuild m o wb _ =>
    let l := stripeDataLoc d j.stripe m
    let x := xorLines (j.got.map fun e => e.2.1)
    let k := if anyFail j then .fail else checkLine l x false
    let bolt := stripeBolt d j.stripe
    let isDrain := match o with | .drain _ _ => true | _ => false
    match k with
    | .good =>
      let d1 := deliver (pressFill (raise (rinc d (tileOff l.tile 0x204) 1) Ev.REBUILT none (some bolt)) o) o x .good
      postPuts d1 id bolt ((rget d1 0xB018).getLsbD 8) (if wb && !isDrain then [(l, x)] else [])
    | .stain =>
      let d1 := dropJob d id
      if isDrain then deliver d1 o x .stain else deliver (pressFill (rinc d1 (tileOff l.tile 0x20C) 1) o) o x .stain
    | .fail =>
      let sup := match o with
        | .drain t h => ((chan d t).ham ++ (chan d t).awaiting).find? (fun e => e.id = h) |>.map (fun e => e.line)
        | _ => none
      let d1 := if isDrain then d else deliver d o ⟨0, 0⟩ .fail
      match getJob d1 id with
      | some j => setJob d1 id (reread { j with kind := .convert m o sup, got := minsert (merase j.got 16) m (⟨0, 0⟩, .fail) })
      | none => d1
  | _ => d

/-- Read entries of a channel leave it, and their credits go back. -/
def cancelEntries (mine : REntry → Bool) (d : Dev) (t : Nat) : Dev :=
  let c := chan d t
  let gone := (c.rq ++ c.bg.toList).filter mine
  let d1 := gone.foldl (fun d e => match e.master with | some m => pushDue d m e.since true | none => d) d
  if gone.isEmpty then d
  else onChan d1 t fun c => { c with rq := c.rq.filter fun e => !mine e, bg := if c.bg.any mine then none else c.bg }

/-- Entries that read for a job leave the channel. -/
def cancelReads (id : Nat) (d : Dev) (t : Nat) : Dev :=
  cancelEntries (fun e => match e.owner with | .job j _ => j = id | _ => false) d t

/-- A lift copy does not read the plies of a bolt that has become blank: it copies zeros (R347, R380). -/
def cancelLift (bolt : Nat) (d : Dev) (id : Nat) : Dev :=
  match getJob d id with
  | some j => (match j.kind with
    | .lift t _ =>
      let here (s : Nat) : Bool := (jobLoc d j s).2 = bolt
      let queued (e : REntry) : Option Nat := match e.owner with | .job k s => if k = id && here s then some s else none | _ => none
      let gone := (chan d t).rq.filterMap queued ++ j.toRead.filter here
      gone.foldl (fun d s => jobGot d id s ⟨0, 0⟩ .good) (cancelEntries (fun e => (queued e).isSome) d t)
    | _ => d)
  | none => d

/-- A bolt that a ZERO has made blank is not read: its jobs end, and an owner that still waits gets zeros (R182, R347). -/
def blankJob (d : Dev) (id : Nat) (j : Job) : Dev :=
  let d1 := (panelTiles d j.stripe.panel).foldl (cancelReads id) d
  let d2 := dropJob d1 id
  match j.kind with
  | .rebuild _ o _ _ => if j.puts = 0 then deliver d2 o ⟨0, 0⟩ .good else d2
  | .rinse => rinseOn d2 j.stripe.panel
  | .walk t =>
    let d3 := passBlank d2 j.stripe t
    setPanel d3 j.stripe.panel { getPanel d3 j.stripe.panel with walkPos := (getPanel d3 j.stripe.panel).walkPos + 1 }
  | .patch t _ _ => if ((svc d2 t).move.bind Move.job) = some id then passColumn d2 t else d2
  | _ => d2

/-- Every job of a bolt that has become blank ends. -/
def blankJobs (d : Dev) (st : Stripe) : Dev :=
  let here (j : Job) : Bool := { j.stripe with half := 0 } = { st with half := 0 } && match j.kind with | .lift _ _ => false | _ => true
  let d1 := (getPanel d st.panel).jobs.foldl (fun d i => match getJob d i with
    | some j => if here j then blankJob d i j else d
    | none => d) d
  (getPanel d1 st.panel).jobs.foldl (cancelLift (stripeBolt d st)) d1

/-- REBUILD_DONE: the first rebuild of the panel whose reads have all returned. -/
def rebuildDone (d : Dev) (p : Nat) : Dev :=
  match findJob d p (fun j => isRebuild j && jobReady j && started j) with
  | some (id, j) =>
    kickPanel (if isValid d (stripeBolt d j.stripe) then finishRebuild d id j else blankJob d id j) p
  | none => d

/-- A line made a stain (R341). -/
def stained (d : Dev) (l : Loc) (bolt : Nat) : Dev :=
  raise (rinc d (tileOff l.tile 0x208) 1) Ev.LINE_STAINED none (some bolt)

/-- The stain conversion of one line position (R341, R373). DETAIL of its record counts the stains that it writes and the stain that
a drained DATA entry's line replaces: DESIGN CHOICE (log entry 76). Where writes have replaced every lost line meanwhile nothing is
converted; a line that a reconstruct write supplies still goes into the parity. -/
def convert (d : Dev) (id : Nat) (j : Job) (m : Nat) (o : Owner) (sup : Option DLine) : Dev :=
  let st := j.stripe
  let bolt := stripeBolt d st
  let outs := outMembers d st
  let isBad (i : Nat) : Bool :=
    if i = m && sup.isSome then false
    else outs.contains i || (match mget j.got i with | some (_, k) => k = .fail | none => true)
  let final (i : Nat) : DLine :=
    if i = m then sup.getD (stainAt (stripeDataLoc d st i))
    else if isBad i then stainAt (stripeDataLoc d st i)
    else match mget j.got i with | some (x, _) => x | none => stainAt (stripeDataLoc d st i)
  let bad := (List.range 16).filter isBad
  let q := st.parityMember
  let qWritten := !outs.contains q || (svc d (tileAt d st.panel q)).state = .returning
  let ws := (bad.filter fun i => !outs.contains i).map fun i => (stripeDataLoc d st i, final i)
  let par := if qWritten then [(stripeParityLoc d st, xorLines ((List.range 16).map final))] else []
  let d1 := bad.foldl (fun d i => stained d (stripeDataLoc d st i) bolt) d
  let d2 := if outs.isEmpty then d1 else setMend d1 bolt true
  let isDrain := match o with | .drain _ _ => true | _ => false
  let n := bad.length + bit (isDrain && sup.isSome)
  let d3 := if n = 0 then d2 else lint d2 0x02 (lintLine d2 (stripeDataLoc d2 st m)) n (bit (isDrain && sup.isSome))
  if n = 0 && sup.isNone then endJob d id else postPuts d3 id bolt false (ws ++ par)

/-- A walk holds the bolt (R377). -/
def walksBolt (d : Dev) (st : Stripe) : Bool :=
  (boltJobs d st).any fun i => match getJob d i with
    | some j => (match j.kind with | .walk _ => true | _ => false)
    | none => false

/-- The walk of the bolt has read it and is being written: new writes of its holds wait for the bit (R377). -/
def walkWriting (d : Dev) (st : Stripe) : Bool :=
  (boltJobs d st).any fun i => match getJob d i with
    | some j => (match j.kind with | .walk _ => true | _ => false) && j.puts ≠ 0
    | none => false

/-- STAIN_CONVERSION: the first conversion of the panel that has its lines and no delta on the way (R341). -/
def stainConversion (d : Dev) (p : Nat) : Dev :=
  match findJob d p (fun j => match j.kind with
    | .convert _ _ _ => jobReady j && !deltasPending d j.stripe (ownerEntry j) && !walkWriting d j.stripe
    | _ => false) with
  | some (id, j) =>
    match j.kind with
    | .convert m o sup =>
      kickPanel (if isValid d (stripeBolt d j.stripe) then convert d id j m o sup else blankJob d id j) p
    | _ => d
  | none => d

/-- RECONSTRUCT_WRITE: the parity line of the first reconstruct write whose 15 lines have returned (R370). -/
def reconstructWrite (d : Dev) (p : Nat) : Dev :=
  match findJob d p (fun j => match j.kind with | .reconstruct _ _ => jobReady j && started j && !walkWriting d j.stripe | _ => false) with
  | some (id, j) =>
    match j.kind with
    | .reconstruct m x =>
      if !isValid d (stripeBolt d j.stripe) then blankJob d id j
      else if anyFail j then kickJob (setJob d id (reread { j with kind := .convert m .nobody (some x) })) id
      else
        let par := xorLines (x :: j.got.map fun e => e.2.1)
        postPuts d id (stripeBolt d j.stripe) false [(stripeParityLoc d j.stripe, par)]
    | _ => d
  | none => d

/-! ## Lift copies (R380) -/

def liftBolts (t : Nat) : Nat := nbOf (isFar t) * nwOf (isFar t) / 16

def findLift (d : Dev) (t : Nat) : Option (Nat × Job) :=
  findJob d (panelOf d t) fun j => match j.kind with | .lift x _ => x = t | _ => false

/-- The stripe of lift bolt n of a slot. -/
def liftStripe (d : Dev) (slot n : Nat) : Option Stripe :=
  let ia := rbits d (0x4020 + 4 * slot) 15 0 * 2 ^ 21 + n * 2048
  (regionOf ia).map fun r => (stripeOf d r ia).1

/-- The reads of lift bolt n: 16 paired plies, but for those of blank bolts. -/
def liftStart (d : Dev) (t n : Nat) : Dev :=
  let slots := ((List.range 16).flatMap fun i => [i, i + 32]).filter fun s => isValid d (pairedLoc d t (16 * n + s % 32) (s / 32)).2
  let look := (List.range 16).foldl (fun d i => blankLook d (pairedLoc d t (16 * n + i) 0).2) d
  startJob look (mkJob ⟨panelOf d t, 0, 0, 0, 0⟩ (.lift t n) 0 slots)

/-- What the copy has of one line: zeros of a blank bolt, poison where the line is not good. -/
def liftGot (j : Job) (slot : Nat) : LineData × Bool :=
  match mget j.got slot with
  | some (x, .good) => (x.data, false)
  | some _ => (0, true)
  | none => (0, false)

/-- The lines of a lift bolt with their places: 32 data lines, and 2 parity lines (R170, R380). -/
def liftLines (d : Dev) (st : Stripe) (j : Job) : List (Loc × DLine) :=
  [0, 1].flatMap fun half =>
    let s := { st with half := half }
    let ls := (List.range 16).map fun m =>
      let l := stripeDataLoc d s m
      let g := liftGot j ((m + 16 - st.slot) % 16 + 32 * half)
      (l, writeBackLine l g.1 g.2)
    ls ++ [(stripeParityLoc d s, xorLines (ls.map Prod.snd))]

/-- The lines of a lift bolt have been asked for and are not all created. -/
def liftWriting (d : Dev) (bolt : Nat) : Bool :=
  (List.range 4).any fun n =>
    let f := getLift d n
    f.phase = 1 && match findLift d f.tile with
      | some (_, j) => j.puts ≠ 0 && (liftStripe d n f.copied).any fun st => stripeBolt d st = bolt
      | none => false

/-- The copy of a tile goes on: its next lift bolt is read; one that has been read is written, line by line, by M17 (R58, R286,
R380, R382), once no walk of its panel holds the bolt (R377). -/
def liftStep (d : Dev) (t : Nat) : Dev :=
  let s := svc d t
  match s.state, s.slot with
  | .lifting, some n =>
    let f := getLift d n
    match findLift d t with
    | none => if f.copied < liftBolts t && !s.draining then liftStart d t f.copied else d
    | some (id, j) =>
      match jobReady j, liftStripe d n f.copied with
      | true, some st => if walksBolt d st then d else postPuts d id (stripeBolt d st) false (liftLines d st j)
      | _, _ => d
  | _, _ => d

/-! ## Ledger sections that M21 writes while the instance runs (R496) -/

/-- No bolt: a Ledger line belongs to none. -/
def noBolt : Nat := 2 ^ 30

def sectionLine (v i : Nat) : LineData := BitVec.ofNat 512 (v >>> (512 * i))

def wordsNat (ws : List Nat) : Nat := ws.foldr (fun w acc => w % 2 ^ 32 + acc * 2 ^ 32) 0

/-- HEADER (R495). -/
def headerNat (t epoch : Nat) (orderly out : Bool) (digest : List Word) : Nat :=
  wordsNat ([0x4744454C, 2 ^ 16 + t, epoch, bit orderly + 2 * bit out] ++ digest.map BitVec.toNat)

/-- First bolt and number of bolts of a channel's share of the Blank map (R494). -/
def blankShare (t : Nat) : Nat × Nat :=
  if t < 256 then (61440 * t, 61440)
  else if t < 288 then (15728640 + 737280 * (t - 256), 737280)
  else (39321600 + 737280 * (t - 288), 737280)

/-- Valid bolts lo to hi of the map as bits from bolt `base` on. -/
def runBits (base n : Nat) (r : Nat × Nat) : Nat :=
  let lo := max base r.1
  let hi := min (base + n - 1) r.2
  if lo ≤ hi then (2 ^ (hi + 1 - lo) - 1) * 2 ^ (lo - base) else 0

/-- BLANK (R494). -/
def blankNat (t : Nat) (valid : List (Nat × Nat)) : Nat :=
  let b := blankShare t
  (valid.map (runBits b.1 b.2)).sum

def blankLines (t : Nat) : Nat := if isFar t then 1440 else 120

/-- M21 asks for copy A of a section's lines. -/
def ledgerPost (t off n v : Nat) (d : Dev) : Dev :=
  let grow (l : List LedJob) : List LedJob :=
    if l.any fun x => x.off = off then updWhere (fun x => x.off = off) (fun x => { x with left := x.left + 2 * n }) l
    else l ++ [⟨off, n, 2 * n⟩]
  let d1 := onSvc d t fun s => { s with led := grow s.led }
  (List.range n).foldl (fun d i =>
    let l := ledgerLoc t false (off + 64 * i)
    post d 21 0 (.put .full (coded l (sectionLine v i)) false none) l noBolt) d1

/-- A freeze leaves of M21's work on a tile its TRAIN section alone: no line of it is written while the tile is frozen (R275), and all of
it once it is released, or in step E4 (R496, R503). A move writes PATCH anew (R391). -/
def waitsFrozen (l : List LedJob) : List LedJob := (l.filter fun j => j.off = 0x40).map fun j => { j with left := 2 * j.n }

/-- A completed training's TRAIN section is written, on a frozen tile once it may be (R275, R415, R496). -/
def trainPost (d : Dev) (t : Nat) : Dev :=
  let s := svc d t
  if s.state = .out && s.reason = .frozen && d.boot.warmState ≠ 3 then
    onSvc d t fun s => { s with led := s.led.filter (fun j => j.off ≠ 0x40) ++ [⟨0x40, 63, 126⟩] }
  else ledgerPost t 0x40 63 s.hem.values d

/-- HEADER of step E4: ORDERLY 1, the next EPOCH, OUT for a tile that is held out or frozen (R496, R503). -/
def saveHeader (d : Dev) (t : Nat) : Dev :=
  ledgerPost t 0 1 (headerNat t ((d.boot.epoch.toNat + 1) % 2 ^ 32) true ((svc d t).state = .out) d.boot.layout) d

/-- In step E4 the HEADER follows the BLANK section. -/
def saveNext (d : Dev) (t : Nat) (j : LedJob) : Dev :=
  if d.boot.warmState = 3 && j.off = 0x2000 && !((svc d t).led.any fun x => x.off = 0x2000) then saveHeader d t else d

/-- The line of a section that an entry writes, and whether it is copy B's. -/
def ledgerLineOf (t : Nat) (e : HEntry) (j : LedJob) : Option (Nat × Bool) :=
  let at_ (b : Bool) (i : Nat) : Bool :=
    let l := ledgerLoc t b (j.off + 64 * i)
    l.bank = e.bank && l.row = e.row && l.col = e.col
  match (List.range j.n).find? (at_ false) with
  | some i => some (i, false)
  | none => ((List.range j.n).find? (at_ true)).map fun i => (i, true)

/-- A Ledger line's write command has been issued: copy B follows copy A (R496). -/
def ledgerIssued (d : Dev) (t : Nat) (e : HEntry) : Dev :=
  match (svc d t).led.findSome? (fun j => (ledgerLineOf t e j).map fun r => (j, r)) with
  | none => d
  | some (j, i, b) =>
    let on (l : List LedJob) : List LedJob :=
      (updWhere (fun x => x.off = j.off) (fun x => { x with left := x.left - 1 }) l).filter fun x => x.left ≠ 0
    let d1 := onSvc d t fun s => { s with led := on s.led }
    if b then saveNext d1 t j
    else
      let l := ledgerLoc t true (j.off + 64 * i)
      post d1 21 0 (.put .full (coded l e.line.data) false none) l noBolt

/-- A Ledger entry that a freeze in step E4 hands over is written again; one of the alert window counts once more (R273, R503). -/
def ledgerAgain (d : Dev) (t : Nat) (e : HEntry) : Dev :=
  let l : Loc := ⟨t, e.bank, e.orow, e.col⟩
  let d1 := match e.window, (svc d t).led.findSome? (fun j => (ledgerLineOf t e j).map fun r => (j, r)) with
    | true, some (j, _, b) =>
      onSvc d t fun s => { s with led := updWhere (fun x => x.off = j.off) (fun x => { x with left := x.left + (if b then 1 else 2) }) s.led }
    | _, _ => d
  writeLine d1 .full l noBolt e.line

end Sys2Proof.Machine
end

