-- ==== Sys2Proof/Machine/Wire.lean ====
section
/-!
DEFINITION. Sending and relaying messages on the die link (R459 to R463), and answering transactions: port responses,
RSP messages, the answers of M16, silent completions (R110, R123, R126, R129, R143).
-/
namespace Sys2Proof

/-! ## The die link -/

/-- Code of a message (R463). -/
def MsgBody.code : MsgBody → Nat
  | .req .. => 1 | .rsp .. => 2 | .hello .. => 3 | .image .. => 4 | .verdict .. => 5 | .apply => 6 | .applied => 7
  | .regWrite .. => 8 | .regAck .. => 9 | .heartbeat .. => 10 | .hbAck .. => 11 | .report .. => 12 | .absentSet .. => 13
  | .absentClear .. => 14 | .leave => 15

def MsgBody.isManagement (b : MsgBody) : Bool := b.code ≠ 1 && b.code ≠ 2 && b.code ≠ 4

/-- Types whose request carries no data or operand (R109, R111). -/
def carriesNone : List Nat := [0, 3, 4, 5, 6, 11]

/-- Payload bytes of a message (R428 counts them on the link). -/
def MsgBody.payload : MsgBody → Nat
  | .req _ _ _ ty _ _ _ _ _ beats => if carriesNone.contains ty.toNat then 0 else 512 * beats.length
  | .rsp _ _ _ data => 512 * data.length
  | .image _ ws => 4 * ws.length
  | _ => 0

/-- Bytes of a message on a link; the layout beyond the payload is open (log entry 11). -/
def MsgBody.bytes (b : MsgBody) : Nat := Config.msgOverhead b.code + b.payload

/-- Class of a message: requests, responses, and management, which shares the responses' class on a link (R461, R463). -/
def MsgBody.cls (b : MsgBody) : Nat := if b.isManagement then 2 else if b.code = 2 then 1 else 0

/-- Entries of 256 B that a message takes in the queue between TCLK and LCLK (R63). -/
def MsgBody.entries (b : MsgBody) : Nat := max 1 ((b.bytes + 255) / 256)

end Sys2Proof

namespace Sys2Proof.Machine

def linkUp (d : Dev) (j : Nat) : Bool := (getLink d j).state = .up && (getLink d j).modules ≠ 0
def linkBytes (d : Dev) (j : Nat) : Nat := ((getLink d j).queue.map fun q => q.msg.body.bytes).sum

/-- The link that starts the shorter, or preferred, path to an instance: xor 1 faces link 0, xor 2 link 1 (R459, R460). -/
def directLink (me dst : Nat) : Nat := if Nat.xor me dst = 2 then 1 else 0

/-- The links beyond the first on the path from `me` to `dst` whose first link is j (R460). -/
def farLinks (me dst j : Nat) : List Nat :=
  if Nat.xor me dst = j + 1 then [] else if Nat.xor me dst = 3 then [j] else [j, 1 - j]

/-- The path whose first link is j is up, as far as the instance can tell (R460, R466; log entry 27). -/
def pathOk (d : Dev) (dst j : Nat) : Bool :=
  linkUp d j && (farLinks d.boot.inst.toNat dst j).all d.link.far.getLsbD

/-- A management message to an instance may return to its preferred path: none to that instance is queued on the other one.
One that has left the queue may still be in flight there, which no command shows: a free value decides (log entry 27). -/
def mayReturn (d : Dev) (dst o : Nat) : Bool :=
  !(getPeer d dst).detour || (!(getLink d o).queue.any (fun q => q.msg.dst.toNat = dst && q.msg.body.isManagement) &&
    Config.freeChoice d.free)

/-- The link a message leaves on (R460); none when no path is up. -/
def chooseLink (d : Dev) (dst : Nat) (b : MsgBody) : Option Nat :=
  let p := directLink d.boot.inst.toNat dst
  let o := 1 - p
  match pathOk d dst p, pathOk d dst o with
  | false, false => none
  | true, false => some p
  | false, true => some o
  | true, true =>
    if b.isManagement then (if mayReturn d dst o then some p else some o)
    else if linkBytes d o < linkBytes d p then some o else some p

/-- Put a message on a link's queue. -/
def enqueue (d : Dev) (j : Nat) (q : Queued) : Dev :=
  let l := getLink d j
  setLink d j { l with queue := l.queue ++ [q] }

/-- Messages of this instance that stand in a link's queue. -/
def ownQueued (d : Dev) : List MsgBody :=
  ((getLink d 0).queue ++ (getLink d 1).queue).filterMap fun q => if q.relayed then none else some q.msg.body

/-- What stands in the queue of 64 entries ahead of a message, as far as it takes room from it: everything but management for
a request; the responses for a response, which never waits for requests (R63, R461; log entry 8). -/
def queuedAhead (d : Dev) (b : MsgBody) : List MsgBody :=
  (ownQueued d).filter fun x => if b.cls = 1 then x.cls = 1 else !x.isManagement

/-- The queue that a message crosses has room for it (R62, R63): 16 management messages; 64 entries of 256 B for the others. -/
def hasRoom (d : Dev) (b : MsgBody) : Bool :=
  if b.isManagement then decide (((ownQueued d).filter MsgBody.isManagement).length < 16)
  else decide ((queuedAhead d b).isEmpty ∨ ((queuedAhead d b).map MsgBody.entries).sum + b.entries ≤ 64)

/-- The link between two neighbours, as either numbers it. -/
def linkTo (me dst : Nat) : Nat := Nat.xor me dst - 1

/-- A message enters the queue of the path it takes; a HELLO goes on its own link, ahead of what waits there (R457). -/
def putMsg (d : Dev) (m : Msg) : Dev :=
  let j := linkTo m.src.toNat m.dst.toNat
  if m.body.code = 3 then setLink d j { getLink d j with queue := ⟨m, 0, false⟩ :: (getLink d j).queue }
  else match chooseLink d m.dst.toNat m.body with
  | some j =>
    let d1 := if m.body.isManagement then
        setPeer { d with free := d.free + 1 } m.dst.toNat
          { getPeer d m.dst.toNat with detour := j ≠ directLink d.boot.inst.toNat m.dst.toNat }
      else d
    enqueue d1 j ⟨m, 0, false⟩
  | none => d

/-- The request that entered a link's queue last goes back to its sender. -/
def unsend (d : Dev) : Option (Msg × Dev) :=
  [0, 1].findSome? fun j =>
    let l := getLink d j
    (takeFirst (fun q => !q.relayed && q.msg.body.cls = 0) l.queue.reverse).map fun r =>
      (r.1.msg, setLink d j { l with queue := r.2.reverse })

/-- Entries in use of the one queue of 64 for requests and responses (R63). -/
def queueUsed (d : Dev) : Nat := (((ownQueued d).filter fun x => !x.isManagement).map MsgBody.entries).sum

/-- Requests give their room up to a response, which never waits for them, last in first out, until the queue of 64 entries holds
what stands in it (R63, R461; log entry 8). -/
def yieldRoom : Nat → Dev × List Msg → Dev × List Msg
  | 0, a => a
  | n + 1, a =>
    if queueUsed a.1 ≤ 64 then a
    else match unsend a.1 with
      | some (m, d) => yieldRoom n (d, m :: a.2)
      | none => a

/-- One held message enters its queue, unless an older one of its class still waits or the queue is full. -/
def pumpOne (a : Dev × List Msg) (m : Msg) : Dev × List Msg :=
  if a.2.any (fun x => x.body.cls = m.body.cls) || !hasRoom a.1 m.body then (a.1, a.2 ++ [m])
  else if m.body.cls = 1 then yieldRoom (ownQueued a.1).length (putMsg a.1 m, a.2)
  else (putMsg a.1 m, a.2)

/-- The messages held back go on as far as the queues have room (R62: nothing is dropped). -/
def sendHeld (d : Dev) : Dev :=
  let r := d.link.held.foldl pumpOne (d, [])
  { r.1 with link := { r.1.link with held := r.2 } }

/-- A message is sent; it waits at its sender while its queue is full (R62). -/
def send (d : Dev) (dst : Nat) (b : MsgBody) : Dev :=
  sendHeld { d with link := { d.link with held := d.link.held ++ [⟨d.boot.inst, BitVec.ofNat 2 dst, b⟩] } }

/-- A message arrives: its payload counts per 4 KiB (R428). -/
def linkRx (d : Dev) (b : MsgBody) : Dev :=
  let n := d.link.rxRest + b.payload
  eCount { d with link := { d.link with rxRest := n % 4096 } } 344 1 (n / 4096)

/-- Messages leave a link: their payload counts per 4 KiB (R428). -/
def linkTx (d : Dev) (bs : List MsgBody) : Dev :=
  let n := d.link.txRest + (bs.map MsgBody.payload).sum
  eCount { d with link := { d.link with txRest := n % 4096 } } 344 0 (n / 4096)

/-- The link between DL0 and DL2 lies between instances a and b (R461). -/
def isSeamLink (a b : Nat) : Bool := (a = 0 && b = 2) || (a = 2 && b = 0)

/-- Relay channel of a message that arrives at `me` on link j from `src` (R461). -/
def relayChannel (me j src : Nat) : Nat :=
  let prev := Nat.xor me (j + 1)
  let prev2 := Nat.xor prev (2 - j)
  if isSeamLink prev me || (prev ≠ src && isSeamLink prev2 prev) then 1 else 0

/-- An intermediate adapter relays a message whole on its other link (R460). -/
def relay (d : Dev) (j : Nat) (m : Msg) : Dev :=
  if m.dst = d.boot.inst || d.pins.rstAsserted || !linkUp d j || !linkUp d (1 - j) then d
  else enqueue (linkRx d m.body) (1 - j) ⟨m, relayChannel d.boot.inst.toNat j m.src.toNat, true⟩

/-! ## Answers -/

/-- No transaction of the port is outstanding (R138). -/
def isQuiet (d : Dev) (n : Nat) : Bool :=
  !d.txns.any fun e => match e.2.src with | .port p _ => p = n | _ => false

def quietBits (d : Dev) : Nat := ((List.range 16).map fun n => if isQuiet d n then 2 ^ n else 0).sum

/-- Sector q of a finished read: its line's data, 0 where the line is poisoned; and whether it is (R123). -/
def readSector (x : Txn) (q : Nat) : Sector × Bool :=
  let ln := (x.addr.toNat + q) / 2 - x.addr.toNat / 2
  match mget x.lines ln with
  | some (v, bad) =>
    (if bad then 0 else if (x.addr.toNat + q) % 2 = 0 then v.setWidth 256 else (v >>> (256 : Nat)).setWidth 256, bad)
  | none => (0, false)

/-- An answer carries data (R111). -/
def hasData (x : Txn) (c : Rsp) : Bool :=
  match c, x.kind with
  | .okay, .read | .poison, .read | .okay, .tubDrain | .poison, .tubDrain | .okay, .atomic | .poison, .atomic => true
  | _, _ => false

/-- Response data and poison bits of an answer (R111, R123). -/
def answerData (x : Txn) (c : Rsp) : List BeatData × List (BitVec 8) :=
  match c, x.kind with
  | .okay, .read | .poison, .read | .okay, .tubDrain | .poison, .tubDrain =>
    (packBeats x.sectors (fun q => (readSector x q).1), poisonBits x.sectors (fun q => (readSector x q).2))
  | .okay, .atomic => ([((mgetD (0, false) x.lines 0).1).setWidth 4096], [0])
  | _, _ => ([0], [0])

/-- A port's or a forwarder's transaction is answered. A masked or silent one completes without a response (R143). -/
def answerOut (d : Dev) (id : Nat) (c : Rsp) : Dev :=
  match getTxn d id with
  | none => d
  | some x =>
    let c := if c = .okay && x.poisoned then .poison else c
    match x.src with
    | .port n tag =>
      let p := getPort d n
      if x.silent || d.pins.mask.getLsbD n then
        pushDue (dropTxn (setPort d n { p with reserved := p.reserved - x.reserved }) id) x.master x.at_ false
      else
        let a := answerData x c
        let d1 := setPort d n { p with done := p.done ++ [(id, x.reserved, ⟨tag, c, a.1, a.2⟩)] }
        pushDue (setTxn d1 id { x with left := 0, unsent := [] }) x.master x.at_ true
    | .remote i tag =>
      let a := answerData x c
      let body : MsgBody := if hasData x c then .rsp tag c (a.2.map BitVec.toNat) a.1 else .rsp tag c [] []
      pushDue (dropTxn (send d i.toNat body) id) x.master x.at_ true
    | .m16 _ _ => pushDue (dropTxn d id) x.master x.at_ true
    | .unit => dropTxn d id

def getInc (d : Dev) (g : Nat) : Option Incarnation := mget d.mangle.incs g
def setInc (d : Dev) (g : Nat) (x : Incarnation) : Dev :=
  { d with mangle := { d.mangle with incs := minsert d.mangle.incs g x } }

/-- A tub fails by a check failure or an M16 POISON (R241, R244). Its lines are never read again, so its staged requests lack no
chunk any more (R225). -/
def failGen (d : Dev) (g : Nat) : Dev :=
  let free (s : Staged) : Staged := if s.gen = g then { s with needs := [] } else s
  let d0 := { d with mangle := { d.mangle with queue := d.mangle.queue.map free } }
  let d1 := match getInc d0 g with
    | some x => setInc d0 g { x with failed := true }
    | none => d0
  match d1.mangle.tubs.find? (fun e => e.2.gen = g && (e.2.state = .open_ || e.2.state = .spilled)) with
  | some (i, t) => raise (setTub d1 i { t with state := .failed }) Ev.TUB_FAILED
  | none => d1

/-- An M16 transfer ends: a lease chunk is filled, whose 64 beats enter its tile and are written there (R428), or freed, or a ZERO of
a new spilled tub is back; its `chunk` then names the TUB_OPEN (R233, R240, R241). -/
def m16Answer (d : Dev) (x : Txn) (g chunk : Nat) : Dev :=
  let upd (f : Lease → Option Lease) : Dev :=
    let one (l : Lease) : Option Lease := if l.gen = g ∧ l.chunk = chunk then f l else some l
    { d with mangle := { d.mangle with leases := d.mangle.leases.map fun e => (e.1, e.2.filterMap one) } }
  match x.kind with
  | .read =>
    let t := match getInc d g with | some i => i.home | none => 0
    let d1 := eCount (eCount (upd fun l => some { l with phase := 1 }) t 8 64) t 6 64
    let ready (s : Staged) : Staged := if s.gen = g then { s with needs := s.needs.erase chunk } else s
    let d2 := { d1 with mangle := { d1.mangle with queue := d1.mangle.queue.map ready } }
    if x.poisoned then failGen d2 g else d2
  | .writebolt =>
    let d1 := upd fun _ => none
    if x.poisoned then failGen d1 g else d1
  | _ =>
    let dec (e : Nat × Nat) : Nat × Nat := if e.1 = chunk then (e.1, e.2 - 1) else e
    let d1 := { d with mangle := { d.mangle with opening := (d.mangle.opening.map dec).filter fun e => e.2 ≠ 0 } }
    if d.mangle.opening.any (fun e => e.1 = chunk && e.2 = 1) then answerOut d1 chunk .okay else d1

/-- A transaction is answered. -/
def respond (d : Dev) (id : Nat) (c : Rsp) : Dev :=
  match getTxn d id with
  | some x =>
    match x.src with
    | .m16 gen chunk => m16Answer (answerOut d id c) x gen chunk
    | _ => answerOut d id c
  | none => d

/-- One part of a transaction has finished: its line, when the request returns one. -/
def partDone (d : Dev) (id idx : Nat) (line : Option LineData) (poison : Bool) : Dev :=
  match getTxn d id with
  | none => d
  | some x =>
    let ls := match line with | some v => minsert x.lines idx (v, poison) | none => x.lines
    let x' := { x with left := x.left - 1, lines := ls, poisoned := x.poisoned || poison }
    let d1 := setTxn d id x'
    if x'.left = 0 then respond d1 id .okay else d1

end Sys2Proof.Machine
end

