-- ==== Sys2Proof/Machine/Press.lean ====
section
/-!
DEFINITION. A Press slice: lookup, allocation, hits, misses, hints, atomics, clean and flush, whole-bolt operations and
the maintenance sweep (R149 to R185, R346 to R350, R258).
-/
namespace Sys2Proof.Machine

/-! ## Ways (R151 to R157) -/

def tubWays (d : Dev) : Nat := rbits d 0x6000 3 0
/-- Cacheable ways of a slice (R151). -/
def cacheable (d : Dev) (t : Nat) : List Nat := List.range (if t < 256 then 16 - tubWays d else if 316 ≤ t then 15 else 16)
def classOf (d : Dev) (m : Nat) : Nat :=
  if m < 16 then rbits d 0x6004 (2 * m + 1) (2 * m) else rbits d 0x6008 (2 * (m - 16) + 1) (2 * (m - 16))
/-- Ways of a slice in which master m may allocate (R155). -/
def classWays (d : Dev) (t m : Nat) : List Nat :=
  (cacheable d t).filter fun w => (rget d (0x6010 + 4 * classOf d m)).getLsbD w

def isBoltOp (p : Part) : Bool := match p.op with | .zeroBolt | .writeBolt _ _ _ => true | _ => false
/-- Lines that a part works on. -/
def partLocs (p : Part) : List Loc := if isBoltOp p then [p.loc, { p.loc with col := p.loc.col + 1 }] else [p.loc]
def overlaps (a b : Part) : Bool := (partLocs a).any fun l => (partLocs b).contains l

/-- The way that holds a line (R156). -/
def findWay (s : Slice) (l : Loc) : Option Nat :=
  let st := getSet s (setIndex l)
  (List.range 16).find? fun w => let x := getWay st w; x.valid && x.bank = l.bank && x.row = l.row

/-- A line has a fill pending, or its move to the Hamper (R161). -/
def lineMoving (s : Slice) (l : Loc) : Bool := s.miss.any (fun m => m.loc = l) || s.outbox.any (fun o => o.loc = l)
/-- A line has an operation in progress, a bolt operation included (R161, R350). -/
def lineBusy (s : Slice) (l : Loc) (bolt : Nat) : Bool := lineMoving s l || s.zeroing.contains bolt

def wayOf (d : Dev) (l : Loc) (w : Nat) : Way := getWay (getSet (slice d l.tile) (setIndex l)) w
def putWay (d : Dev) (l : Loc) (w : Nat) (x : Way) : Dev :=
  onSlice d l.tile fun s => let i := setIndex l; setSet s i (setWay (getSet s i) w x)
/-- Make a way the most recent of its set (R149, R165). -/
def touch (d : Dev) (l : Loc) (w : Nat) : Dev :=
  onSlice d l.tile fun s =>
    let i := setIndex l
    let st := getSet s i
    setSet s i { st with order := w :: st.order.erase w }
/-- The CRC-32C of an entry's data (R149, R184). DESIGN CHOICE (log entry 45): it covers the 64 data bytes alone; neither rule
says whether a location word goes with them, as R335 has it for a stored line. -/
def entryCrc (data : LineData) : BitVec 32 := BitVec.ofNat 32 (crcBits 512 data.toNat)
/-- The entry with new data and their code: it is filled or merged (R184). -/
def Way.withData (x : Way) (data : LineData) : Way := { x with data := data, crc := entryCrc data }
/-- The check of an entry that is read (R184): a clean line that fails it is invalid, a dirty one is poisoned (R185). DESIGN CHOICE
(log entry 45): a poisoned entry is given a new CRC, so that its failure is raised and counted once; no rule says whether it fails
again on its next read. -/
def checkWay (d : Dev) (l : Loc) (w : Nat) : Dev :=
  let x := wayOf d l w
  if x.valid && x.crc != entryCrc x.data then
    putWay (pressError d 0 x.dirty l.tile (setIndex l) w) l w
      (if x.dirty then { x.withData x.data with poison := true } else Reset.way)
  else d
/-- The check of a line's entry, where the line is resident. -/
def checkEntry (d : Dev) (l : Loc) : Dev :=
  match findWay (slice d l.tile) l with
  | some w => checkWay d l w
  | none => d
def invalidate (d : Dev) (l : Loc) : Dev :=
  match findWay (slice d l.tile) l with
  | some w => putWay d l w Reset.way
  | none => d

/-- A line that is written has its value back: R168 no longer holds for it. -/
def rewritten (d : Dev) (l : Loc) : Dev := { d with lastUse := merase d.lastUse (lineKey l.tile l.bank l.row l.col) }

/-- A line takes a way as the most recent; one Press array write (R428). -/
def place (d : Dev) (l : Loc) (bolt w : Nat) (data : LineData) (dirty keep poison : Bool) : Dev :=
  let d1 := touch (putWay d l w ⟨true, dirty, keep, poison, l.bank, l.row, bolt, data, entryCrc data⟩) l w
  eCount (if dirty then rewritten d1 l else d1) l.tile 6 1

/-! ## Victims (R163, R164) -/

/-- The outcome of looking for a way. -/
inductive Alloc where
  | way (w : Nat) (d : Dev)
  /-- A dirty victim waits for the Hamper. -/
  | victim (d : Dev)
  | none

def wayLoc (t i : Nat) (x : Way) : Loc := ⟨t, x.bank, x.row, i / 32⟩

/-- The victim's line leaves its way; while it waits for the Hamper the way stays chosen for the new line. -/
def evict (d : Dev) (l : Loc) (w : Nat) : Alloc :=
  let d := if (wayOf d l w).dirty then checkWay d l w else d
  let x := wayOf d l w
  let vl := wayLoc l.tile (setIndex l) x
  let out : Alloc := .victim (onSlice d l.tile fun s =>
    { s with outbox := s.outbox ++ [⟨vl, x.bolt, x.data, x.poison, true, none⟩], claims := s.claims ++ [⟨l, w⟩] })
  if !x.dirty then .way w (putWay d l w Reset.way)
  else if !mayCreate d l.tile then out
  else match writeBack d vl x.bolt x.data x.poison with
    | some d1 => .way w (putWay d1 l w Reset.way)
    | none => out

/-- A way of a set is chosen for a line whose victim waits. -/
def claimed (s : Slice) (i w : Nat) : Bool := s.claims.any fun c => setIndex c.loc = i && c.way = w

/-- Choose a way for a line among `ways` (R163); a PREFETCH never takes a KEEP way (R169). The lowest invalid way is
taken (log entry 14). -/
def chooseWay (d : Dev) (l : Loc) (ways : List Nat) (prefetch : Bool) : Alloc :=
  let s := slice d l.tile
  let i := setIndex l
  let st := getSet s i
  match ways.find? (fun w => !(getWay st w).valid && !claimed s i w) with
  | some w => .way w d
  | none =>
    let ok (w : Nat) : Bool :=
      ways.contains w && (getWay st w).valid && !claimed s i w &&
        !lineBusy s (wayLoc l.tile i (getWay st w)) (getWay st w).bolt
    let lru := st.order.reverse.filter ok
    match lru.find? (fun w => !(getWay st w).keep) with
    | some w => evict d l w
    | none =>
      match prefetch, lru with
      | false, w :: _ => evict (raise d Ev.KEEP_EVICT none (some (getWay st w).bolt)) l w
      | _, _ => .none

/-- The allocation of a line: a way chosen before is taken once its victim has entered the Hamper (R164). -/
def allocate (d : Dev) (l : Loc) (ways : List Nat) (prefetch : Bool) : Alloc :=
  match takeFirst (fun c : Claim => c.loc = l) (slice d l.tile).claims with
  | some (c, rest) =>
    if (wayOf d l c.way).valid then .victim d
    else .way c.way (onSlice d l.tile fun s => { s with claims := rest })
  | none => chooseWay d l ways prefetch

/-- The ways chosen for a line are given up. -/
def unclaim (d : Dev) (l : Loc) : Dev := onSlice d l.tile fun s => { s with claims := s.claims.filter fun c => c.loc ≠ l }

/-! ## Performing one part -/

/-- How an attempt to perform a part ends: performed (or on its way), no grant until a resource frees, or the part alone
waits for a candidate way. -/
inductive Perf where
  | done (d : Dev)
  | stall (d : Dev)
  | wait (d : Dev)

def Perf.map (f : Dev → Dev) : Perf → Perf
  | .done d => .done (f d)
  | x => x

/-- The hint in force: a class without a way in the slice acts as STREAM (R157). -/
def effHint (d : Dev) (p : Part) (h : Hint) : Hint :=
  if (classWays d p.loc.tile p.master).isEmpty then .stream else h

def allOnes : BitVec 64 := BitVec.allOnes 64

/-- A line enters the Hamper for part p: at once, or from the outbox when there is room and the slice may create an
entry (R253, R332). -/
def lineOut (d : Dev) (p : Part) (data : LineData) (poison : Bool) (after : Dev → Dev) : Perf :=
  match (if mayCreate d p.loc.tile then writeBack d p.loc p.bolt data poison else none) with
  | some d1 => .done (after d1)
  | none => .done (onSlice d p.loc.tile fun s =>
      { s with outbox := s.outbox ++ [⟨p.loc, p.bolt, data, poison, false, some p⟩] })

/-- Find a way and put the line there. -/
def allocPlace (d : Dev) (p : Part) (ways : List Nat) (data : LineData) (dirty keep : Bool) (after : Dev → Dev) : Perf :=
  match allocate d p.loc ways false with
  | .way w d1 => .done (after (place d1 p.loc p.bolt w data dirty keep false))
  | .victim d1 => .stall d1
  | .none => .wait d

/-- Old value, new value and whether the word is written (R174). -/
def atomicWord (aop n : Nat) (old opnd cmp : Nat) : Nat × Bool :=
  match aop with
  | 0 => ((old + opnd) % 2 ^ n, true)
  | 1 => if signed n old < signed n opnd then (opnd, true) else (old, false)
  | 2 => if signed n opnd < signed n old then (opnd, true) else (old, false)
  | 3 => (opnd, true)
  | _ => if old = cmp then (opnd, true) else (old, false)

/-- The atomic on a line: the old word, the new line, and whether it is written. -/
def atomicLine (aop : Nat) (wide : Bool) (off : Nat) (opnd cmp : BitVec 64) (x : LineData) : BitVec 64 × LineData × Bool :=
  let n := if wide then 64 else 32
  let old := (x.toNat >>> (8 * off)) % 2 ^ n
  let r := atomicWord aop n old (opnd.toNat % 2 ^ n) (cmp.toNat % 2 ^ n)
  let mask : LineData := BitVec.ofNat 512 ((2 ^ n - 1) <<< (8 * off))
  (BitVec.ofNat 64 old, (x &&& ~~~mask) ||| BitVec.ofNat 512 (r.1 <<< (8 * off)), r.2)

/-- A part of a request ends at its slice; a line leaves by the tile's network port (R428). -/
def partOut (d : Dev) (p : Part) (line : Option LineData) (bad : Bool) : Dev :=
  partDone (if line.isSome then eCount d p.loc.tile 9 1 else d) p.txn p.idx line bad

/-- The atomic performs on a resident line (R173 to R176). -/
def doAtomic (d : Dev) (p : Part) (w aop : Nat) (wide : Bool) (off : Nat) (opnd cmp : BitVec 64) : Dev :=
  let x := wayOf d p.loc w
  let r := atomicLine aop wide off opnd cmp x.data
  let d1 := touch d p.loc w
  let d2 := if r.2.2 then eCount (rewritten (putWay d1 p.loc w { x.withData r.2.1 with dirty := true }) p.loc) p.loc.tile 6 1
    else d1
  let old : LineData := r.1.setWidth 512
  partOut (raise d2 Ev.ATOMIC_DONE (some p.master) (some p.bolt)) p (some old) false

/-- A part meets its line in way w (R166, R178, R185). DESIGN CHOICE (log entry 14): a CLEAN leaves the recency order
unchanged; a PREFETCH of a resident line by a class without a way acts as a STREAM hit and is not declined; nor is a PREFETCH
of a resident line of a blank bolt, which is a hit: the spec settles none of them. -/
def hitOp (d : Dev) (p : Part) (w : Nat) : Perf :=
  let l := p.loc
  let x := wayOf d l w
  let fin (d : Dev) (line : Option LineData) (bad : Bool) : Dev := partOut d p line bad
  let using_ (h : Hint) (x : Way) : Dev :=
    match h with
    | .stream | .lastuse => putWay d l w x
    | .keep => touch (putWay d l w { x with keep := true }) l w
    | .none => touch (putWay d l w x) l w
  match p.op with
  | .read h =>
    let h := effHint d p h
    let v := some (if x.poison then 0 else x.data)
    if h = .lastuse then
      let d1 := putWay d l w Reset.way
      let k := lineKey l.tile l.bank l.row l.col
      .done (fin (if x.dirty && !x.poison then { d1 with lastUse := minsert d1.lastUse k x.data } else d1) v x.poison)
    else .done (fin (using_ h x) v x.poison)
  | .write h be data =>
    let full := be = allOnes
    if x.poison && !full then
      let h := effHint d p h
      .done (fin (if h = .none || h = .keep then touch d l w else d) none true)
    else .done (fin (eCount (rewritten
      (using_ (effHint d p h) { x.withData (mergeLine x.data data be) with dirty := true, poison := false }) l) l.tile 6 1)
      none false)
  | .prefetch h => .done (fin (using_ (effHint d p h) x) none false)
  | .clean =>
    if x.dirty then lineOut d p x.data x.poison fun d => fin (putWay d l w { x with dirty := false }) none false
    else .done (fin d none false)
  | .flush =>
    if x.dirty then lineOut d p x.data x.poison fun d => fin (putWay d l w Reset.way) none false
    else .done (fin (putWay d l w Reset.way) none false)
  | .atomic aop wide off opnd cmp =>
    if x.poison then .done (fin (touch d l w) (some 0) true) else .done (doAtomic d p w aop wide off opnd cmp)
  | .zeroBolt | .writeBolt _ _ _ | .unit _ => .done d

def decline (d : Dev) (p : Part) : Dev :=
  partDone (raise d Ev.PRESS_DECLINE (some p.master) (some p.bolt)) p.txn p.idx none false

/-- A part whose line has data at hand: from its fill, or the zeros of a blank bolt (R166, R167, R169, R177). The Bool
says that the line left for the Hamper, so that what the fill brought is old. DESIGN CHOICE (log entry 14): the victim of
a line that is filled is chosen when its fill has arrived, so that a PREFETCH with no candidate reads the channel before it
declines: the spec does not say when. -/
def fillOp (d : Dev) (p : Part) (data : LineData) (poison : Bool) (blank : Bool) : Perf × Bool :=
  let ways := classWays d p.loc.tile p.master
  let fin (line : Option LineData) (bad : Bool) (d : Dev) : Dev := partOut d p line bad
  match p.op with
  | .read h =>
    let h := effHint d p h
    if poison then (.done (fin (some 0) true d), false)
    else if blank || h = .stream || h = .lastuse then (.done (fin (some data) false d), false)
    else (allocPlace d p ways data false (h = .keep) (fin (some data) false), false)
  | .write h be v =>
    let h := effHint d p h
    let full := be = allOnes
    if poison && !full then (.done (fin none true d), false)
    else
      let x := mergeLine data v be
      if h = .stream then (lineOut (rewritten d p.loc) p x false (fin none false), true)
      else (allocPlace d p ways x true (h = .keep) (fin none false), false)
  | .prefetch h =>
    if poison || blank || ways.isEmpty then (.done (decline d p), false)
    else match allocate d p.loc ways true with
      | .way w d1 => (.done (fin none false (place d1 p.loc p.bolt w data false (h = .keep) false)), false)
      | .victim d1 => (.stall d1, false)
      | .none => (.done (decline d p), false)
  | .clean | .flush => (.done (fin none false d), false)
  | .atomic aop wide off opnd cmp =>
    if poison then (.done (fin (some 0) true d), false)
    else
      let aw := if ways.isEmpty then cacheable d p.loc.tile else ways
      match allocate d p.loc aw false with
      | .way w d1 => (.done (doAtomic (place d1 p.loc p.bolt w data false false false) p w aop wide off opnd cmp), false)
      | .victim d1 => (.stall d1, false)
      | .none => (.wait d, false)
  | .zeroBolt | .writeBolt _ _ _ | .unit _ => (.done d, false)

/-- The waiters of a miss entry whose data are at hand, in order: what is left, and whether the rest look the line up
again because the line is on its way to the Hamper, or in it, or has left its way with another value than the fill's (R131,
R134, R161). Those that are left when a way is wanting stay. -/
def fillWaiters (l : Loc) (data : LineData) (poison blank : Bool) : Dev → List Part → Dev × List Part × Bool
  | d, [] => (d, [], false)
  | d, p :: rest =>
    if (slice d l.tile).outbox.any (fun o => o.loc = l) then (d, p :: rest, true)
    else
      let d := checkEntry d l
      match findWay (slice d l.tile) l with
      | some w =>
        let was := wayOf d l w
        match hitOp d p w with
        | .done d1 =>
          if (findWay (slice d1 l.tile) l).isNone && (was.data ≠ data || was.poison ≠ poison) then (d1, rest, true)
          else fillWaiters l data poison blank d1 rest
        | .stall d1 | .wait d1 => (d1, p :: rest, false)
      | none =>
        match fillOp d p data poison blank with
        | (.done d1, true) => (d1, rest, true)
        | (.done d1, false) => fillWaiters l data poison blank d1 rest
        | (.stall d1, _) | (.wait d1, _) => (d1, p :: rest, false)

/-- What a miss entry has at hand: data, poison, and whether it is the zero fill of a blank line. -/
def Miss.atHand (m : Miss) : Option (LineData × Bool × Bool) :=
  match m.state with
  | .waiting => none
  | .arrived v b => some (v, b, false)
  | .zero => some (0, false, true)
  | .whole => some (0, false, false)

/-- A miss entry goes on; the Bool says that it has completed. Its last waiters may have to look the line up again. -/
def fillMiss (d : Dev) (t : Nat) (m : Miss) : Dev × Bool :=
  match m.atHand with
  | none => (d, false)
  | some (v, bad, blank) =>
    let (d1, left, again) := fillWaiters m.loc v bad blank d m.waiters
    if again || left.isEmpty then
      (onSlice (unclaim d1 m.loc) t fun s =>
        { s with miss := s.miss.filter (fun x => x.loc ≠ m.loc), held := left ++ s.held }, true)
    else
      (onSlice d1 t fun s =>
        { s with miss := updWhere (fun x => x.loc = m.loc) (fun x => { x with waiters := left }) s.miss }, false)

/-- Every miss takes a miss entry; the slice stalls while all 32 are in use (R162). A channel read is created with the
entry, and waits for the cap and the holds on new entries; what has its data at hand goes on at once. -/
def newMiss (d : Dev) (p : Part) (state : MissState) : Perf :=
  let t := p.loc.tile
  if 32 ≤ (slice d t).miss.length || (state = .waiting && !mayCreate d t) then .stall d
  else
    let m : Miss := ⟨p.loc, p.bolt, state, p.prio, [p]⟩
    let d1 := raise (onSlice d t fun s => { s with miss := s.miss ++ [m] }) Ev.PRESS_MISS (some p.master) (some p.bolt)
    if state = .waiting then .done (readLine d1 .fill p.loc (.miss p.loc) p.prio) else .done (fillMiss d1 t m).1

/-- A part whose line is not resident (R162, R166, R167). The slice looks up the bolt's bit (R348). -/
def missOp (d : Dev) (p : Part) : Perf :=
  let d := match p.op with | .clean | .flush => d | _ => blankLook d p.bolt
  let blank := !isValid d p.bolt
  match p.op with
  | .read _ | .atomic _ _ _ _ _ => newMiss d p (if blank then .zero else .waiting)
  | .write h be _ =>
    let stream := effHint d p h = .stream
    newMiss d p (if be = allOnes && (stream || !blank) then .whole else if blank then .zero else .waiting)
  | .prefetch _ =>
    if blank || (classWays d p.loc.tile p.master).isEmpty then .done (decline d p) else newMiss d p .waiting
  | .clean | .flush => .done (partDone d p.txn p.idx none false)
  | .zeroBolt | .writeBolt _ _ _ | .unit _ => .done d

/-! ## Whole bolts (R170, R182, R258, R350) -/

/-- A Hamper entry of a bolt whose write command has not been issued leaves, with its reservation (R258). -/
def cancelBolt (bolt : Nat) (d : Dev) (t : Nat) : Dev :=
  let mine := (chan d t).ham.filter (fun e => e.bolt = bolt) |>.map HEntry.id
  let d1 := onChan d t fun c =>
    { c with ham := c.ham.filter (fun e => e.bolt ≠ bolt), round := c.round.filter fun i => !mine.contains i }
  (panelTiles d1 (panelOf d1 t)).foldl (fun d x => onChan d x fun c =>
    { c with resv := c.resv.filter fun r => !(r.tile = t && mine.contains r.hid) }) d1

def releaseBolt (d : Dev) (t bolt : Nat) : Dev := onSlice d t fun s => { s with zeroing := s.zeroing.erase bolt }

/-- The two lines of a member's ply of a bolt. -/
def plyLocs (d : Dev) (st : Stripe) (member : Nat) : List Loc :=
  [stripeDataLoc d { st with half := 0 } member, stripeDataLoc d { st with half := 1 } member]

/-- One member applies a ZERO: its lines are invalid, its Hamper entries cancelled, its lines released. -/
def zeroMember (o : BoltOp) (d : Dev) (m : Nat) : Dev :=
  let t := tileAt d o.stripe.panel m
  let d1 := (plyLocs d o.stripe m).foldl (fun d l => rewritten (invalidate d l) l) d
  releaseBolt (cancelBolt o.bolt d1 t) t o.bolt

/-- R170 at a resident line of a member's slice, once the Hampers have taken the bolt: whatever it holds is replaced. -/
def boltLineHit (p : Part) (h : Hint) (d : Dev) (l : Loc) (data : LineData) : Dev :=
  let d0 := rewritten d l
  match findWay (slice d0 l.tile) l with
  | some w =>
    if h = .stream then putWay d0 l w Reset.way
    else place d0 l p.bolt w data false ((wayOf d0 l w).keep || h = .keep) false
  | none => d0

/-- R170 at a line of a member's slice that is not resident. -/
def boltLineIn (p : Part) (h : Hint) (d : Dev) (l : Loc) (data : LineData) : Perf :=
  match findWay (slice d l.tile) l with
  | some _ => .done d
  | none =>
    if h = .stream then .done d
    else match allocate d l (classWays d l.tile p.master) false with
      | .way w d1 => .done (place d1 l p.bolt w data false (h = .keep) false)
      | .victim d1 => .stall d1
      | .none => .wait d

def lineOne (l : Loc) : Loc := { l with col := l.col + 1 }

/-- A member's slice allocates the absent lines of R170; then the member's part is done and its lines are released. -/
def boltApply (d : Dev) (p : Part) (h : Hint) (l0 l1 : LineData) : Perf :=
  let h := effHint d p h
  match boltLineIn p h d p.loc l0 with
  | .done d1 =>
    match boltLineIn p h d1 (lineOne p.loc) l1 with
    | .done d2 => .done (partDone (releaseBolt d2 p.loc.tile p.bolt) p.txn p.idx none false)
    | x => x
  | x => x

/-- Put a part that could not be performed where it waits. -/
def park (t : Nat) (p : Part) : Perf → Dev
  | .done d => d
  | .stall d => onSlice d t fun s =>
    if s.stalled.isNone then { s with stalled := some p } else { s with held := p :: s.held }
  | .wait d => onSlice d t fun s => { s with held := p :: s.held }

def writeMember (o : BoltOp) (d : Dev) (m : Nat) : Dev :=
  let t := tileAt d o.stripe.panel m
  let l := stripeDataLoc d { o.stripe with half := 0 } m
  let a := mgetD 0 o.lines (2 * m)
  let b := mgetD 0 o.lines (2 * m + 1)
  let p : Part := ⟨o.txn, m, o.master, 0, .writeBolt o.hint a b, l, o.bolt⟩
  let h := effHint d p o.hint
  park t p (boltApply (boltLineHit p h (boltLineHit p h d l a) (lineOne l) b) p o.hint a b)

def removeBoltOp (d : Dev) (o : BoltOp) : Dev :=
  let p := getPanel d o.stripe.panel
  setPanel d o.stripe.panel { p with boltOps := p.boltOps.filter fun x => !(x.txn = o.txn && x.bolt = o.bolt) }

/-- A slice still applies an earlier WRITEBOLT of the bolt. -/
def applying (d : Dev) (o : BoltOp) (t : Nat) : Bool :=
  let s := slice d t
  (s.held ++ s.stalled.toList).any fun p =>
    p.bolt = o.bolt && isBoltOp p && p.txn ≠ o.txn &&
      !((getPanel d o.stripe.panel).boltOps.any fun x => x.txn = p.txn && x.bolt = p.bolt)

def sameOp (o x : BoltOp) : Bool := x.txn = o.txn && x.bolt = o.bolt

/-- An operation of the bolt that all members granted earlier still waits: this one waits behind it (R131). -/
def overtaken (d : Dev) (o : BoltOp) : Bool :=
  ((getPanel d o.stripe.panel).boltOps.takeWhile fun x => !sameOp o x).any fun x => x.bolt = o.bolt && decide (16 ≤ x.granted.length)

/-- Operations that all members have granted stand in the order in which that happened. -/
def completeLast (l : List BoltOp) (o : BoltOp) : List BoltOp :=
  if o.granted.length < 16 then l else l.filter (fun x => !sameOp o x) ++ [o]

/-- A bolt operation that every member has granted takes effect: a ZERO at once, a WRITEBOLT when every Hamper has room. -/
def finishBolt (d : Dev) (o : BoltOp) : Dev :=
  if o.granted.length < 16 || overtaken d o || (panelTiles d o.stripe.panel).any (applying d o) then d
  else if o.zero then
    let d1 := setBlank (blankLook (removeBoltOp d o) o.bolt) o.bolt
    let d2 := (List.range 16).foldl (zeroMember o) d1
    (List.range 16).foldl (fun d m => partDone d o.txn m none false) (blankJobs d2 o.stripe)
  else if boltRoom d o.stripe && (panelTiles d o.stripe.panel).all (mayCreate d) then
    let d1 := writeWholeBolt (removeBoltOp d o) o.stripe fun h m => (mgetD 0 o.lines (2 * m + h), false)
    (List.range 16).foldl (writeMember o) d1
  else d

/-- A member's grant of a bolt operation reaches the panel logic. -/
def boltGrant (d : Dev) (p : Part) : Dev :=
  let pn := panelOf d p.loc.tile
  let m := memberOf d p.loc.tile
  let take (o : BoltOp) : BoltOp :=
    let ls := match p.op with
      | .writeBolt _ a b => minsert (minsert o.lines (2 * m) a) (2 * m + 1) b
      | _ => o.lines
    { o with granted := o.granted ++ [m], lines := ls }
  let d1 := onSlice d p.loc.tile fun s => { s with zeroing := p.bolt :: s.zeroing }
  let x := getPanel d1 pn
  let d2 := setPanel d1 pn { x with boltOps := updWhere (fun o => o.txn = p.txn && o.bolt = p.bolt) take x.boltOps }
  match (getPanel d2 pn).boltOps.find? (fun o => o.txn = p.txn && o.bolt = p.bolt) with
  | some o =>
    let x := getPanel d2 pn
    finishBolt (setPanel d2 pn { x with boltOps := completeLast x.boltOps o }) o
  | none => d2

/-- The panel logic has gathered, or still gathers, this part's bolt operation. -/
def gathering (d : Dev) (p : Part) : Bool :=
  (getPanel d (panelOf d p.loc.tile)).boltOps.any fun o => o.txn = p.txn && o.bolt = p.bolt

/-! ## The slice's order (R160 to R162) -/

/-- The reads of a line's fill, a rebuild's included, rise to the priority of a request that joins; M17's read of a line of the
lift copy keeps its own (R262, R291, R382). -/
def raiseFill (d : Dev) (l : Loc) (prio : Nat) : Dev :=
  let rebuilds (x : Job) : Bool := match x.kind with | .rebuild _ o _ _ => o = .miss l | _ => false
  let mine := (d.jobs.filter fun e => rebuilds e.2).map Prod.fst
  let isMine (e : REntry) : Bool :=
    match e.owner with
    | .miss k => k = l && e.kind = .fill
    | .job j _ => mine.contains j
    | _ => false
  let ofJob (o : Owner) : Bool := match o with | .job j _ => mine.contains j | _ => false
  let up (e : REntry) : REntry := { e with prio := max e.prio prio }
  let upPart (p : Part) : Part :=
    match p.op with
    | .unit (.read o _) => if ofJob o then { p with prio := max p.prio prio } else p
    | _ => p
  let upTxn (x : Txn) : Txn := if x.src = .unit && x.unsent.any (fun p => upPart p ≠ p) then
    { x with prio := max x.prio prio, unsent := x.unsent.map upPart } else x
  let d := { d with txns := d.txns.map fun e => (e.1, upTxn e.2) }
  let d1 := mine.foldl (fun d j =>
    match getJob d j with | some x => setJob d j { x with prio := max x.prio prio } | none => d) d
  let ts := if mine.isEmpty then [l.tile] else l.tile :: d1.tiles.map Prod.fst
  let d2 := (d1.tiles.map Prod.fst).foldl (fun d t => onSlice d t fun s =>
    { s with arb := s.arb.map fun e => (e.1, e.2.map upPart), stalled := s.stalled.map upPart, held := s.held.map upPart }) d1
  ts.foldl (fun d t => onChan d t fun c => { c with rq := updWhere isMine up c.rq }) d2

/-! ## Accesses of internal masters (R58, R250 to R253, R332, R369, R371) -/

def jobKindOf (d : Dev) (o : Owner) : Option JobKind :=
  match o with | .job j _ => (getJob d j).map Job.kind | _ => none

/-- Somebody still waits for the line. -/
def isWanted (d : Dev) : Owner → Bool
  | .job j _ => (getJob d j).isSome
  | _ => true

/-- A read of a line that stands for another one: a line of a lift copy (R382). -/
def isLiftRead (d : Dev) (o : Owner) (l : Loc) : Bool :=
  match o with
  | .miss x => x ≠ l
  | .job j s => match getJob d j with | some x => (jobLoc d x s).1 ≠ l | none => false
  | _ => false

/-- A lift line whose own channel is out: its panel's Darn serves it, whatever the line (R382, R384). -/
def liftRead (d : Dev) (l : Loc) (o : Owner) (prio : Nat) : Dev :=
  match roleOf d l with
  | .data st =>
    if 2 ≤ (outMembers d st).length then deliver (lineUnreachable d l (stripeBolt d st)) o ⟨0, 0⟩ .stain
    else startRebuild d l o prio false .direct
  | _ => deliver d o ⟨0, 0⟩ .fail

/-- A read that meets an out channel: a lift line, and a line of a move or a copy, is rebuilt or read elsewhere; a rebuild and
Rinse go without it (R365, R371, R382). -/
def outRead (d : Dev) (l : Loc) (o : Owner) (lift : Bool) (prio : Nat) : Dev :=
  match o, lift, jobKindOf d o with
  | _, true, _ => liftRead d l o prio
  | .job _ _, _, some (.patch _ _ _) | .job _ _, _, some (.lift _ _) => readLine d .direct l o prio
  | .job j s, _, _ => jobGot d j s ⟨0, 0⟩ .fail
  | _, _, _ => d

/-- The Hamper holds a line for a place that the job has read: the line is newer than the job's. -/
def superseded (d : Dev) (l : Loc) : Bool :=
  let row := redirect d l
  (chan d l.tile).ham.any fun e => e.kind != .delta && e.bank = l.bank && e.row = row && e.col = l.col

/-- The job has read the place that it writes: a data line, or the parity line of Rinse. -/
def readPlace (d : Dev) (l : Loc) (k : JobKind) : Bool :=
  match roleOf d l, k with
  | .data _, _ => true
  | _, .rinse => true
  | _, _ => false

/-- The FULL or DATA entry of a write of M17 or M21. One of the walk goes to the returning channel itself, or is dropped where
another channel has gone out (R384), and is not made where a line has been written since the walk read it; and so does the parity of a conversion (R373); one of a move goes to the spare row; one
of a lift bolt goes as a line of a whole bolt (R380); one that a newer line has replaced is not made (log entry 20). -/
def putCreate (d : Dev) (k : EKind) (l : Loc) (bolt : Nat) (x : DLine) (verify : Bool) (job : Option Nat) : Dev :=
  match job with
  | none => writeLine d k l bolt x verify
  | some id =>
    match (getJob d id).map Job.kind, roleOf d l with
    | none, _ => d
    | some (.walk _), .data st =>
      if (svc d l.tile).state = .out then lineDropped d l bolt
      else if (getJob d id).any fun j => j.stale.contains (memberOf d l.tile + 32 * st.half) then d
      else addHam d k l bolt x false job
    | some (.walk _), _ => if (svc d l.tile).state = .out then setMend d bolt true else addHam d k l bolt x false job
    | some (.patch t _ _), _ => addHam (passColumn d t) k l bolt x
    | some (.lift _ _), .data st => writeBoltMember st bolt d (memberOf d l.tile, x)
    | some (.convert _ _ _), .parity _ =>
      if (svc d l.tile).state = .returning then addHam d k l bolt x else writeLine d k l bolt x verify
    | some jk, _ => if readPlace d l jk && superseded d l then d else writeLine d k l bolt x verify

/-- Rinse takes an access back that a walk, a hold of the purse or a warm entry has overtaken: it asks again afterwards (R379, R439,
R501). -/
def rinseBack (d : Dev) (o : Owner) : Dev :=
  match o with
  | .job j s => match getJob d j with
    | some x => setJob d j { x with open_ := (x.open_.erase s).erase (s + 32), toRead := x.toRead ++ [s, s + 32] }
    | none => d
  | _ => d

/-- The purse holds Rinse: no new entry of it is created (R439). -/
def rinseHeld (d : Dev) : Bool := (rget d 0xE000).getLsbD 31 && !(rget d 0xE000).getLsbD 30 && d.energy.rinseHold

/-- A walk of the tile's panel keeps Rinse off (R379). -/
def walkRuns (d : Dev) (t : Nat) : Bool := (getPanel d (panelOf d t)).walkTile.isSome

def isLiftJob (d : Dev) (o : Owner) : Bool := match jobKindOf d o with | some (.lift _ _) => true | _ => false

/-- A granted access of an internal master creates its entry. A read's credit returns with its line, a write's once its entry
is created. -/
def unitOp (d : Dev) (p : Part) (u : UnitOp) : Perf :=
  let t := p.loc.tile
  let since := match getTxn d p.txn with | some x => x.at_ | none => d.cycle
  let d0 := dropTxn d p.txn
  let back (d : Dev) : Dev := pushDue d p.master since true
  match u with
  | .read o lift =>
    if !isWanted d o then .done (back d0)
    else if countsOut d t p.bolt then .done (back (outRead d0 p.loc o lift p.prio))
    else if isLiftJob d o && !isValid d p.bolt then .done (back (deliver d0 o ⟨0, 0⟩ .good))
    else if !unitMay d t || 16 ≤ directCount d t then .stall d
    else .done (addRead d0 .direct p.loc o p.prio (some (p.master, since)))
  | .ply o =>
    if !isWanted d o then .done (back d0)
    else if countsOut d t p.bolt then
      (match o with
      | .job j s => .done (back (jobGot (jobGot d0 j s ⟨0, 0⟩ .fail) j (s + 32) ⟨0, 0⟩ .fail))
      | _ => .done (back d0))
    else if p.master = 18 && (walkRuns d t || rinseHeld d || d.boot.step ≠ 9) then .done (back (rinseBack d0 o))
    else if (chan d t).bg.isSome || rateChanging d t then .stall d
    else
      let d1 := addBg d0 p.loc o p.prio (p.master, since)
      .done (if p.master = 18 then raise d1 Ev.RINSE_ENTRY else d1)
  | .put k x verify job =>
    let fits := match job with | some id => walkFits d t id | none => true
    if !unitMay d t || !hamRoom (chan d t) 1 then .stall d
    else if !fits then .wait d
    else
      let d1 := putCreate d0 k p.loc p.bolt x verify job
      .done (back (match job with | some id => putDone d1 id | none => d1))

/-- The channel has room for the entry of an access: DIRECT entries, the background slot, the Hamper (R252, R253, R392). -/
def unitRoom (d : Dev) (t : Nat) : UnitOp → Bool
  | .read _ _ => decide (directCount d t < 16)
  | .ply _ => (chan d t).bg.isNone
  | .put _ _ _ _ => hamRoom (chan d t) 1

/-- A part that no operation in progress holds back is performed. -/
def perform (d : Dev) (p : Part) : Perf :=
  match p.op with
  | .unit u => unitOp d p u
  | .zeroBolt => .done (if gathering d p then boltGrant d p else partDone d p.txn p.idx none false)
  | .writeBolt h a b => if gathering d p then .done (boltGrant d p) else boltApply d p h a b
  | _ =>
    let s := slice d p.loc.tile
    if s.miss.any (fun m => m.loc = p.loc) then
      let join (m : Miss) : Miss := { m with waiters := m.waiters ++ [p], prio := max m.prio p.prio }
      let d1 := onSlice d p.loc.tile fun s => { s with miss := updWhere (fun m => m.loc = p.loc) join s.miss }
      .done (raise (raiseFill d1 p.loc p.prio) Ev.PRESS_MISS (some p.master) (some p.bolt))
    else
      let d := checkEntry d p.loc
      match findWay (slice d p.loc.tile) p.loc with
      | some w => (hitOp d p w).map fun d => raise d Ev.PRESS_HIT (some p.master) (some p.bolt)
      | none => missOp d p

/-- An operation in progress that a part must wait behind; a miss entry is joined, and a bolt operation is gathered beside
another (log entry 18). -/
def mustWait (s : Slice) (p : Part) : Bool :=
  if isBoltOp p then
    (partLocs p).any (lineMoving s)
  else s.outbox.any (fun o => o.loc = p.loc) || s.zeroing.contains p.bolt

/-- Waiting parts in grant order: each that may be performed is. -/
def pumpList (t : Nat) : Dev → List Part → List Part → Dev
  | d, kept, [] => onSlice d t fun s => { s with held := kept ++ s.held }
  | d, kept, p :: rest =>
    if (slice d t).stalled.isSome || kept.any (overlaps p) || mustWait (slice d t) p then pumpList t d (kept ++ [p]) rest
    else match perform d p with
      | .done d1 => pumpList t d1 kept rest
      | .stall d1 => pumpList t (onSlice d1 t fun s => { s with stalled := some p }) kept rest
      | .wait d1 => pumpList t d1 (kept ++ [p]) rest

def pumpHeld (d : Dev) (t : Nat) : Dev :=
  pumpList t (onSlice d t fun s => { s with held := [] }) [] (slice d t).held

/-- A granted request that waits for a resource is tried again. -/
def unstall (d : Dev) (t : Nat) : Dev :=
  match (slice d t).stalled with
  | some p => park t p (perform (onSlice d t fun s => { s with stalled := none }) p)
  | none => d

/-- A WRITEBOLT that all members have granted needs entries of this slice that it may not create (R332, R364). -/
def boltHeld (d : Dev) (t : Nat) : Bool :=
  !mayCreate d t && (getPanel d (panelOf d t)).boltOps.any fun o => !o.zero && decide (16 ≤ o.granted.length)

/-- The slice accepts a grant: no granted request waits for a miss entry or for an entry of the channel, and no victim for
the Hamper (R162, R164, R306, R332, R364). -/
def accepts (d : Dev) (t : Nat) : Bool :=
  let s := slice d t
  s.stalled.isNone && !(s.outbox.any OutLine.victim) && !boltHeld d t &&
    (mayCreate d t || s.outbox.all fun o => o.waiter.isNone)

/-- A part waits under R161 for an operation in progress. -/
def waits161 (s : Slice) (p : Part) : Bool :=
  match p.op with
  | .unit _ => false
  | _ => s.held.any (overlaps p) || mustWait s p

/-- A part that needs a miss entry waits for one (R162). -/
def waitsMiss (d : Dev) (p : Part) : Bool :=
  let s := slice d p.loc.tile
  decide (32 ≤ s.miss.length) && !s.miss.any (fun m => m.loc = p.loc) && (findWay s p.loc).isNone &&
  match p.op with
  | .read _ | .write _ _ _ | .atomic _ _ _ _ _ => true
  | .prefetch _ => isValid d p.bolt && !(classWays d p.loc.tile p.master).isEmpty
  | _ => false

/-- A granted part enters the slice (R161). -/
def enter (d : Dev) (t : Nat) (p : Part) : Dev :=
  let s := slice d t
  if waits161 s p then onSlice d t fun s => { s with held := s.held ++ [p] }
  else match perform d p with
    | .done d1 => d1
    | .stall d1 => onSlice d1 t fun s => { s with stalled := some p }
    | .wait d1 => onSlice d1 t fun s => { s with held := s.held ++ [p] }

/-! ## Maintenance (R179, R180) -/

/-- The sweep treats one line: 1 CLEAN_ALL, 2 FLUSH_ALL, 3 INVALIDATE_ALL. A line with an operation in progress is treated
after it. -/
def sweepLine (op : Nat) (d : Dev) (l : Loc) : Dev :=
  let s := slice d l.tile
  let bolt := match findWay s l with | some w => (wayOf d l w).bolt | none => lineBolt d l
  if lineBusy s l bolt then onSlice d l.tile fun s => { s with deferred := s.deferred ++ [l] }
  else
    let d := checkEntry d l
    match findWay (slice d l.tile) l with
    | none => d
    | some w =>
      let x := wayOf d l w
      let after (d : Dev) : Dev := if op = 1 then putWay d l w { x with dirty := false } else putWay d l w Reset.way
      if op = 3 || !x.dirty then (if op = 1 then d else putWay d l w Reset.way)
      else match (if mayCreate d l.tile then writeBack d l x.bolt x.data x.poison else none) with
        | some d1 => after d1
        | none => onSlice d l.tile fun s => { s with outbox := s.outbox ++ [⟨l, x.bolt, x.data, x.poison, false, none⟩] }

/-- Lines of a set that the sweep meets: the resident ones, and those with a miss entry. -/
def setLocs (d : Dev) (t i : Nat) : List Loc :=
  let s := slice d t
  let res := ((getSet s i).ways.filter fun w => w.2.valid).map fun w => wayLoc t i w.2
  res ++ ((s.miss.map Miss.loc).filter fun l => setIndex l = i && !res.contains l)

/-- A line that the sweep took waits for the Hamper: the sweep waits. -/
def sweepWaits (s : Slice) : Bool := s.outbox.any fun o => !o.victim && o.waiter.isNone

/-- One TCLK of the sweep in a slice that `due` TCLK have been given to: its next set. -/
def sweepTile (op due : Nat) (d : Dev) (t : Nat) : Dev :=
  let s := slice d t
  let late (n : Nat) (d : Dev) : Dev := onSlice d t fun s => { s with behind := n }
  let i := due - s.behind
  if sweepWaits s then (if due < 1024 then late (s.behind + 1) d else d)
  else
    let d1 := if i < 1024 then (setLocs d t i).foldl (sweepLine op) d else d
    if due < 1024 then d1 else late (s.behind - 1) d1

/-- One TCLK of a running maintenance operation: one set in every slice (R180). -/
def sweepTick (d : Dev) : Dev :=
  if d.maint = 0 then d
  else
    let d1 := (d.tiles.map Prod.fst).foldl (sweepTile d.maint d.sweep) d
    { d1 with sweep := min 1024 (d.sweep + 1) }

/-- Lines that the sweep passed while an operation held them. -/
def sweepDeferred (d : Dev) (t : Nat) : Dev :=
  if d.maint = 0 then d
  else
    let ls := (slice d t).deferred
    ls.foldl (sweepLine d.maint) (onSlice d t fun s => { s with deferred := [] })

/-- Start a maintenance operation. -/
def maintStart (d : Dev) (op : Nat) : Dev := { d with maint := op, sweep := 0 }

/-- Every set has been swept and every swept line has been treated. -/
def maintIdle (d : Dev) : Bool :=
  decide (1024 ≤ d.sweep) && d.tiles.all fun e =>
    let s := e.2.slice
    s.deferred.isEmpty && s.behind = 0 && !sweepWaits s

/-! ## Settling -/

/-- Bolt operations of a panel that all members have granted and that waited for room. -/
def pumpBolts (d : Dev) (p : Nat) : Dev := (getPanel d p).boltOps.foldl finishBolt d

/-- Miss entries whose data are at hand, in order, until one completes. -/
def fillFirst (t : Nat) : Dev → List Miss → Dev × Bool
  | d, [] => (d, false)
  | d, m :: rest =>
    match fillMiss d t m with
    | (d1, true) => (d1, true)
    | (d1, false) => fillFirst t d1 rest

/-- Zero fills and whole-line writes that wait for a way go on by themselves (R162). -/
def fillBlank (d : Dev) (t : Nat) : Dev :=
  let mine (m : Miss) : Bool := match m.state with | .zero | .whole => true | _ => false
  ((slice d t).miss.filter mine).foldl (fun d m => (fillMiss d t m).1) d

/-- A slice whose resources or lines have changed takes up what waits. -/
def settle (d : Dev) (t : Nat) : Dev :=
  let d1 := sweepDeferred d t
  let d2 := pumpHeld (unstall (fillBlank d1 t) t) t
  pumpBolts d2 (panelOf d2 t)

def settlePanel (d : Dev) (p : Nat) : Dev := (panelTiles d p).foldl settle (pumpBolts d p)

/-! ## Lines that leave a slice later -/

/-- An outbox line enters its Hamper; then its way and its waiter go on (R164, R178, R180). -/
def moveOut (d : Dev) (t : Nat) (o : OutLine) : Option Dev :=
  if !mayCreate d t then none
  else
    let d0 := onSlice d t fun s => { s with outbox := s.outbox.erase o }
    (writeBack d0 o.loc o.bolt o.data o.poison).map fun d1 =>
      let isWrite := match o.waiter with | some ⟨_, _, _, _, .write _ _ _, _, _⟩ => true | _ => false
      let d2 := match findWay (slice d1 t) o.loc with
        | some w =>
          if isWrite then d1
          else if o.victim || (o.waiter.isNone && d1.maint = 2) then putWay d1 o.loc w Reset.way
          else putWay d1 o.loc w { wayOf d1 o.loc w with dirty := false }
        | none => d1
      let d3 := match o.waiter with
        | some p =>
          let isFlush := match p.op with | .flush => true | _ => false
          partDone (if isFlush then invalidate d2 o.loc else d2) p.txn p.idx none false
        | none => d2
      settlePanel d3 (panelOf d3 t)

/-- VICTIM_TO_HAMPER: the victim that waits, when there is room. -/
def victimToHamper (d : Dev) (t : Nat) : Dev :=
  match (slice d t).outbox.find? OutLine.victim with
  | some o => (moveOut d t o).getD d
  | none => d

/-- DIRTY_WRITEBACK: the first dirty line that waits at the slice enters the Hamper, when there is room. -/
def dirtyWriteback (d : Dev) (t : Nat) : Dev :=
  match (slice d t).outbox with
  | o :: _ => (moveOut d t o).getD d
  | [] => d

/-- PRESS_FILL_RETURN: of the fills that have arrived, the first that can completes (R162, R166, R177). -/
def fillReturn (d : Dev) (t : Nat) : Dev :=
  let come (m : Miss) : Bool := match m.state with | .arrived _ _ => true | _ => false
  settle (fillFirst t d ((slice d t).miss.filter come)).1 t

/-! ## Commands -/

/-- PRESS_FILL_RETURN (R162). -/
def execPressFillReturn (t : Fin 320) (s : State) : Host.Outcome State Fault Refusal := onDev s (fillReturn · t.val)
/-- VICTIM_TO_HAMPER (R164). -/
def execVictimToHamper (t : Fin 320) (s : State) : Host.Outcome State Fault Refusal := onDev s (victimToHamper · t.val)
/-- DIRTY_WRITEBACK (R171). -/
def execDirtyWriteback (t : Fin 320) (s : State) : Host.Outcome State Fault Refusal := onDev s (dirtyWriteback · t.val)

end Sys2Proof.Machine
end

