-- ==== Sys2Proof/Machine/Arbiter.lean ====
section
/-!
DEFINITION. The tile network's inputs and the tile arbiter (R50, R51, R305 to R312), and what a mask takes out of them (R143).
-/
namespace Sys2Proof.Machine

/-- Depth of an arbiter input (R305). -/
def inputDepth : Nat := 4

/-- The next unrouted part of master m for tile t, in the order of its transactions, with the state without it. -/
def nextUnsent (d : Dev) (m t : Nat) : Option (Part × Dev) :=
  d.txns.findSome? fun e =>
    if e.2.master = m && e.2.admitted then
      (takeFirst (fun p : Part => p.loc.tile = t) e.2.unsent).map fun r => (r.1, setTxn d e.1 { e.2 with unsent := r.2 })
    else none

/-- dl_req_mask as the arbiters see it. -/
def masked (d : Dev) (m : Nat) : Bool := d.pins.mask.getLsbD m

/-- A head that the arbiter passes over: it waits under R161, for a miss entry, for the room of an internal access (R252,
R307), or, an access of Rinse, for the end of a walk in its panel (R379). -/
def passedOver (d : Dev) (t : Nat) (p : Part) : Bool :=
  match p.op with
  | .unit u => !unitRoom d t u || (p.master = 18 && walkRuns d t)
  | _ => waits161 (slice d t) p || waitsMiss d p

/-- Inputs that hold an eligible request but for the quota: master and head (R307). -/
def heads (d : Dev) (t : Nat) : List (Nat × Part) :=
  (slice d t).arb.filterMap fun e =>
    match masked d e.1, e.2 with
    | false, p :: _ => if passedOver d t p then none else some (e.1, p)
    | _, _ => none

/-- The quota masks priorities 6 and 7 at a tile (R308, R310). -/
def quotaSpent (d : Dev) (t : Nat) : Bool :=
  decide (d.reg.quota < d.reg.qwin) && decide (d.reg.quota ≤ (slice d t).quota)

/-- The best input of a list: highest priority, then round-robin order after the master last granted (R306). DESIGN CHOICE (log
entry 75): before any grant at a priority its order starts at M0; R306 does not say where. -/
def bestHead (s : Slice) (hs : List (Nat × Part)) : Option (Nat × Part) :=
  let key (e : Nat × Part) : Nat := (7 - e.2.prio) * 24 + (e.1 + 24 - (mgetD 23 s.rr e.2.prio + 1)) % 24
  hs.foldl (fun best e =>
    match best with
    | none => some e
    | some b => if key e < key b then some e else some b) none

/-- QUOTA and QWIN as they govern the window that begins (R308). -/
def latchQuota (d : Dev) : Dev :=
  let w := rbits d 0x3000 15 8
  { d with reg := { d.reg with quota := rbits d 0x3000 7 0, qwin := if w = 0 then 256 else w } }

/-- The quota masks priorities 6 and 7 from the beginning of the next window on: it is 0. -/
def nextSpent (d : Dev) : Bool := let r := (latchQuota d).reg; decide (r.quota < r.qwin) && r.quota = 0

/-- The arbiter's choice under a quota that is spent or not: the input, its head, and whether the grant counts against the quota
(R306 to R310). -/
def chooseIf (spent : Bool) (d : Dev) (t : Nat) : Option (Nat × Part × Bool) :=
  let hs := heads d t
  let low := hs.filter fun e => !(spent && decide (6 ≤ e.2.prio))
  let high := hs.filter fun e => spent && decide (6 ≤ e.2.prio)
  match bestHead (slice d t) low with
  | some (m, p) => some (m, p, decide (6 ≤ p.prio))
  | none =>
    if (rget d 0x3000).getLsbD 16 then (bestHead (slice d t) high).map fun e => (e.1, e.2, false) else none

/-- The arbiter's choice in the window that runs. -/
def choose (d : Dev) (t : Nat) : Option (Nat × Part × Bool) := chooseIf (quotaSpent d t) d t

/-- Inputs are masked at a tile: those whose head has priority 6 or 7, whatever else holds that head (R308). -/
def quotaMasks (d : Dev) (t : Nat) : Bool :=
  quotaSpent d t && (slice d t).arb.any fun e => match e.2 with | p :: _ => decide (6 ≤ p.prio) | [] => false

/-- QUOTA_MASKED is raised once in a window (R308). -/
def raiseMasked (d : Dev) (t : Nat) : Dev :=
  if quotaMasks d t && !(slice d t).quotaRaised then
    onSlice (raise d Ev.QUOTA_MASKED) t fun s => { s with quotaRaised := true }
  else d

/-- Beats of data that a part brings into the tile's network port; an internal access of M17 or M18 does not pass it (R58,
R428). -/
def portBeats (p : Part) : Nat :=
  match p.op with
  | .write _ _ _ | .atomic _ _ _ _ _ => 1
  | .writeBolt _ _ _ => 2
  | .unit (.put _ _ _ _) => if p.master = 21 then 1 else 0
  | _ => 0

/-- Master m's route into tile t moves its parts to the arbiter input until the input is full (R50, R51, R305). -/
def route (n : Nat) (d : Dev) (m t : Nat) : Dev :=
  match n with
  | 0 => d
  | n + 1 =>
    if inputDepth ≤ (mgetD [] (slice d t).arb m).length then d
    else match nextUnsent d m t with
      | none => d
      | some (p, d1) =>
        let d2 := onSlice d1 t fun s => { s with arb := mputD [] s.arb m (mgetD [] s.arb m ++ [p]) }
        route n (raiseMasked (eCount d2 t 8 (portBeats p)) t) m t

/-- All parts of a transaction go to their arbiter inputs as far as the inputs have room. -/
def routeTxn (d : Dev) (id : Nat) : Dev :=
  match getTxn d id with
  | some x => x.unsent.foldl (fun d p => route inputDepth d x.master p.loc.tile) d
  | none => d

/-! ## Masks (R143) -/

/-- The parts that a tile's arbiter has decided to grant, within the window or at the beginning of the next: they count as granted
until it is known which it is (R312). -/
def decidedParts (s : Slice) : List Part :=
  ((s.decided.toList ++ s.atWindow.toList).filterMap fun x => (mgetD [] s.arb x.1).head?).eraseDups

/-- A part that no arbiter has granted, or decided to grant, is discarded. -/
def discardParts (ids : List Nat) (d : Dev) (t : Nat) : Dev :=
  onSlice d t fun s =>
    let keep (p : Part) : Bool := !ids.contains p.txn || (decidedParts s).contains p
    { s with arb := (s.arb.map fun e => (e.1, e.2.filter keep)).filter fun e => !e.2.isEmpty }

def isPartOf (o : BoltOp) (p : Part) : Bool := isBoltOp p && p.txn = o.txn && p.bolt = o.bolt

/-- Members that have granted a bolt operation, those included that hold it back under R161 or have decided it (R312). -/
def boltGrants (d : Dev) (o : BoltOp) : Nat :=
  let there (t : Nat) : Bool := (slice d t).held.any (isPartOf o) || (decidedParts (slice d t)).any (isPartOf o)
  o.granted.length + ((panelTiles d o.stripe.panel).filter there).length

/-- Granted parts of bolt operations that will not be complete wait no longer. DESIGN CHOICE (log entry 53): R143 lets a
granted request complete at its tile, and R350 needs all 16 grants; the spec does not say what becomes of a ZERO or WRITEBOLT
that only some members had granted: it is withdrawn there without effect. A decided grant is still issued (R312): its part,
left as a ZERO that nothing gathers, ends there. -/
def discardBolts (ids : List Nat) (d : Dev) (o : BoltOp) : Dev :=
  if ids.contains o.txn && decide (boltGrants d o < 16) then
    let d1 := removeBoltOp d o
    let d2 := o.granted.foldl (fun d m => releaseBolt d (tileAt d o.stripe.panel m) o.bolt) d1
    let blunt (p : Part) : Part := if isPartOf o p then { p with op := .zeroBolt } else p
    (panelTiles d2 o.stripe.panel).foldl (fun d t => onSlice d t fun s =>
      { s with held := s.held.filter (fun p => !isPartOf o p), arb := s.arb.map fun e => (e.1, e.2.map blunt) }) d2
  else d

/-- Parts of a transaction that a slice has granted and not finished. -/
def grantedParts (d : Dev) (id : Nat) : Nat :=
  let mine (p : Part) : Bool := p.txn = id
  (d.tiles.map fun e =>
    let s := e.2.slice
    (s.held.filter mine).length + (match s.stalled with | some p => bit (mine p) | none => 0) +
    ((decidedParts s).filter mine).length +
    (s.miss.map fun m => (m.waiters.filter mine).length).sum +
    (s.outbox.filter fun o => match o.waiter with | some p => mine p | none => false).length).sum +
  (d.panels.map fun e => ((e.2.boltOps.filter fun o => o.txn = id).map fun o => o.granted.length).sum).sum

/-- A silent completion when nothing of the transaction is granted (R143). DESIGN CHOICE (log entry 54): R143 speaks of tile
arbiters, and the spec does not say what becomes of a request that still waits for admission: it is dropped there, uncharged and
with no decision. Of the tub requests that wait at Mangle control's input R220 names CONTRIB only; the spec does not say what
becomes of the others: they are still decided, and take effect without a response. -/
def silenceTxn (d : Dev) (id : Nat) : Dev :=
  match getTxn d id with
  | none => d
  | some x =>
    let n := grantedParts d id
    let d1 := setTxn d id { x with silent := true, unsent := [], left := n }
    let waits := n ≠ 0 || x.fwd.isSome || d.mangle.queue.any (fun s => s.txn = id) || d.mangle.opening.any (fun e => e.1 = id) ||
      (d.mangle.input.contains id && x.kind ≠ .contrib)
    if waits then d1
    else
      let d2 := { d1 with mangle := { d1.mangle with input := d1.mangle.input.erase id } }
      let d3 := setMaster d2 x.master { getMaster d2 x.master with queue := (getMaster d2 x.master).queue.erase id }
      if x.admitted then answerOut d3 id .okay
      else if x.hasCredit then pushDue (dropTxn d3 id) x.master x.at_ false
      else dropTxn d3 id

/-- A part of a masked master that has been decided for the case that did not come is discarded (R143, R312). -/
def dropUndecided (d : Dev) (t : Nat) : Dev :=
  let keep := decidedParts (slice d t)
  let late := (slice d t).arb.flatMap fun e => if e.1 < 16 && masked d e.1 then e.2.filter (!keep.contains ·) else []
  let ids := (late.map Part.txn).eraseDups
  if ids.isEmpty then d
  else
    let d1 := discardParts ids d t
    ids.foldl silenceTxn (((getPanel d1 (panelOf d1 t)).boltOps).foldl (discardBolts ids) d1)

/-! ## Decisions and grants -/

/-- The arbiter decides the grant of its next TCLK from the inputs, the priorities and the masks as they stand: on the count and the
window that will then run, which are these, or those of a window that begins there (R311). -/
def decide_ (d : Dev) (t : Nat) : Dev :=
  let pick (x : Option (Nat × Part × Bool)) : Option (Nat × Bool) := x.map fun e => (e.1, e.2.2)
  dropUndecided (onSlice d t fun s => { s with decided := pick (choose d t), atWindow := pick (chooseIf (nextSpent d) d t) }) t

/-- A decided grant that the slice does not accept is held: no new decision is made for it (R312). -/
def hold (d : Dev) (t : Nat) : Dev := dropUndecided (onSlice d t fun s => { s with atWindow := s.decided }) t

/-- The decided part leaves its input, and the next grant is decided on the inputs as they then stand and the quota count as
it then is: what reaches an input in this TCLK is first considered in the next (R306, R311). -/
def popGrant (d : Dev) (t m : Nat) (p : Part) (counts : Bool) : Dev :=
  let upd (s : Slice) : Slice :=
    { s with arb := mputD [] s.arb m (mgetD [] s.arb m).tail, decided := none, atWindow := none, rr := minsert s.rr p.prio m,
             quota := s.quota + bit counts }
  decide_ (eCount (onSlice d t upd) t 5 1) t

/-- The decided part enters the slice's lookup, and its master's route moves on (R160, R305). -/
def issueGrant (d : Dev) (t m : Nat) (p : Part) (counts : Bool) : Dev :=
  enter (route inputDepth (popGrant d t m p counts) m t) t p

/-- TILE_GRANT, one TCLK of the arbiter: waiting parts of the slice go first; a grant decided in an earlier TCLK is issued if
the slice accepts it, and held if not; where none is decided, one is (R160, R306 to R312). -/
def tileGrant (d : Dev) (t : Nat) : Dev :=
  let d0 := raiseMasked (settle d t) t
  match (slice d0 t).decided with
  | none => decide_ d0 t
  | some (m, c) =>
    if !accepts d0 t then hold d0 t
    else match mgetD [] (slice d0 t).arb m with
      | p :: _ => settlePanel (raiseMasked (issueGrant d0 t m p c) t) (panelOf d0 t)
      | [] => decide_ d0 t

/-- Grants of a tile, TCLK after TCLK, until nothing more goes (a request with Flow `through`). -/
def grantAll (n : Nat) (d : Dev) (t : Nat) : Dev :=
  match n with
  | 0 => d
  | n + 1 =>
    if accepts d t && ((slice d t).decided.isSome || (choose d t).isSome) then grantAll n (tileGrant d t) t else d

/-- A window begins: what was decided for that case is the next grant; a held one stands (R311, R312). -/
def beginWindow (d : Dev) (t : Nat) : Dev :=
  let go (s : Slice) : Slice := { s with quota := 0, quotaRaised := false, decided := s.atWindow }
  raiseMasked (dropUndecided (onSlice d t go) t) t

/-- QUOTA_WINDOW_END: the counts restart and new values of QUOTA and QWIN apply (R308). -/
def quotaWindowEnd (d : Dev) : Dev :=
  if !d.boot.done then d
  else
    (List.range 320).foldl beginWindow (latchQuota d)

/-- QUOTA_WINDOW_END (R308). -/
def execQuotaWindowEnd (s : State) : Host.Outcome State Fault Refusal := onDev s quotaWindowEnd

end Sys2Proof.Machine
end

