-- ==== Sys2Proof/Machine/Ecdsa.lean ====
section
/-!
DEFINITION. ECDSA verification on the curve P-384 (FIPS 186-4, SEC1), which R484 and R486 name.
-/
namespace Sys2Proof.Machine.Ecdsa

/-- The field prime, the curve coefficient b, the group order and the base point. -/
def p : Nat := 2 ^ 384 - 2 ^ 128 - 2 ^ 96 + 2 ^ 32 - 1
def b : Nat := 0xb3312fa7e23ee7e4988e056be3f82d19181d9c6efe8141120314088f5013875ac656398d8a2ed19d2a85c8edd3ec2aef
def n : Nat := 0xffffffffffffffffffffffffffffffffffffffffffffffffc7634d81f4372ddf581a0db248b0a77aecec196accc52973
def gx : Nat := 0xaa87ca22be8b05378eb1c71ef320ad746e1d3b628ba79b9859f741e082542a385502f25dbf55296c3a545e3872760ab7
def gy : Nat := 0x3617de4a96262c6f5d9e98bf9292dc29f8f41dbd289a147ce9da3113b5f0b8c00a60b1ce1d7e819d7a431d7c90ea0e5f

/-- base ^ e modulo m, over the bits of e below 2 ^ fuel. -/
def powMod (m : Nat) : Nat → Nat → Nat → Nat
  | 0, _, _ => 1 % m
  | fuel + 1, base, e =>
    let r := powMod m fuel (base * base % m) (e / 2)
    if e % 2 = 1 then r * base % m else r

/-- Inverse modulo a prime of at most 384 bits. -/
def inv (m x : Nat) : Nat := powMod m 384 x (m - 2)

def sub (x y : Nat) : Nat := (x + p - y % p) % p

/-- A point of the curve; `none` is the point at infinity. -/
abbrev Point := Option (Nat × Nat)

def onCurve (x y : Nat) : Bool := decide (x < p ∧ y < p ∧ y * y % p = (x * x * x + (p - 3) * x + b) % p)

def add : Point → Point → Point
  | none, q => q
  | q, none => q
  | some (x1, y1), some (x2, y2) =>
    if x1 = x2 ∧ (y1 + y2) % p = 0 then none
    else
      let l := if x1 = x2 then (3 * x1 * x1 + (p - 3)) * inv p (2 * y1) % p else sub y2 y1 * inv p (sub x2 x1) % p
      let x3 := sub (sub (l * l) x1) x2
      some (x3, sub (l * sub x1 x3) y1)

/-- k times a point, over the bits of k below 2 ^ fuel. -/
def mul : Nat → Nat → Point → Point
  | 0, _, _ => none
  | fuel + 1, k, q =>
    let r := mul fuel (k / 2) (add q q)
    if k % 2 = 1 then add r q else r

/-- The signature (r, s) of a digest verifies under the public point (qx, qy). -/
def verify (digest qx qy r s : Nat) : Bool :=
  onCurve qx qy && decide (1 ≤ r ∧ r < n ∧ 1 ≤ s ∧ s < n) &&
    (let w := inv n s
     let q := add (mul 384 (digest * w % n) (some (gx, gy))) (mul 384 (r * w % n) (some (qx, qy)))
     match q with
     | some (x, _) => decide (x % n = r)
     | none => false)

end Sys2Proof.Machine.Ecdsa
end

