-- ==== Sys2Proof/Machine/Channel.lean ====
section
/-!
DEFINITION. The channel scheduler of a tile: drains and rounds, the choice of column and row commands, command timing,
refresh commands, power-down (R250 to R270, R314 to R330), and the return of a line that was read (R337 to R344, R422).
A command of a channel carries the hem cycle in which it is issued; one that the rules do not let issue in that cycle
changes nothing.
-/
namespace Sys2Proof.Machine

/-! ## Timing parameters (R266, R427, R315) -/

structure Timing where
  rc : Nat
  ras : Nat
  rp : Nat
  rcd : Nat
  cl : Nat
  cwl : Nat
  faw : Nat
  rrd : Nat
  ccd : Nat
  wtr : Nat
  wr : Nat
  rtw : Nat
  pd : Nat
  xp : Nat
  rfc : Nat

def timing (d : Dev) (t : Nat) : Timing :=
  let b := if isFar t then 0xD010 else 0xD000
  let f (k hi lo : Nat) : Nat := rbits d (b + 4 * k) hi lo
  { rc := f 0 31 24, ras := f 0 23 16, rp := f 0 15 8, rcd := f 0 7 0, cl := f 1 31 24, cwl := f 1 23 16, faw := f 1 15 8,
    rrd := f 1 7 4, ccd := f 1 3 0, wtr := f 2 31 24, wr := f 2 23 16, rtw := f 2 15 8, pd := f 3 15 8, xp := f 3 7 0,
    rfc := rbits d (if isFar t then 0xC008 else 0xC004) 27 16 }

/-- At least n cycles since an earlier command, if there was one. -/
def after (x : Option Nat) (n at_ : Nat) : Bool := match x with | some y => decide (y + n ≤ at_) | none => true

def ranksOf (t : Nat) : List Nat := if isFar t then [0] else [0, 1]
def banksOf (t rank : Nat) : List Nat := if isFar t then List.range 48 else (List.range 16).map (16 * rank + ·)
/-- Bank coordinates that a refresh target covers (R315). -/
def refBanks (t target : Nat) : List Nat := if isFar t then [target] else banksOf t target
def refRank (t target : Nat) : Nat := if isFar t then 0 else target

/-! ## The command stream -/

/-- The bus of a command is free in its cycle, and no later cycle has carried a command (R263); commands in SAFE mode keep their
spacing (R408). -/
def slotFree (c : Chan) (row safe : Bool) (at_ : Nat) : Bool :=
  c.history.all fun x =>
    if safe || x.safe then decide (x.at_ + safeGap ≤ at_) else decide (x.last < at_) || (x.at_ = at_ && x.onRow != row)

/-- A due refresh or RFM waits for a bank: its reads and writes wait (R268, R318). -/
def bankDue (c : Chan) (t bank : Nat) : Bool :=
  c.dueRef.any (fun r => (refBanks t r).contains bank) || c.rfm.any (fun r => r.1 = bank)

/-- The rank takes commands. -/
def rankUp (x : Rank) (tm : Timing) (at_ : Nat) : Bool :=
  !x.down && !x.selfRefresh && after x.upAt tm.xp at_ && decide (x.busyTo ≤ at_)

/-- The hem issues commands of entries: its clock runs, no report has stopped it, its region is in no change (R271, R446, R481). -/
def issues (d : Dev) (t : Nat) : Bool := (chan d t).alert.isNone && !rateChanging d t && d.pins.ck

/-- An RFM is later than RFM_DUE allows: no other command goes before it (R318). -/
def rfmLate (d : Dev) (t at_ : Nat) : Bool := (chan d t).rfm.any fun r => r.2 + rbits d 0xC00C 15 0 < at_

/-- The cycle is open to commands other than refreshes: no calibration of the stack holds the channel (R424), no RFM is
late. -/
def openTo (d : Dev) (t at_ : Nat) : Bool := decide ((chan d t).quietTo ≤ at_) && !rfmLate d t at_

/-- Room in the hem's read queue of 16 lines: a line has its place from its command until its return (R62, R63). -/
def hemRoom (c : Chan) : Bool := decide (c.fly.length < 16)
/-- Room in the hem's write queue of 16 lines: a line has its place from its command until it crosses (R62, R63). -/
def hemWriteRoom (c : Chan) (cwl at_ : Nat) : Bool := decide ((c.recent.filter fun w => decide (at_ < w.at_ + cwl)).length < 16)

/-- Latest read command of the channel. -/
def lastRead (c : Chan) : Option Nat :=
  match (getRank c 0).rdAt, (getRank c 1).rdAt with
  | some a, some b => some (max a b)
  | some a, none => some a
  | none, b => b

def colOk (d : Dev) (t bank row : Nat) (wr : Bool) (at_ : Nat) : Bool :=
  let tm := timing d t
  let c := chan d t
  let b := getBank c bank
  let r := getRank c (rankOf t bank)
  issues d t && openTo d t at_ && slotFree c false (safeRank d t (rankOf t bank)) at_ && rankUp r tm at_ && !bankDue c t bank &&
  decide (b.openRow = some row) && after b.actAt tm.rcd at_ && after c.colAt tm.ccd at_ &&
  (if wr then after (lastRead c) tm.rtw at_ && hemWriteRoom c tm.cwl at_ else after r.wrAt tm.wtr at_ && hemRoom c)

/-- A bank may be precharged in this cycle. -/
def preOk (d : Dev) (t bank at_ : Nat) : Bool :=
  let tm := timing d t
  let c := chan d t
  let b := getBank c bank
  slotFree c true (safeRank d t (rankOf t bank)) at_ && rankUp (getRank c (rankOf t bank)) tm at_ && b.openRow.isSome && after b.actAt tm.ras at_ &&
  after b.wrAt (tm.cwl + tm.ccd + tm.wr) at_

def actOk (d : Dev) (t bank at_ : Nat) : Bool :=
  let tm := timing d t
  let c := chan d t
  let b := getBank c bank
  let r := getRank c (rankOf t bank)
  issues d t && openTo d t at_ && slotFree c true (safeRank d t (rankOf t bank)) at_ && rankUp r tm at_ && !bankDue c t bank &&
  b.openRow.isNone && after b.preAt tm.rp at_ &&
  after b.actAt tm.rc at_ && decide (b.busyTo ≤ at_) && after r.acts.head? tm.rrd at_ && after r.acts[3]? tm.faw at_

def doPre (d : Dev) (t bank at_ : Nat) : Dev :=
  onChan d t fun c =>
    record (setBank c bank { getBank c bank with openRow := none, preAt := some at_ }) t (asSent d t (cmd 3 false bank 0 0 at_))

def doAct (d : Dev) (t bank row at_ : Nat) : Dev :=
  let d1 := onChan d t fun c =>
    let k := rankOf t bank
    let c1 := setBank c bank { getBank c bank with openRow := some row, actAt := some at_, wrAt := none }
    record (setRank c1 k { getRank c1 k with acts := (at_ :: (getRank c1 k).acts).take 4 }) t
      (asSent d t (cmd 0 false bank row 0 at_))
  raise (eCount d1 t 0 1) Ev.ACT

/-! ## Entries that wait -/

/-- A queued access to a row of a bank (R265). -/
def rowWanted (c : Chan) (bank row : Nat) : Bool :=
  let reads (e : REntry) : Bool := e.bank = bank && e.cols.any fun col => e.rowOf col = row
  c.rq.any reads || c.bg.any reads ||
  c.ham.any (fun e => e.bank = bank && e.row = row)

/-- A column of a read entry that no older entry of the line holds back (R256). -/
def colFree (c : Chan) (id bank row col : Nat) : Bool :=
  let older (h : HEntry) : Bool := h.id < id && h.bank = bank && h.row = row && h.col = col
  let olderRead (e : REntry) : Bool := e.id < id && e.bank = bank && e.rowOf col = row && e.cols.contains col
  !c.ham.any older && !c.awaiting.any (fun h => h.kind = .delta && older h) && !c.rq.any olderRead && !c.bg.any olderRead

/-- The next line of a read entry that may be read. -/
def nextCol (c : Chan) (e : REntry) : Option Nat := e.cols.find? fun col => colFree c e.id e.bank (e.rowOf col) col
/-- The row that the entry needs open next. -/
def nextRow (c : Chan) (e : REntry) : Nat := match nextCol c e with | some col => e.rowOf col | none => e.row

/-- Effective priority of a read entry (R262). -/
def readPrio (d : Dev) (t : Nat) (e : REntry) : Nat :=
  if e.aged || (e.kind = .bg && rbits d (tileOff t 0x008) 23 16 = 0) then 7 else if e.kind = .bg then 0 else e.prio

/-- Put `a` before the first element it goes before. -/
def insertBy {α : Type} (before : α → α → Bool) (a : α) : List α → List α
  | [] => [a]
  | b :: l => if before a b then a :: b :: l else b :: insertBy before a l

/-- Read entries with a column that may be read, highest rank first (R263). -/
def rankedReads (d : Dev) (t : Nat) : List REntry :=
  let c := chan d t
  let es := (c.rq ++ c.bg.toList).filter fun e => (nextCol c e).isSome
  let isOpen (e : REntry) : Bool := (getBank c e.bank).openRow = some (nextRow c e)
  let before (a b : REntry) : Bool :=
    let p := readPrio d t a
    let q := readPrio d t b
    q < p || (p = q && ((isOpen a && !isOpen b) || (isOpen a = isOpen b && a.id ≤ b.id)))
  es.foldr (insertBy before) []

/-! ## Rounds (R259 to R261) -/

def hwm (d : Dev) (t : Nat) : Nat := rbits d (tileOff t 0x000) 6 0
def lwm (d : Dev) (t : Nat) : Nat := rbits d (tileOff t 0x000) 14 8

/-- An entry that a round may take: no older entry of its line is waiting (R256). DESIGN CHOICE (log entry 81): R261 takes entries
"subject to R256"; of two entries of one line one round takes the older alone. -/
def roundable (c : Chan) (e : HEntry) : Bool := colFree c e.id e.bank e.row e.col

/-- The DATA entry has, or gets, its reservation at member q; with q out of service it forms no delta (R254, R369). -/
def reserve (d : Dev) (t : Nat) (e : HEntry) : Option Dev :=
  if e.kind ≠ .data || e.drained || e.reserved then some d
  else
    match roleOf d ⟨t, e.bank, e.orow, e.col⟩ with
    | .data st =>
      let pl := stripeParityLoc d st
      let upd (f : HEntry → HEntry) (d : Dev) : Dev :=
        onChan d t fun c => { c with ham := updWhere (fun x => x.id = e.id) f c.ham }
      if countsOut d pl.tile (stripeBolt d st) then
        some (upd (fun x => { x with kind := .full }) (setMend d (stripeBolt d st) true))
      else if isHeld d st || 96 ≤ hamUsed (chan d pl.tile) then none
      else
        let d1 := onChan d pl.tile fun c => { c with resv := c.resv ++ [⟨t, e.id, pl.bank, pl.row, pl.col⟩] }
        some (upd (fun x => { x with reserved := true }) d1)
    | _ => some d

/-- Take entries in selection order, up to n. -/
def takeRound (t : Nat) : Nat → List HEntry → Dev → List Nat → Dev × List Nat
  | _, [], d, ids => (d, ids)
  | 0, _, d, ids => (d, ids)
  | n + 1, e :: es, d, ids =>
    match reserve d t e with
    | some d1 => takeRound t n es d1 (ids ++ [e.id])
    | none => takeRound t (n + 1) es d ids

/-- A round begins in a drain mode; one that can take nothing ends the drain (log entry 21). -/
def beginRound (d : Dev) (t : Nat) (m : Mode) : Dev :=
  let c := chan d t
  let es := c.ham.filter (roundable c)
  let urgent := es.filter HEntry.urgent
  let rest := es.filter fun e => !e.urgent
  let isOpen (e : HEntry) : Bool := (getBank c e.bank).openRow = some e.row
  let order := if m = .forced then urgent else urgent ++ rest.filter isOpen ++ rest.filter fun e => !isOpen e
  let (d1, ids) := takeRound t 16 order d []
  if ids.isEmpty then onChan d1 t fun c => { c with mode := .read, round := [], roundWr := false }
  else onChan d1 t fun c => { c with mode := m, round := ids, roundWr := false }

def hasUrgent (c : Chan) : Bool := c.ham.any HEntry.urgent

/-- A drain starts in READ mode. -/
def startDrain (d : Dev) (t : Nat) (m : Mode) : Dev :=
  beginRound (raise (rinc d (tileOff t 0x014) 1) Ev.DRAIN_START) t m

/-- No read entry and no BG entry exists; one that waits for a rebuild slot stands in the read queue (R259, R367). -/
def readIdle (d : Dev) (t : Nat) : Bool := readsEmpty d t && (chan d t).bg.isNone

/-- HWM_DRAIN. -/
def hwmDrain (d : Dev) (t : Nat) : Dev :=
  let c := chan d t
  if c.mode = .read && issues d t && decide (hwm d t ≤ c.ham.length) then startDrain d t .hwm else d

/-- FORCED_DRAIN: HWM ranks above it. -/
def forcedDrain (d : Dev) (t : Nat) : Dev :=
  let c := chan d t
  if c.mode = .read && issues d t && hasUrgent c && decide (c.ham.length < hwm d t) then startDrain d t .forced else d

/-- IDLE_DRAIN: no read entry and no BG entry for IDLE_DRAIN TCLK; HWM and FORCED rank above it. -/
def idleDrain (d : Dev) (t : Nat) : Dev :=
  let c := chan d t
  if c.mode = .read && issues d t && readIdle d t && !c.ham.isEmpty && !hasUrgent c && decide (c.ham.length < hwm d t) then
    startDrain d t .idle
  else d

/-- DRAIN_ROUND_END: the conditions of R259 after the last write of a round. -/
def drainRoundEnd (d : Dev) (t : Nat) : Dev :=
  let c := chan d t
  let occ := c.ham.length
  if c.mode = .read || !c.round.isEmpty || !issues d t then d
  else
    let next : Mode :=
      match c.mode with
      | .hwm => if occ ≤ lwm d t then .read else .hwm
      | .forced => if hwm d t ≤ occ then .hwm else if hasUrgent c then .forced else .read
      | _ => if hwm d t ≤ occ then .hwm else if hasUrgent c then .forced else if occ = 0 || !readIdle d t then .read else .idle
    if next = .read then onChan d t fun c => { c with mode := .read, round := [], roundWr := false }
    else beginRound d t next

/-- WRITE_AGE_URGENT: the oldest entry that is not urgent has reached WRITE_AGE_MAX (R260). -/
def writeAgeUrgent (d : Dev) (t : Nat) : Dev :=
  onChan d t fun c =>
    match c.ham.find? (fun e => !e.urgent) with
    | some x => { c with ham := updWhere (fun e => e.id = x.id) (fun e => { e with urgent := true }) c.ham }
    | none => c

/-- An entry whose age has raised its priority (R262). -/
def countEscalate (d : Dev) (t prio : Nat) : Dev :=
  if prio = 7 then d else raise (rinc d (tileOff t 0x01C) 1) Ev.READ_ESCALATE

/-- The oldest entry of the read queue takes priority 7: one that waits for a rebuild slot among them (R262, R367). -/
def escalateOldest (d : Dev) (t : Nat) : Dev :=
  let c := chan d t
  let aged (x : REntry) : Dev :=
    countEscalate (onChan d t fun c => { c with rq := updWhere (fun e => e.id = x.id) (fun e => { e with aged := true }) c.rq }) t
      (readPrio d t x)
  let older (a b : SlotWait) : SlotWait := if b.born < a.born then b else a
  let waits := (slotWaiters d t).filter fun w => !w.aged
  match c.rq.find? (fun e => !e.aged), waits with
  | some x, [] => aged x
  | e, w :: ws =>
    let w := ws.foldl older w
    match e.filter (fun x => decide (x.id < w.born)), getJob d w.job with
    | some x, _ => aged x
    | none, some j => countEscalate (setJob d w.job { j with aged := true }) t w.prio
    | none, none => d
  | none, [] => d

/-- READ_ESCALATE: the oldest entry of the read queue, or the BG entry, has reached its age (R262): the event is raised where
the age raises its priority. -/
def readEscalate (d : Dev) (t : Nat) (bg : Bool) : Dev :=
  if !bg then escalateOldest d t
  else match (chan d t).bg with
    | some e =>
      if e.aged then d
      else countEscalate (onChan d t fun c => { c with bg := some { e with aged := true } }) t (readPrio d t e)
    | none => d

/-! ## Column commands (R261, R263) -/

/-- Auto-precharge goes with the last queued access to a row when ROW_IDLE is 0 (R265). -/
def autoPre (d : Dev) (t bank row : Nat) : Bool :=
  rbits d (tileOff t 0x008) 15 8 = 0 && !rowWanted (chan d t) bank row

/-- The bank after a column command. -/
def closeAuto (d : Dev) (t bank at_ : Nat) (wr auto : Bool) : Dev :=
  let tm := timing d t
  onChan d t fun c =>
    let b := getBank c bank
    let b1 := if wr then { b with wrAt := some at_ } else { b with rdAt := some at_ }
    let ready := max ((b.actAt.getD 0) + tm.ras) (if wr then at_ + tm.cwl + tm.ccd + tm.wr else at_)
    setBank c bank (if auto then { b1 with openRow := none, preAt := some ready } else b1)

/-- A read command: what the line holds is on its way back. -/
def issueRd (m : SMap DLine) (d : Dev) (t at_ : Nat) (f : Fly) : Dev :=
  let k := rankOf t f.bank
  let key := lineKey t f.bank f.row f.col
  let bolt := lineBolt d ⟨t, f.bank, f.orow, f.col⟩
  let auto := autoPre d t f.bank f.row
  let d1 := onChan d t fun c =>
    let c1 := setRank c k { getRank c k with rdAt := some at_ }
    record { c1 with colAt := some at_,
                     fly := c1.fly ++ [{ f with at_ := at_, content := if isLost d bolt key then none else memGet m key }] }
      t (asSent d t (cmd 1 auto f.bank 0 f.col at_))
  raise (eCount (closeAuto d1 t f.bank at_ false auto) t 1 1) Ev.LINE_RD

/-- What a Hamper entry writes; a DELTA whose old line is not back yet does not know it. -/
def writtenLine (e : HEntry) : Option DLine :=
  if e.kind = .delta then e.old.map (xorLine · e.line) else some e.line

/-- M17 reads back a rebuilt line that was written back (R387). -/
def startVerify (d : Dev) (t : Nat) (e : HEntry) : Dev :=
  match e.verify, roleOf d ⟨t, e.bank, e.orow, e.col⟩ with
  | true, .data st => startJob d (mkJob st .verify 0 [memberOf d t])
  | _, _ => d

/-- A write command of a Hamper entry: the memory takes the line, except for a DELTA that waits for its old line. -/
def writeCmd (m : SMap DLine) (d : Dev) (t at_ : Nat) (e : HEntry) : SMap DLine × Dev :=
  let k := rankOf t e.bank
  let key := lineKey t e.bank e.row e.col
  let new := writtenLine e
  let waits := (e.kind = .data && !e.deltaSent && e.old.isNone) || (e.kind = .delta && new.isNone)
  let m1 := match new with | some x => memPut m key x | none => m
  let d1 := onChan d t fun c =>
    let c1 := setRank c k { getRank c k with wrAt := some at_ }
    { c1 with colAt := some at_, ham := c1.ham.filter (fun x => x.id ≠ e.id), round := c1.round.erase e.id,
              awaiting := if waits then c1.awaiting ++ [e] else c1.awaiting,
              recent := (⟨e, at_, memGet m key, new⟩ :: c1.recent).take 16 }
  let auto := autoPre d1 t e.bank e.row
  let d2 := onChan d1 t fun c => record c t (asSent d t (cmd 2 auto e.bank 0 e.col at_))
  let d3 := match new with | some x => crossLine d2 t k at_ true x | none => d2
  (m1, raise (eCount (closeAuto d3 t e.bank at_ true auto) t 2 1) Ev.LINE_WR)

/-- A write command of a running channel: VERIFY reads a rebuilt line back, and a Ledger line has its copy B follow. -/
def issueWr (m : SMap DLine) (d : Dev) (t at_ : Nat) (e : HEntry) : SMap DLine × Dev :=
  let r := writeCmd m d t at_ e
  (r.1, ledgerIssued (startVerify (foundLine r.2 e.bolt (lineKey t e.bank e.row e.col)) t e) t e)

/-- The owner of one line of an entry; the second line of a ply has the slot of line 1. -/
def ownerOf (e : REntry) (col : Nat) : Owner :=
  match e.owner with
  | .job j s => if e.kind = .bg && col % 2 = 1 then .job j (s + 32) else .job j s
  | o => o

def readFly (e : REntry) (col : Nat) : Fly :=
  ⟨e.kind, ownerOf e col, e.bank, e.rowOf col, e.orow, col, 0, none, e.prio, e.since, e.master, e.cols.length = 1, e.id⟩

/-- A read entry has issued one of its lines. -/
def dropCol (c : Chan) (id col : Nat) : Chan :=
  let upd (e : REntry) : REntry := { e with cols := e.cols.erase col }
  { c with rq := c.rq.filter (fun e => e.id ≠ id),
           bg := match c.bg with
             | some e => if e.id = id then (if e.cols.length ≤ 1 then none else some (upd e)) else some e
             | none => none }

def columnRead (m : SMap DLine) (d : Dev) (t at_ : Nat) : Dev :=
  match (rankedReads d t).find? (fun e => colOk d t e.bank (nextRow (chan d t) e) false at_) with
  | some e =>
    match nextCol (chan d t) e with
    | some col => issueRd m (onChan d t fun c => dropCol c e.id col) t at_ (readFly e col)
    | none => d
  | none => d

/-- Entries of the running round that still need their drain read, in selection order. -/
def roundReads (c : Chan) : List HEntry :=
  (c.round.filterMap fun i => c.ham.find? fun e => e.id = i).filter fun e => (e.kind = .data || e.kind = .delta) && !e.drained
def roundAll (c : Chan) : List HEntry := c.round.filterMap fun i => c.ham.find? fun e => e.id = i

/-- What waits for the channel after entries have left it. -/
def channelFreed (d : Dev) (t : Nat) : Dev :=
  let p := panelOf d t
  settlePanel (liftStep (kickPanel d p) t) p

def columnDrain (m : SMap DLine) (d : Dev) (t at_ : Nat) : SMap DLine × Dev :=
  let c := chan d t
  match roundReads c, roundAll c with
  | e :: _, _ =>
    if colOk d t e.bank e.row false at_ then
      let f : Fly := ⟨e.kind, .drain t e.id, e.bank, e.row, e.orow, e.col, 0, none, 0, 0, none, true, e.id⟩
      let mark (x : HEntry) : HEntry := { x with drained := true }
      (m, issueRd m (onChan d t fun c => { c with ham := updWhere (fun x => x.id = e.id) mark c.ham }) t at_ f)
    else (m, d)
  | [], e :: _ =>
    if colOk d t e.bank e.row true at_ then
      let (m1, d1) := issueWr m (onChan d t fun c => { c with roundWr := true }) t at_ e
      (m1, channelFreed d1 t)
    else (m, d)
  | [], [] => (m, d)

/-! ## Commands of the hem's own tasks (R321, R410, R424) -/

/-- The rank whose layer a task addresses; the hem's own gap addresses none. -/
def taskRank (t : Nat) : HemTask → Option Nat
  | .temp k | .trk k => some (if isFar t then 0 else k)
  | .drift | .zq => some 0
  | .gap => none

/-- A task may go in this cycle: the due refreshes of its channel have gone (R321, R424). -/
def taskOk (d : Dev) (t at_ : Nat) (k : HemTask) : Bool :=
  let c := chan d t
  let up := match taskRank t k with | some r => rankUp (getRank c r) (timing d t) at_ | none => true
  let safe := match taskRank t k with | some r => safeRank d t r | none => false
  issues d t && openTo d t at_ && slotFree c false safe at_ && c.dueRef.isEmpty && c.rfm.isEmpty &&
  up && after c.colAt (timing d t).ccd at_

def isTrk : HemTask → Bool
  | .trk _ => true
  | _ => false

/-- The generator is free again after the last TRK that waits. -/
def trackEnd (d : Dev) (t : Nat) : Dev :=
  if (svc d t).hem.use = .tracking && !((chan d t).tasks.any isTrk) then onHem d t fun h => { h with use := .idle } else d

/-- What a command has changed in a layer is remembered, should the layer have discarded it (R407). -/
def noteMode (d : Dev) (t at_ rank : Nat) (u : ModeUndo) : Dev :=
  onChan d t fun c => { c with mrws := (⟨at_, rank, u⟩ :: c.mrws).take 16 }

/-- A task's command is issued: a mode register read of MR4 or of the stack, a TRK, a gap on the data bus, or the time of a
stack calibration; with the line of a near layer. -/
def doTask (d : Dev) (t at_ : Nat) (k : HemTask) : Dev :=
  let send (bank sub : Nat) (d : Dev) : Dev :=
    onChan d t fun c => { record c t (asSent d t ⟨7, false, bank, 0, 0, at_, false, sub, false⟩) with colAt := some at_ }
  let line (r : Nat) (x : DLine) (d : Dev) : Dev := if isFar t then d else crossLine d t r at_ false x
  match k with
  | .temp r => send (16 * r + 4) 3 (line r (mrrLine (layerOf d t r) 4) d)
  | .trk r =>
    let x := layerOf d t r
    trackEnd (onLayer (noteMode (send (16 * r) 5 (line r (trkLine x) d)) t at_ r .trk) t r fun x => { x with trks := x.trks + 1 }) t
  | .drift => send 0 3 d
  | .gap => onChan d t fun c => { c with colAt := some (at_ + (if isFar t then 16 else 4) - (timing d t).ccd) }
  | .zq => onChan d t fun c => { record c t ⟨7, false, 0, 0, 0, at_, false, 0, false⟩ with quietTo := at_ + 512 }

def addTasks (d : Dev) (t : Nat) (ks : List HemTask) : Dev := onChan d t fun c => { c with tasks := c.tasks ++ ks }

/-- COLUMN_COMMAND_ISSUE: a task of the hem goes ahead of reads and writes. -/
def columnCommand (m : SMap DLine) (d : Dev) (t at_ : Nat) : SMap DLine × Dev :=
  match (chan d t).tasks with
  | k :: rest => (m, if taskOk d t at_ k then doTask (onChan d t fun c => { c with tasks := rest }) t at_ k else d)
  | [] => if (chan d t).mode = .read then (m, columnRead m d t at_) else columnDrain m d t at_

/-! ## Refresh commands (R268, R314 to R318) -/

/-- Every bank of a refresh target is closed and ready. -/
def refreshReady (d : Dev) (t target at_ : Nat) : Bool :=
  let tm := timing d t
  let c := chan d t
  slotFree c true (safeRank d t (refRank t target)) at_ && rankUp (getRank c (refRank t target)) tm at_ &&
  (refBanks t target).all fun b => let x := getBank c b; x.openRow.isNone && after x.preAt tm.rp at_ && decide (x.busyTo ≤ at_)

/-- The refresh command is issued. -/
def doRefresh (d : Dev) (t target at_ : Nat) : Dev :=
  let tm := timing d t
  let d1 := onChan d t fun c =>
    let c1 := if isFar t then setBank c target { getBank c target with busyTo := at_ + tm.rfc }
      else setRank c target { getRank c target with busyTo := at_ + tm.rfc }
    record c1 t (asSent d t (cmd 4 false (if isFar t then target else 16 * target) 0 0 at_))
  raise (eCount d1 t 3 1) Ev.REFRESH

/-- The first due refresh or RFM whose target is ready, or the first precharge that one needs. -/
def refreshStep (d : Dev) (t at_ : Nat) : Option Dev :=
  let c := chan d t
  match c.rfm.find? (fun r => refreshReady d t r.1 at_), c.dueRef.find? (refreshReady d t · at_) with
  | some r, _ =>
    some (doRefresh (rinc (onChan d t fun c => { c with rfm := c.rfm.erase r }) (tileOff t 0x18C) 1) t r.1 at_)
  | none, some r => some (doRefresh (onChan d t fun c => { c with dueRef := c.dueRef.erase r }) t r at_)
  | none, none =>
    ((c.rfm.map Prod.fst ++ c.dueRef).flatMap (refBanks t)).find? (preOk d t · at_) |>.map fun b => doPre d t b at_

/-! ## The schedule of due points (R315, R316, R319, R323, R324) -/

/-- The region is treated as doubled (R322, R323). -/
def inForce (h : RegionHeat) : Bool := h.doubled || h.lost

/-- A near hem runs at 0.8 GHz: its region does, or a layer of it is in SAFE mode, which is used at that rate alone (R408).
DESIGN CHOICE (log entry 46): a hem that a retraining brings to SAFE mode runs at that rate by itself. -/
def hemSlow (d : Dev) (t : Nat) : Bool := d.pins.nearSlow || safeRank d t 0 || safeRank d t 1

/-- The interval of a tile's schedules in hem cycles: at the hem's rate, and halved where `half` says so. -/
def interval (d : Dev) (t : Nat) (half : Bool) : Nat :=
  let r := regionOfTile t
  let i :=
    if isFar t then
      let n := rbits d 0xC008 15 0
      if (if r = 1 then d.pins.far0Slow else d.pins.far1Slow) then n * 3 / 4 else n
    else
      let n := rbits d 0xC004 15 0
      if hemSlow d t then n * 4 / 5 else n
  if half then i / 2 else i

/-- The phase of a near rank, or of a far channel's sequence, in 256 parts of the interval. -/
def phase (d : Dev) (t rank : Nat) : Nat :=
  let s := rbits d 0xC030 1 0
  if isFar t then 4 * (t - 256) + s else 4 * ((t + 32 * rank) % 64) + s

/-- The first due point of a schedule in or after hem cycle x. DESIGN CHOICE (log entry 82): R319 gives interval 0 no origin; it is hem
cycle 0, so that points are next due that fell before the end of a training. -/
def pointFrom (d : Dev) (t rank x : Nat) (half : Bool) : Nat :=
  let i := max 1 (interval d t half)
  let o := phase d t rank * i / 256
  if x ≤ o then o else o + (x - o + i - 1) / i * i

/-- The next due point: of the doubled schedule from its beginning on, and for one more due refresh after its end. DESIGN CHOICE (log
entry 82): interval 0 starts at hem cycle 0, so that a schedule with no base begins with the points from there on. -/
def nextDue (d : Dev) (t rank : Nat) : Nat :=
  let h := getHeat d (regionOfTile t)
  let x := match mget (chan d t).base rank with | some b => b + 1 | none => 0
  let still := match h.halfTo with | some e => decide (x ≤ e) | none => false
  if inForce h || still then pointFrom d t rank (max x (h.halfFrom + 1)) true else pointFrom d t rank x false

/-! ## Due refreshes (R268, R325 to R327, R330) -/

/-- A pattern burst of a loopback runs: a due refresh waits for its end (R330). -/
def inBurst (d : Dev) (t : Nat) : Bool := let u := (svc d t).hem.use; u = .nearEnd || u = .farEnd
/-- A burst of a loopback or of a training runs when a refresh falls due. The hem cycle of a ROW_COMMAND_ISSUE during a training is
one of its burst boundaries: DESIGN CHOICE (log entry 70). -/
def patternRuns (d : Dev) (t : Nat) : Bool := inBurst d t || (svc d t).hem.use = .training

/-- A refresh that falls due now is issued at once where its target is ready, and waits otherwise. -/
def dueNow (d : Dev) (t target at_ : Nat) : Dev :=
  if refreshReady d t target at_ && (chan d t).dueRef.isEmpty && !patternRuns d t then doRefresh d t target at_
  else onChan d t fun c => { c with dueRef := c.dueRef ++ [target] }

/-- Postponement limit (R325). -/
def owedLimit (d : Dev) : Nat := if inForce (getHeat d 0) then 4 else 8
/-- A read waits for a near rank (R326, R327, R367). -/
def readWaits (d : Dev) (t rank : Nat) : Bool := readsOn d t fun b => b / 16 = rank
def owed (c : Chan) (rank : Nat) : Nat := mgetD 0 c.owed rank
def setOwed (c : Chan) (rank n : Nat) : Chan := { c with owed := mputD 0 c.owed rank n }

/-- The schedule has passed a due point. -/
def pastDue (d : Dev) (t rank at_ : Nat) : Dev := onChan d t fun c => { c with base := minsert c.base rank at_ }

/-- A due point of a near rank is reached: the refresh is postponed or issued (R325, R326, R330). DESIGN CHOICE (log entry 82): where the
tile is out of service it is issued as a rank's that never postpones: no rule says that it raises REFRESH_FORCED at the limit. -/
def nearDue (d : Dev) (t k at_ : Nat) : Dev :=
  let c := chan d t
  let latency := rbits d 0x4000 3 2 = 1 && inService d t
  if latency && decide (owedLimit d ≤ owed c k) then dueNow (raise (rinc d (tileOff t 0x188) 1) Ev.REFRESH_FORCED) t k at_
  else if latency && readWaits d t k then onChan d t fun c => setOwed c k (owed c k + 1)
  else dueNow d t k at_

/-- The refresh schedules run: from the end of training on, and not in self-refresh (R329). -/
def scheduleRuns (d : Dev) (t rank : Nat) : Bool :=
  d.boot.trainDone && !d.pins.rstAsserted && !(getRank (chan d t) rank).selfRefresh

/-- REFRESH_DUE: hem cycle `at_` is the next due point of the schedule (R315, R319). -/
def refreshDue (d : Dev) (t target at_ : Nat) : Dev :=
  if isFar t then
    if target ≠ (chan d t).rotor || !scheduleRuns d t 0 || at_ ≠ nextDue d t 0 then d
    else dueNow (onChan (pastDue d t 0 at_) t fun c => { c with rotor := (target + 1) % 48 }) t target at_
  else
    let k := target % 2
    if !scheduleRuns d t k || at_ ≠ nextDue d t k then d else nearDue (pastDue d t k at_) t k at_

/-- REFRESH_REPAY: one owed refresh, each TRFC_N after the one before, while no read of the rank waits (R327); between the bursts of
a training too (log entry 70), while those of a loopback end with LOOPBACK_BURST_END. -/
def refreshRepay (d : Dev) (t rank at_ : Nat) : Dev :=
  let c := chan d t
  if isFar t || owed c rank = 0 || readWaits d t rank || c.dueRef.contains rank || inBurst d t then d
  else if refreshReady d t rank at_ then doRefresh (onChan d t fun c => setOwed c rank (owed c rank - 1)) t rank at_
  else match (banksOf t rank).find? (preOk d t · at_) with
    | some b => doPre d t b at_
    | none => d

/-- RFM_REQUEST (R318): a far stack's request; one already pending is merged. A stack that is not initialised, or is in
self-refresh, makes none. -/
def rfmRequest (d : Dev) (t bank at_ : Nat) : Dev :=
  if !isFar t || 48 ≤ bank || !scheduleRuns d t 0 || !d.pins.ck || (chan d t).rfm.any (fun r => r.1 = bank) then d
  else
    let d1 := onChan d t fun c => { c with rfm := c.rfm ++ [(bank, at_)] }
    if refreshReady d1 t bank at_ && !patternRuns d1 t then (refreshStep d1 t at_).getD d1 else d1

/-! ## Refreshes outside the choice of row commands (R330, R412, R446, R502) -/

/-- The first hem cycle after the last command; in SAFE mode, and after a command in SAFE mode, 64 NCLK later (R408). -/
def nextSlot (c : Chan) (safe : Bool) : Nat :=
  match c.history with | x :: _ => x.at_ + (if safe || x.safe then safeGap else 1) | [] => 0

/-- The first cycle in which a rank takes a command. -/
def rankSlot (tm : Timing) (c : Chan) (safe : Bool) (rank : Nat) : Nat :=
  let r := getRank c rank
  max (nextSlot c safe) (max r.busyTo (match r.upAt with | some u => u + tm.xp | none => 0))

/-- A rank in power-down takes EXIT first, tPD after its entry (R412). -/
def rouse (tm : Timing) (t : Nat) (safe : Bool) (c : Chan) (rank : Nat) : Chan :=
  let r := getRank c rank
  if !r.down then c
  else
    let a := max (nextSlot c safe) (r.downAt + tm.pd)
    record (setRank c rank { r with down := false, upAt := some a }) t { cmd 6 false (16 * rank) 0 0 a with safe := safe }

/-- The first cycle in which an open bank may be precharged. -/
def preSlot (tm : Timing) (b : Bank) : Nat :=
  max (match b.actAt with | some a => a + tm.ras | none => 0) (match b.wrAt with | some a => a + tm.cwl + tm.ccd + tm.wr | none => 0)
/-- The first cycle in which a closed bank may be refreshed. -/
def restSlot (tm : Timing) (b : Bank) : Nat := max b.busyTo (match b.preAt with | some a => a + tm.rp | none => 0)

/-- The first cycle from `at_` on in which a refresh target is free. -/
def freeSlot (d : Dev) (t target at_ : Nat) : Nat :=
  let tm := timing d t
  let c := chan d t
  ((refBanks t target).map fun b => restSlot tm (getBank c b)).foldl max (max at_ (rankSlot tm c (safeRank d t (refRank t target)) (refRank t target)))

/-- A refresh with what it needs before it: EXIT of its rank, precharges of its banks. -/
def refreshAt (at_ : Nat) (t : Nat) (d : Dev) (target : Nat) : Dev :=
  let tm := timing d t
  let k := refRank t target
  let d1 := onChan d t fun c => rouse tm t (safeRank d t k) c k
  let close (d : Dev) (b : Nat) : Dev :=
    let x := getBank (chan d t) b
    if x.openRow.isSome then doPre d t b (max at_ (max (rankSlot tm (chan d t) (safeRank d t k) k) (preSlot tm x))) else d
  let d2 := (refBanks t target).foldl close d1
  doRefresh d2 t target (freeSlot d2 t target at_)

/-- What is due is issued from a cycle on, RFM before refreshes. -/
def issueDue (d : Dev) (t at_ : Nat) : Dev :=
  let rfm := (chan d t).rfm.map Prod.fst
  let due := rfm ++ (chan d t).dueRef
  let d1 := onChan d t fun c => { c with dueRef := [], rfm := [] }
  due.foldl (refreshAt at_ t) (if rfm.isEmpty then d1 else rinc d1 (tileOff t 0x18C) rfm.length)

/-! ## Row commands (R263) -/

/-- A row command for an entry at bank and row: its activate, or the precharge of another row that `keep` does not
protect. -/
def rowFor (d : Dev) (t at_ bank row : Nat) (keep : Nat → Bool) : Option Dev :=
  match (getBank (chan d t) bank).openRow with
  | none => if actOk d t bank at_ then some (doAct d t bank row at_) else none
  | some r =>
    if r = row || keep r || bankDue (chan d t) t bank || !issues d t then none
    else if openTo d t at_ && preOk d t bank at_ then some (doPre d t bank at_) else none

def rowRead (d : Dev) (t at_ : Nat) : Option Dev :=
  let c := chan d t
  (rankedReads d t).findSome? fun e =>
    rowFor d t at_ e.bank (nextRow c e) fun r =>
      (c.rq ++ c.bg.toList).any fun x =>
        x.bank = e.bank && x.cols.any (fun col => x.rowOf col = r) && decide (readPrio d t e ≤ readPrio d t x)

/-- Entries of a round in the order of their commands; an earlier one protects its row. -/
def rowDrain (d : Dev) (t at_ : Nat) : List HEntry → List HEntry → Option Dev
  | _, [] => none
  | seen, e :: es =>
    match rowFor d t at_ e.bank e.row (fun r => seen.any fun x => x.bank = e.bank && x.row = r) with
    | some d1 => some d1
    | none => rowDrain d t at_ (seen ++ [e]) es

/-- ROW_COMMAND_ISSUE: refreshes first (R268). -/
def rowCommand (d : Dev) (t at_ : Nat) : Dev :=
  match (if inBurst d t then none else refreshStep d t at_) with
  | some d1 => d1
  | none =>
    let c := chan d t
    ((if c.mode = .read then rowRead d t at_ else rowDrain d t at_ [] (roundReads c ++ roundAll c))).getD d

/-- ROW_IDLE_CLOSE (R265). -/
def rowIdleClose (d : Dev) (t bank at_ : Nat) : Dev :=
  let c := chan d t
  match (getBank c bank).openRow with
  | some r =>
    if rbits d (tileOff t 0x008) 15 8 = 0 || rowWanted c bank r || !issues d t || !openTo d t at_ || !preOk d t bank at_ then d
    else doPre d t bank at_
  | none => d

/-! ## Power-down (R269, R270) -/

/-- An entry of any kind addresses the rank. -/
def rankWanted (d : Dev) (t rank : Nat) : Bool :=
  let c := chan d t
  let on (b : Nat) : Bool := rankOf t b = rank
  readsOn d t on || (match c.bg with | some e => on e.bank | none => false) || c.ham.any (fun e => on e.bank) ||
  c.tasks.any fun k => taskRank t k = some rank

def refreshPending (c : Chan) (t rank : Nat) : Bool :=
  c.dueRef.any (fun r => refRank t r = rank) || (isFar t && !c.rfm.isEmpty)

/-- The tile is frozen (R271, R276). -/
def isFrozen (d : Dev) (t : Nat) : Bool := (svc d t).state = .out && (svc d t).reason = .frozen

/-- POWER_DOWN_ENTRY: none before training or without a clock (R401, R481), on a frozen tile (R275), or while the rank owes a refresh
(R327); an open row of the rank is precharged first, one for each command. -/
def powerDownEntry (d : Dev) (t rank at_ : Nat) : Dev :=
  let c := chan d t
  let tm := timing d t
  if !(ranksOf t).contains rank || rbits d (tileOff t 0x00C) 15 0 = 0 || rankWanted d t rank || refreshPending c t rank ||
    !scheduleRuns d t rank || !d.pins.ck || 0 < owed c rank || !issues d t || !openTo d t at_ || isFrozen d t then d
  else match (banksOf t rank).find? fun b => (getBank c b).openRow.isSome with
    | some b => if preOk d t b at_ then doPre d t b at_ else d
    | none =>
      if rankUp (getRank c rank) tm at_ && slotFree c true (safeRank d t rank) at_ && (banksOf t rank).all (fun b => (getBank c b).busyTo ≤ at_) then
        onChan d t fun c => record (setRank c rank { getRank c rank with down := true, downAt := at_ })
          t (asSent d t (cmd 5 false (16 * rank) 0 0 at_))
      else d

/-- A near rank owes a refresh that no read holds back (R327). -/
def repays (d : Dev) (t rank : Nat) : Bool := !isFar t && decide (0 < owed (chan d t) rank) && !readWaits d t rank

/-- POWER_DOWN_EXIT: for an entry or a task that addresses the rank, a refresh that is due or one that is to be repaid, once tPD has
passed; after a parity report for a refresh alone (R271, R275, R327). -/
def powerDownExit (d : Dev) (t rank at_ : Nat) : Dev :=
  let c := chan d t
  let r := getRank c rank
  let asked := refreshPending c t rank || repays d t rank || (rankWanted d t rank && issues d t)
  if !r.down || !asked || at_ < r.downAt + (timing d t).pd || !slotFree c true (safeRank d t rank) at_ then d
  else onChan d t fun c => record (setRank c rank { getRank c rank with down := false, upAt := some at_ })
    t (asSent d t (cmd 6 false (16 * rank) 0 0 at_))

/-! ## Closing a channel (R402, R412, R446, R502) -/

/-- PREA of a rank, after its EXIT where it is in power-down. -/
def preAll (tm : Timing) (t : Nat) (safe : Bool) (c : Chan) (rank : Nat) : Chan :=
  let c := rouse tm t safe c rank
  let mine (b : Nat) : Bool := rankOf t b = rank
  let a := ((c.banks.filter fun e => mine e.1 && e.2.openRow.isSome).map fun e => preSlot tm e.2).foldl max (rankSlot tm c safe rank)
  let close (b : Bank) : Bank := { b with openRow := none, preAt := some a }
  let c1 := { c with banks := c.banks.map fun e => (e.1, if mine e.1 && e.2.openRow.isSome then close e.2 else e.2) }
  record c1 t ⟨3, false, 16 * rank, 0, 0, a, true, 3, safe⟩

/-- SRE of a rank once it is idle: no refresh is due for it, and it owes none (R329, R402). -/
def sleepRank (tm : Timing) (t : Nat) (safe : Bool) (c : Chan) (rank : Nat) : Chan :=
  let a := ((banksOf t rank).map fun b => restSlot tm (getBank c b)).foldl max (rankSlot tm c safe rank)
  let c1 := setRank c rank { getRank c rank with selfRefresh := true, down := false }
  record (setOwed c1 rank 0) t ⟨7, false, 16 * rank, 0, 0, a, true, 5, safe⟩

/-- Least cycles from the last command to the EXIT of a near rank from self-refresh: after SRE, tCKSRE to the stop of the clock and
tCKSRX after its start (R412); after the EXIT of the other rank the spacing of SAFE mode (R408). -/
def sleepGap (t : Nat) (c : Chan) : Nat :=
  if isFar t then 1 else match c.history with | x :: _ => if x.safe then safeGap else 12 | [] => 12

/-- EXIT of a rank from self-refresh, in SAFE mode: no command until `wait` cycles later; its schedule goes on after it (R329, R408,
R412). -/
def wakeRank (t wait : Nat) (c : Chan) (rank : Nat) : Chan :=
  let a := slotAfter c (sleepGap t c)
  let c1 := setRank c rank { getRank c rank with selfRefresh := false, upAt := some a, busyTo := a + wait }
  record { c1 with base := minsert c1.base rank a } t ⟨7, false, 16 * rank, 0, 0, a, true, 7, !isFar t⟩

/-- Every rank is precharged and what is due is refreshed (R446). -/
def pauseTile (d : Dev) (t : Nat) : Dev := issueDue (onChan d t fun c => (ranksOf t).foldl (fun c k => preAll (timing d t) t (safeRank d t k) c k) c) t 0

/-- Owed refreshes of a near rank are issued one after another (R502). -/
def repayAll (d : Dev) (t rank : Nat) : Dev :=
  let n := owed (chan d t) rank
  iter n (fun _ d => refreshAt 0 t d rank) (onChan d t fun c => setOwed c rank 0)

/-- A loopback's burst has ended: owed refreshes that no read holds back are repaid (R327, R330). -/
def repayQuiet (d : Dev) (t : Nat) : Dev :=
  (ranksOf t).foldl (fun d k => if repays d t k then repayAll d t k else d) d

/-- Self-refresh entry of a tile (R502). -/
def sleepTile (d : Dev) (t : Nat) : Dev :=
  (ranksOf t).foldl (fun d r => onChan (repayAll d t r) t fun c => sleepRank (timing d t) t (safeRank d t r) c r) (pauseTile d t)

/-- tXS (R412). -/
def wakeWait (d : Dev) (t : Nat) : Nat := if isFar t then 0 else (timing d t).rfc + 10

/-- Its exit (R412, R423). -/
def wakeTile (d : Dev) (t : Nat) : Dev := onChan d t fun c => (ranksOf t).foldl (wakeRank t (wakeWait d t)) c

/-! ## The return of a line (R337 to R344, R422) -/

/-- The stack's reports on a line are counted once each (R420, R422). -/
def eccCount (d : Dev) (l : Loc) (e0 e1 : Ecc) : Dev :=
  if !isFar l.tile then d
  else
    let off := tileOff l.tile 0x210
    let d1 := if e0 = .corrected || e1 = .corrected then raise (rcount d off 15 0 1) Ev.STACK_ECC_CORR else d
    if e0 = .uncorrected || e1 = .uncorrected then
      lint (raise (rcount d1 off 31 16 1) Ev.STACK_ECC_UNCORR) 0x03 (lintLine d1 l)
        (bit (e0 = .uncorrected) + 2 * bit (e1 = .uncorrected))
    else d1

def eccCode (far : Bool) (e0 e1 : Ecc) : Nat :=
  if !far then 0 else if e0 = .uncorrected || e1 = .uncorrected then 2 else if e0 = .corrected || e1 = .corrected then 1 else 0

/-- The read-back of R387 has returned: a FAIL starts a move of the row and is rebuilt like any other. -/
def verifyReturn (d : Dev) (l : Loc) (j prio : Nat) (k : Check) : Dev :=
  let d1 := dropJob d j
  match k with
  | .fail =>
    let d2 := onSvc d1 l.tile fun s => { s with tracker := trackRow l.bank l.row 0 0 true s.tracker }
    startRebuild d2 l .nobody prio true .direct
  | .stain => rinc d1 (tileOff l.tile 0x20C) 1
  | .good => d1

/-- A checked line that was read goes on (R340, R342, R344). -/
def lineChecked (d : Dev) (f : Fly) (l : Loc) (x : DLine) (k : Check) (parity : Bool) : Dev :=
  let d1 := if k = .stain then rinc d (tileOff l.tile 0x20C) 1 else d
  let rebuild (wb : Bool) : Dev := startRebuild d1 l f.owner f.prio wb f.kind (some f.id)
  match f.owner, k with
  | .job j s, _ =>
    match jobKindOf d f.owner, k with
    | some .verify, _ => verifyReturn d l j f.prio k
    | some (.patch _ _ _), .fail | some (.lift _ _), .fail => if parity then jobGot d1 j s x .fail else rebuild true
    | some _, .fail => if isLiftRead d f.owner l then rebuild true else jobGot d1 j s x .fail
    | _, _ => jobGot d1 j s x k
  | .drain _ _, .fail => if parity then deliver d1 f.owner x .good else rebuild false
  | .drain _ _, _ => deliver d1 f.owner x k
  | _, .fail => rebuild true
  | o, k => deliver (pressFill d1 o) o x k

/-- A DELTA whose write command is out gets its old line: the memory takes the new parity line (R255, R261). -/
def deltaWrite (m : SMap DLine) (d : Dev) (t : Nat) (o : Owner) (x : DLine) : SMap DLine × Dev :=
  match o with
  | .drain _ hid =>
    match (chan d t).awaiting.find? (fun e => e.id = hid && e.kind = .delta) with
    | some e =>
      let new := xorLine x e.line
      let keep (w : Wrote) : Wrote := if w.entry.id = hid then { w with after := some new } else w
      let at_ := match (chan d t).recent.find? (fun w => w.entry.id = hid) with | some w => w.at_ | none => 0
      let d1 := onChan d t fun c => { c with awaiting := c.awaiting.filter (fun y => y.id ≠ hid), recent := c.recent.map keep }
      (memPut m (lineKey t e.bank e.row e.col) new, crossLine d1 t (rankOf t e.bank) at_ true new)
    | none => (m, d)
  | _ => (m, d)

def returnCredit (d : Dev) (f : Fly) : Dev :=
  match f.master, f.last with
  | some m, true => pushDue d m f.since true
  | _, _ => d

def isDrain : Owner → Bool
  | .drain _ _ => true
  | _ => false

/-- LINE_READ_RETURN: the oldest read of the channel returns, with the bits that the array, the link and the stack's own
correction have changed; a line whose contents are undefined comes as a free line. After a parity report its data is discarded (R272).
An old parity line that FAILs is never merged (R339);
no rule says what its DELTA entry then writes: a free line, DESIGN CHOICE (log entry 9). -/
def lineReturn (m : SMap DLine) (d : Dev) (t : Nat) (fd : LineData) (fm : BitVec 32) (e0 e1 : Ecc) : SMap DLine × Dev :=
  match (chan d t).fly, (chan d t).alert with
  | f :: rest, none =>
    let l : Loc := ⟨t, f.bank, f.orow, f.col⟩
    let d0 := returnCredit (onChan d t fun c => { c with fly := rest }) f
    let role := roleOf d0 l
    let isData := match role with | .data _ => true | _ => false
    let bolt := lineBolt d0 l
    let blank := !isValid d0 bolt
    let (raw, dr) := match f.content with | some x => (x, d0) | none => freeLine d0
    let d1 := crossLine dr t (rankOf t f.bank) f.at_ false raw
    let x : DLine := ⟨raw.data ^^^ fd, raw.code ^^^ fm⟩
    let ecc := eccCode (isFar t) e0 e1
    if blank then
      let (m1, d3) := deltaWrite m (eccCount d1 l e0 e1) t f.owner x
      (m1, channelFreed (match f.owner with
        | .job j s => (match jobKindOf d3 f.owner with | some .verify => dropJob d3 j | _ => jobGot d3 j s ⟨0, 0⟩ .good)
        | .drain _ _ => deliver d3 f.owner x .good
        | o => deliver d3 o ⟨0, 0⟩ .good) t)
    else
      let k : Check := if isData then (if f.content.isNone then .fail else checkLine l x (ecc = 2)) else if ecc = 2 then .fail else .good
      let d2 := if k = .fail then recordFail d1 l f.kind.num ecc else d1
      let d3 := eccCount d2 l e0 e1
      let (x, d3) := if k = .fail && !isData && isDrain f.owner then freeLine d3 else (x, d3)
      let (m1, d4) := deltaWrite m d3 t f.owner x
      (m1, channelFreed (lineChecked d4 f l x k (!isData)) t)
  | _, _ => (m, d)

/-! ## Commands -/

/-- A meaning that also acts on the memory. -/
def onMem (s : State) (f : SMap DLine → Dev → SMap DLine × Dev) : Host.Outcome State Fault Refusal :=
  let r := f s.dram s.dev
  .next { s with dram := r.1, dev := r.2 }

/-- HWM_DRAIN (R259). -/
def execHwmDrain (t : Fin 320) (s : State) : Host.Outcome State Fault Refusal := onDev s (hwmDrain · t.val)
/-- FORCED_DRAIN (R259). -/
def execForcedDrain (t : Fin 320) (s : State) : Host.Outcome State Fault Refusal := onDev s (forcedDrain · t.val)
/-- IDLE_DRAIN (R259). -/
def execIdleDrain (t : Fin 320) (s : State) : Host.Outcome State Fault Refusal := onDev s (idleDrain · t.val)
/-- DRAIN_ROUND_END (R261). -/
def execDrainRoundEnd (t : Fin 320) (s : State) : Host.Outcome State Fault Refusal := onDev s (drainRoundEnd · t.val)
/-- WRITE_AGE_URGENT (R260). -/
def execWriteAgeUrgent (t : Fin 320) (s : State) : Host.Outcome State Fault Refusal := onDev s (writeAgeUrgent · t.val)
/-- READ_ESCALATE (R262). -/
def execReadEscalate (t : Fin 320) (bg : Bool) (s : State) : Host.Outcome State Fault Refusal := onDev s (readEscalate · t.val bg)
/-- COLUMN_COMMAND_ISSUE (R263). -/
def execColumnCommandIssue (t : Fin 320) (at_ : Nat) (s : State) : Host.Outcome State Fault Refusal :=
  onMem s fun m d => columnCommand m d t.val at_
/-- ROW_COMMAND_ISSUE (R263). -/
def execRowCommandIssue (t : Fin 320) (at_ : Nat) (s : State) : Host.Outcome State Fault Refusal := onDev s (rowCommand · t.val at_)
/-- ROW_IDLE_CLOSE (R265). -/
def execRowIdleClose (t : Fin 320) (bank : BitVec 6) (at_ : Nat) (s : State) : Host.Outcome State Fault Refusal :=
  onDev s (rowIdleClose · t.val bank.toNat at_)
/-- POWER_DOWN_ENTRY (R269). -/
def execPowerDownEntry (t : Fin 320) (rank : Fin 2) (at_ : Nat) (s : State) : Host.Outcome State Fault Refusal :=
  onDev s (powerDownEntry · t.val rank.val at_)
/-- POWER_DOWN_EXIT (R270). -/
def execPowerDownExit (t : Fin 320) (rank : Fin 2) (at_ : Nat) (s : State) : Host.Outcome State Fault Refusal :=
  onDev s (powerDownExit · t.val rank.val at_)
/-- LINE_READ_RETURN (R339). -/
def execLineReadReturn (t : Fin 320) (fd : LineData) (fm : BitVec 32) (e0 e1 : Ecc) (s : State) :
    Host.Outcome State Fault Refusal :=
  onMem s fun m d => lineReturn m d t.val fd fm e0 e1
/-- REBUILD_DONE (R340). -/
def execRebuildDone (p : Fin 20) (s : State) : Host.Outcome State Fault Refusal :=
  onDev s fun d => settlePanel (rebuildDone d p.val) p.val
/-- STAIN_CONVERSION (R341). -/
def execStainConversion (p : Fin 20) (s : State) : Host.Outcome State Fault Refusal :=
  onDev s fun d => settlePanel (stainConversion d p.val) p.val
/-- RECONSTRUCT_WRITE (R370). -/
def execReconstructWrite (p : Fin 20) (s : State) : Host.Outcome State Fault Refusal :=
  onDev s fun d => settlePanel (reconstructWrite d p.val) p.val
/-- REFRESH_DUE (R319). -/
def execRefreshDue (t : Fin 320) (target : BitVec 6) (at_ : Nat) (s : State) : Host.Outcome State Fault Refusal :=
  onDev s (refreshDue · t.val target.toNat at_)
/-- REFRESH_REPAY (R327). -/
def execRefreshRepay (t : Fin 320) (rank : Fin 2) (at_ : Nat) (s : State) : Host.Outcome State Fault Refusal :=
  onDev s (refreshRepay · t.val rank.val at_)
/-- RFM_REQUEST (R318). -/
def execRfmRequest (t : Fin 320) (bank : BitVec 6) (at_ : Nat) (s : State) : Host.Outcome State Fault Refusal :=
  onDev s (rfmRequest · t.val bank.toNat at_)

end Sys2Proof.Machine
end

