-- ==== Sys2Proof/Machine/Heat.lean ====
section
/-!
DEFINITION. The temperature polls of the regions: readings, LOST, doubling, throttle steps (R321 to R333).
-/
namespace Sys2Proof.Machine

/-- A temperature as a signed integer. -/
def degC (b : BitVec 8) : Int := b.toInt

/-- DLT_TEMP after one read of a tile (R321, DLT_TEMP). -/
def tempWord (w : Word) (l0 l1 : Option (BitVec 8)) (far : Bool) : Word :=
  let w0 := match l0 with | some v => setBits w 7 0 v.toNat | none => w
  let w1 := match l1 with | some v => setBits w0 15 8 v.toNat | none => w0
  setBits w1 31 31 (bit (l0.isSome && (far || l1.isSome)))

def maxTemp (a : Option (BitVec 8)) : Option (BitVec 8) → Option (BitVec 8)
  | none => a
  | some v => match a with
    | none => some v
    | some x => if degC x < degC v then some v else some x

/-- One near tile in service reads MR4 of its two layers, which their own sensors have set (R410, R411). -/
def pollNear (r : Readings) (acc : Dev × Option (BitVec 8)) (t : Nat) : Dev × Option (BitVec 8) :=
  if !inService acc.1 t then acc
  else
    let v := match r.near.find? (fun e => e.1.val = t) with
      | some e => e.2
      | none => (none, none)
    let d0 := onLayer (onLayer acc.1 t 0 (layerTemp · v.1)) t 1 (layerTemp · v.2)
    let l0 := tempOf (mrrLine (layerOf d0 t 0) 4)
    let l1 := tempOf (mrrLine (layerOf d0 t 1) 4)
    let off := tileOff t 0x184
    let d1 := rset d0 off (tempWord (rget d0 off) l0 l1 false)
    (addTasks d1 t [.temp 0, .temp 1], maxTemp (maxTemp acc.2 l0) l1)

/-- The reading of a region, and whether it has a tile in service (R321). -/
def pollRegion (r : Readings) (d : Dev) (g : Nat) : Dev × Option (BitVec 8) × Bool :=
  if g = 0 then
    let (d1, v) := (List.range 256).foldl (pollNear r) (d, none)
    (d1, v, (List.range 256).any (inService d))
  else
    match ((List.range 32).map (256 + 32 * (g - 1) + ·)).find? (inService d) with
    | some t =>
      let v := stackTemp (if g = 1 then r.far0 else r.far1)
      let off := tileOff t 0x184
      (addTasks (rset d off (tempWord (rget d off) v none true)) t [.temp 0], v, true)
    | none => (d, none, false)

/-- c of R331. -/
def throttleTarget (d : Dev) (g : Nat) (t : Int) (lost : Bool) : Nat :=
  let w := rget d (0xC010 + 4 * g)
  let crit := signed 8 (bits w 23 16)
  let thr := signed 8 (bits w 15 8)
  let width := max 1 (bits w 27 24)
  if crit ≤ t || lost then 7
  else if thr < t then min 7 (((t - thr).toNat + width - 1) / width)
  else 0

/-- Step and hold after a poll (R331). -/
def nextStep (step hold c stepHold : Nat) : Nat × Nat :=
  if step < c then (c, 0)
  else if c < step then (if max 1 stepHold ≤ hold + 1 then (step - 1, 0) else (step, hold + 1))
  else (step, 0)

/-- Whether a region is doubled after a poll (R323): it was, and has not fallen below the hysteresis, or it has risen. -/
def nextDoubled (was : Bool) (t dbl : Int) (hyst : Nat) : Bool := decide (dbl ≤ t) || (was && !decide (t < dbl - hyst))

/-- The state of a region after a poll that read v, from a region with or without a tile in service (R322, R323, R331). -/
def heatNext (d : Dev) (g : Nat) (h : RegionHeat) (v : Option (BitVec 8)) (alive : Bool) : RegionHeat :=
  let miss := max 1 (rbits d 0xC000 19 16)
  let dblT := signed 8 (rbits d (0xC010 + 4 * g) 7 0)
  let h1 : RegionHeat := match v with
    | some x => { h with temp := x, misses := 0, lost := false, doubled := h.doubled || h.lost }
    | none => { h with misses := min (h.misses + 1) 16, lost := h.lost || !alive || decide (miss ≤ h.misses + 1) }
  let t := degC h1.temp
  let s := nextStep h1.step h1.hold (throttleTarget d g t h1.lost) (rbits d 0xC020 7 0)
  { h1 with doubled := nextDoubled h1.doubled t dblT (rbits d 0xC000 11 8), step := s.1, hold := s.2,
            crit := decide (signed 8 (rbits d (0xC010 + 4 * g) 23 16) ≤ t) }

/-- The hem cycle in which the doubled spacing begins or ends (R324). -/
def spaced (h n : RegionHeat) (at_ : Nat) : RegionHeat :=
  if inForce n && !inForce h then { n with halfFrom := at_, halfTo := none }
  else if inForce h && !inForce n then { n with halfTo := some at_ } else n

def raiseIf (b : Bool) (d : Dev) (e : Nat) : Dev := if b then raise d e else d

/-- Refreshes owed above the lower limit are issued at once (R328). -/
def repayAbove (d : Dev) : Dev :=
  (List.range 256).foldl (fun d t => [0, 1].foldl (fun d k =>
    let n := owed (chan d t) k
    if 4 < n then onChan d t fun c => { setOwed c k 4 with dueRef := c.dueRef ++ List.replicate (n - 4) k } else d) d) d

/-- A region's poll. -/
def pollOne (r : Readings) (d : Dev) (g : Nat) : Dev :=
  let (d1, v, alive) := pollRegion r d g
  let h := getHeat d g
  let n := spaced h (heatNext d g h v alive) (if g = 0 then r.nclk else if g = 1 then r.fclk0 else r.fclk1)
  let d2 := setHeat d1 g n
  let d3 := raiseIf (n.lost && !h.lost) d2 Ev.TEMP_LOST
  let d4 := raiseIf (n.crit && !h.crit) d3 Ev.THERMAL_CRITICAL
  let d5 := raiseIf (inForce n != inForce h) d4 Ev.REFRESH_DOUBLED
  let d6 := raiseIf (n.step ≠ h.step) d5 Ev.THROTTLE_STEP
  if g = 0 && inForce n && !inForce h then repayAbove d6 else d6

def pollAll (d : Dev) (r : Readings) : Dev := (List.range 3).foldl (pollOne r) d

/-- The poll period in TCLK (DLH_CTRL). -/
def pollPeriod (d : Dev) : Nat := max 1 (rbits d 0xC000 7 0) * 65536

/-- The period that ran from the last poll has passed. -/
def pollDue (d : Dev) : Bool :=
  match d.polled with | some c => decide (d.pollLen ≤ (d.cycle - c).toNat) | none => true

/-- A poll begins; the period to the next one is POLL as it stands now (R334). -/
def pollNow (d : Dev) : Dev := { d with polled := some d.cycle, pollLen := pollPeriod d }

/-- TEMP_POLL: after a step the slices take up what they may (R333). -/
def tempPoll (d : Dev) (r : Readings) : Dev :=
  if !d.boot.trainDone || !pollDue d then d
  else (List.range 20).foldl settlePanel (pollAll (pollNow d) r)

/-- TEMP_POLL (R321). -/
def execTempPoll (r : Readings) (s : State) : Host.Outcome State Fault Refusal := onDev s (tempPoll · r)

end Sys2Proof.Machine
end

