-- ==== Sys2Proof/Machine/Training.lean ====
section
/-!
DEFINITION. Commands that a hem issues outside the scheduler, each in the first cycle in which it may go: to the layers' mode
registers, for training (R405, R408 to R410, R414, R415), and for the line accesses of a start (R408, R412, R423).
-/
namespace Sys2Proof.Machine

/-! ## The first cycle for a command (R266, R408, R412) -/

/-- A rank in power-down or self-refresh acts on no command but EXIT: it takes that first (R405, R412). -/
def readyRank (tm : Timing) (d : Dev) (t rank : Nat) : Dev :=
  onChan d t fun c => if (getRank c rank).selfRefresh then wakeRank t (wakeWait d t) c rank else rouse tm t (safeRank d t rank) c rank

/-- The first cycle for a command of a rank; in SAFE mode 64 NCLK after the last command. -/
def baseCycle (tm : Timing) (d : Dev) (t rank : Nat) : Nat :=
  let c := chan d t
  max (max c.quietTo (rankSlot tm c (safeRank d t rank) rank)) (if safeRank d t rank then slotAfter c safeGap else 0)

/-- The first cycle for a column command; a far hem in SAFE mode issues one in 8 FCLK (R423). -/
def colCycle (tm : Timing) (d : Dev) (t rank : Nat) (wr slow : Bool) : Nat :=
  let c := chan d t
  let least (x : Option Nat) (n : Nat) : Nat := match x with | some y => y + n | none => 0
  let turn := if wr then least (lastRead c) tm.rtw else least (getRank c rank).wrAt tm.wtr
  max (baseCycle tm d t rank) (max (least c.colAt (if isFar t && slow then 8 else tm.ccd)) turn)

/-- The first cycle for a precharge of an open bank. -/
def preCycle (tm : Timing) (d : Dev) (t bank : Nat) : Nat :=
  max (baseCycle tm d t (rankOf t bank)) (preSlot tm (getBank (chan d t) bank))

/-- The first cycle for an activate of a closed bank. -/
def actCycle (tm : Timing) (d : Dev) (t bank : Nat) : Nat :=
  let b := getBank (chan d t) bank
  let r := getRank (chan d t) (rankOf t bank)
  let least (x : Option Nat) (n : Nat) : Nat := match x with | some y => y + n | none => 0
  [restSlot tm b, least b.actAt tm.rc, least r.acts.head? tm.rrd, least r.acts[3]? tm.faw].foldl max (baseCycle tm d t (rankOf t bank))

/-! ## Commands to one layer (R403, R410, R414) -/

/-- A column command to one layer with the line that crosses: CCODE 1 RD and 2 WR of the training FIFO, 3 MRR, 4 MRW, 5 TRK. -/
def layerCmd (tm : Timing) (t rank reg sub : Nat) (wr : Bool) (x : DLine) (d : Dev) : Dev :=
  let d1 := readyRank tm d t rank
  let a := colCycle tm d1 t rank wr false
  let code := if sub = 1 || sub = 2 then sub else 7
  let go (c : Chan) : Chan :=
    let r := getRank c rank
    record { setRank c rank (if wr then { r with wrAt := some a } else { r with rdAt := some a }) with colAt := some a } t
      (asSent d1 t ⟨code, false, 16 * rank + reg, 0, 0, a, false, sub, false⟩)
  crossLine (onChan d1 t go) t rank a wr x

/-- The cycle of the last command. -/
def lastAt (d : Dev) (t : Nat) : Nat := match (chan d t).history with | x :: _ => x.at_ | [] => 0

/-- MRW: the hem writes a mode register of one layer. -/
def sendMrw (tm : Timing) (t rank : Nat) (d : Dev) (w : Nat × BitVec 16) : Dev :=
  let old := (mrOf (layerOf d t rank) w.1).toNat
  let d1 := layerCmd tm t rank w.1 4 true (valueLine w.2) d
  onLayer (noteMode d1 t (lastAt d1 t) rank (.mr w.1 old)) t rank fun x => mrw x w.1 (valueLine w.2)

/-- MRR: the hem reads a mode register of one layer. -/
def sendMrr (tm : Timing) (t rank : Nat) (d : Dev) (reg : Nat) : Dev := layerCmd tm t rank reg 3 false (mrrLine (layerOf d t rank) reg) d

/-- TRK: the layer returns the next two bits of its read-training pattern. -/
def sendTrk (tm : Timing) (t rank : Nat) (d : Dev) : Dev :=
  let x := layerOf d t rank
  let d1 := layerCmd tm t rank 0 5 false (trkLine x) d
  onLayer (noteMode d1 t (lastAt d1 t) rank .trk) t rank fun x => { x with trks := x.trks + 1 }

/-- Both layers of a near channel, one after the other. -/
def eachLayer (f : Nat → Dev → Dev) (d : Dev) : Dev := f 1 (f 0 d)

/-- A script of mode register writes for both layers of a near channel. -/
def sendScript (d : Dev) (t : Nat) (l : List (Nat × BitVec 16)) : Dev :=
  let tm := timing d t
  eachLayer (fun k d => l.foldl (sendMrw tm t k) d) d

/-- Sixteen lines of generator pattern go into a layer's training FIFO and come back (R414, R417). DESIGN CHOICE (log entry 46): no
rule says which pattern they carry; each is the line that the rank's next TRK would return. -/
def fifoBatch (tm : Timing) (t rank : Nat) (d : Dev) : Dev :=
  let l := trkLine (layerOf d t rank)
  let put (d : Dev) : Dev :=
    let d1 := layerCmd tm t rank 0 2 true l d
    let full := decide (16 ≤ (layerOf d t rank).fifo.length)
    onLayer (if full then d1 else noteMode d1 t (lastAt d1 t) rank .fifoWr) t rank fun x => fifoWr x l
  let take (d : Dev) : Dev :=
    let r := fifoRd (layerOf d t rank)
    let d1 := layerCmd tm t rank 0 1 false (r.1.getD l) d
    onLayer (noteMode d1 t (lastAt d1 t) rank (.fifoRd r.1)) t rank fun _ => r.2
  iter 16 (fun _ => take) (iter 16 (fun _ => put) d)

/-! ## Training of a near hem (R414, R415) -/

/-- A layer comes to SAFE mode where it is not there. -/
def enterSafe (tm : Timing) (t rank : Nat) (d : Dev) : Dev :=
  if isSafe (layerOf d t rank) then d else sendMrw tm t rank d (6, 1)

/-- In command training the layer drives the sampled buses on dq[35:0], CL after the NCLK in which it sampled them, for a whole NCLK
(R408, R414). -/
def catrn (t rank : Nat) (d : Dev) : Dev :=
  let s := (chan d t).seam
  let x := (catrnLine s).setWidth 512
  onChan d t (driveLine ⟨x ||| x <<< (256 : Nat), 0⟩ false false (s.at_ + layerCl (layerOf d t rank)))

/-- Lines of step 6 for each rank and rate. -/
def verifyLines : Nat := 4096

/-- The reads of a rank go on for n cycles. -/
def readOn (rank n : Nat) (c : Chan) : Chan :=
  let r := getRank c rank
  { setRank c rank { r with rdAt := r.rdAt.map (· + n) } with colAt := c.colAt.map (· + n) }

/-- Step 6 on one rank at one rate. Its batches are alike: those between the second and the last leave nothing but their time. -/
def verifyRank (tm : Timing) (t rank : Nat) (d : Dev) : Dev :=
  let d1 := fifoBatch tm t rank d
  let d2 := fifoBatch tm t rank d1
  fifoBatch tm t rank (onChan d2 t (readOn rank ((verifyLines / 16 - 3) * (lastAt d2 t - lastAt d1 t))))

/-- The steps of R414 in their order as far as the one that fails, on both ranks; steps 4 to 6 at both rates (R415). DESIGN CHOICE
(log entry 46): each of these steps runs at both rates before the next one begins. -/
def trainHem (d : Dev) (t : Nat) (r : Trial) : Dev :=
  if isFar t then d
  else
    let tm := timing d t
    let last := (failStep d t r).getD 7
    let step (n : Nat) (f : Nat → Dev → Dev) (d : Dev) : Dev := if n ≤ last then eachLayer f d else d
    let rates (f : Nat → Dev → Dev) (d : Dev) : Dev := eachLayer f (eachLayer f d)
    let d1 := step 1 (fun k d => sendMrr tm t k (sendMrr tm t k (enterSafe tm t k d) 0) 1) d
    let d2 := step 2 (fun k d => catrn t k (sendMrw tm t k d (6, 3))) d1
    let d3 := step 3 (fun k d => (normalScript d).foldl (sendMrw tm t k) d) d2
    let d4 := if 4 ≤ last then rates (sendTrk tm t) d3 else d3
    let d5 := if 5 ≤ last then
        rates (fifoBatch tm t) (eachLayer (fun k d => onLayer (sendMrw tm t k d (6, 4)) t k fun x => { x with fifo := [] }) d4) else d4
    let d6 := if 6 ≤ last then rates (verifyRank tm t) d5 else d5
    step 7 (fun k d => sendMrw tm t k d (6, 0)) d6

/-! ## Line accesses of a start (R408, R412, R423) -/

/-- The row of a line is opened where it is not. -/
def openRow (tm : Timing) (d : Dev) (l : Loc) : Dev :=
  let t := l.tile
  let row := redirect d l
  let d := readyRank tm d t (rankOf t l.bank)
  match (getBank (chan d t) l.bank).openRow with
  | some r =>
    if r = row then d
    else
      let d1 := doPre d t l.bank (preCycle tm d t l.bank)
      doAct d1 t l.bank row (actCycle tm d1 t l.bank)
  | none => doAct d t l.bank row (actCycle tm d t l.bank)

/-- The first cycle for a column command to an open row. -/
def accessCycle (tm : Timing) (d : Dev) (l : Loc) (wr slow : Bool) : Nat :=
  let b := getBank (chan d l.tile) l.bank
  max (colCycle tm d l.tile (rankOf l.tile l.bank) wr slow) (match b.actAt with | some a => a + tm.rcd | none => 0)

/-- A DIRECT read of a master in a start, from its entry to the line on the pins (R250, R252). -/
def startRead (m : SMap DLine) (master : Nat) (slow : Bool) (d : Dev) (l : Loc) : Dev :=
  let t := l.tile
  let tm := timing d t
  let d1 := openRow tm (addRead d .direct l .nobody 0 (some (master, d.cycle))) l
  match (chan d1 t).rq.find? fun e => e.id = (chan d t).nextId with
  | none => d1
  | some e =>
    let at_ := accessCycle tm d1 l false slow
    let d2 := issueRd m (onChan d1 t fun c => dropCol c e.id l.col) t at_ (readFly e l.col)
    let (x, d3) := match (chan d2 t).fly.find? fun f => f.id = e.id with
      | some ⟨_, _, _, _, _, _, _, some x, _, _, _, _, _⟩ => (x, d2)
      | _ => freeLine d2
    onChan (crossLine d3 t (rankOf t l.bank) at_ false x) t fun c => { c with fly := c.fly.filter fun f => f.id ≠ e.id }

/-- A FULL write of a master in a start, from its entry to the memory (R250, R253). -/
def startWrite (slow : Bool) (bolt : Nat) (s : SMap DLine × Dev) (e : Loc × DLine) : SMap DLine × Dev :=
  let t := e.1.tile
  let h := hamEntry s.2 .full e.1 bolt e.2 false
  let tm := timing s.2 t
  let d1 := openRow tm (onChan s.2 t fun c => { c with nextId := c.nextId + 1, ham := c.ham ++ [h] }) e.1
  writeCmd s.1 d1 t (accessCycle tm d1 e.1 true slow) h

end Sys2Proof.Machine
end

