-- ==== Sys2Proof/Machine/Service.lean ====
section
/-!
DEFINITION. Service of a tile's channel: parity reports and freezes, take-outs, lift copies, marking, the return walk
(R271 to R277, R361 to R385).
-/
namespace Sys2Proof.Machine

def SvcState.code : SvcState → Nat
  | .in_ => 0 | .lifting => 1 | .out => 2 | .returning => 3
def Reason.code : Reason → Nat
  | .marking => 0 | .frozen => 1 | .keepOut => 2 | .held => 3

/-- Read tracking ends where the tile goes out (R418, R424). -/
def idleHem (s : Svc) : Svc := if s.hem.use = .tracking then { s with hem := { s.hem with use := .idle } } else s

/-- The tile enters OUT (R362, R364); the hem's own calibration goes on (R424). -/
def enterOut (d : Dev) (t : Nat) (r : Reason) : Dev :=
  let go (d : Dev) : Dev :=
    onChan (onSvc d t fun s => { idleHem s with state := .out, reason := r, draining := false }) t fun c => { c with tasks := c.tasks.filter (· = .gap) }
  let d1 := withDouble (panelOf d t) go d
  lint (raise d1 Ev.CHANNEL_OUT) 0x23 { tile := t } 2 r.code

/-! ## Parity reports and freezes (R271 to R275) -/

/-- Length of the alert window (R271). -/
def alertLen (t : Nat) : Nat := if isFar t then 32 else 4
def inWindow (t at_ : Nat) (a : Alert) : Bool := decide (at_ < a.at_ ∧ a.at_ ≤ at_ + alertLen t)

/-- The layers that report count the error, once for each bus that failed (R407, R409). -/
def countPerr (d : Dev) (t : Nat) (source : BitVec 2) (n : Nat) : Dev :=
  if isFar t then d
  else [0, 1].foldl (fun d k => if source.getLsbD k then iter n (fun _ d => onLayer d t k layerPerr) d else d) d

/-- The pulse of a layer's report lasts two NCLK; one that begins while the bit is low, or as it rises, goes on without a new
report (R407). -/
def isNewPulse (c : Chan) (t : Nat) (source : BitVec 2) (at_ : Nat) : Bool :=
  isFar t || [0, 1].any fun k => source.getLsbD k && (match mget c.lowTo k with | some n => decide (n + 1 < at_ ∨ at_ + 1 < n) | none => true)
def holdLow (t : Nat) (source : BitVec 2) (at_ : Nat) (c : Chan) : Chan :=
  if isFar t then c
  else { c with lowTo := [0, 1].foldl (fun m k => if source.getLsbD k then minsert m k (at_ + 1) else m) c.lowTo }

/-- A parity report during E5 makes the entry fail (R503). -/
def failEntry (d : Dev) : Dev := if d.boot.warmState = 4 then { d with boot := { d.boot with warmState := 6 } } else d

/-- The layers that report are in SAFE mode. -/
def reportSafe (d : Dev) (t : Nat) (source : BitVec 2) : Bool :=
  source != 0 && [0, 1].all fun k => !source.getLsbD k || isSafe (layerOf d t k)

/-- The NCLK in which the buses that a near report names failed, and which of them did. -/
def failingCycle (d : Dev) (t : Nat) (source : BitVec 2) (flips : BusFlips) (at_ : Nat) : Option (Nat × Bool × Bool) :=
  let safe := reportSafe d t source
  ((alertLag safe).map fun n => (at_ - n, busFails safe (busAt (chan d t) t (at_ - n)) flips)).find? fun e => e.2.1 || e.2.2

/-- A layer discards a command of NCLK n to its mode registers, its pattern or its FIFO, whose bus failed: what it changed is taken
back (R407). -/
def discardMode (t n : Nat) (d : Dev) (k : Nat) : Dev :=
  let c := chan d t
  let second (a : Nat) : Bool := a + 1 = n && c.history.any fun x => x.at_ = a && x.safe
  let lost (e : ModeWrite) : Bool := e.rank = k && (e.at_ = n || second e.at_)
  match c.mrws.find? lost with
  | none => d
  | some e =>
    let since := ((c.mrws.takeWhile fun x => !lost x).filter fun x => x.rank = k).map ModeWrite.undo
    onLayer (onChan d t fun c => { c with mrws := c.mrws.filter fun x => !lost x }) t k (undoMode since e.undo)

/-- A layer discards a row command of NCLK n: a rank that was to enter power-down or self-refresh has not, and one that was to leave it
stays there (R402, R407). The banks of a channel that has reported are closed by its freeze, and a lost refresh leaves nothing to take
back (R275). DESIGN CHOICE (log entry 79): the hem then treats the rank as its layer does. -/
def discardRow (t n : Nat) (d : Dev) (k : Nat) : Dev :=
  let c := chan d t
  let lost (x : Cmd) : Bool := x.onRow && x.bank / 16 = k && (x.at_ = n || (x.safe && x.at_ + 1 = n))
  let rank (d : Dev) (f : Rank → Rank) : Dev := onChan d t fun c => setRank c k (f (getRank c k))
  match c.history.find? lost with
  | none => d
  | some x =>
    if x.code = 5 then rank d fun r => { r with down := false }
    else if x.code = 6 then rank d fun r => { r with down := true }
    else if x.code = 7 && x.sub = 5 then
      onLayer (rank d fun r => { r with selfRefresh := false }) t k fun y => { y with mr6 := if x.safe then y.mr6 ||| 1 else y.mr6 &&& 0xFFFE }
    else if x.code = 7 && x.sub = 7 then rank d fun r => { r with selfRefresh := true }
    else d

/-- The layers that report discard what the column bus, or the row bus, lost. -/
def discard (d : Dev) (t n : Nat) (source : BitVec 2) (row col : Bool) : Dev :=
  let ks := [0, 1].filter fun k => source.getLsbD k
  let d1 := if col then ks.foldl (discardMode t n) d else d
  if row then ks.foldl (discardRow t n) d1 else d1

/-- A report stops the hem, and keeps the command that the column bus lost. -/
def setAlert (source : BitVec 2) (at_ : Nat) (bad : List (Nat × BitVec 2)) (c : Chan) : Chan :=
  { c with alert := some (match c.alert with
    | some a => { a with source := a.source ||| source, bad := a.bad ++ bad }
    | none => ⟨source, at_, bad⟩) }

/-- PARITY_REPORT (R271, R275, R362). A near layer reports in the fourth NCLK after one in which a bus failed its check while
its clock ran (R406, R407); the stack checks by itself (R420). DESIGN CHOICE (log entry 78): one report of both layers of a tile counts
once in DLT_HEM_ALERT. -/
def parityReport (d : Dev) (t : Nat) (source : BitVec 2) (flips : BusFlips) (onRefresh : Bool) (at_ : Nat) : Dev :=
  let fails := if isFar t then some (at_, false, false) else failingCycle d t source flips at_
  match fails with
  | none => d
  | some (n, row, col) =>
    if source = 0 || !d.pins.ck then d
    else
      let new := isNewPulse (chan d t) t source at_
      let dd := discard d t n source row col
      let d0 := onChan (countPerr dd t source (bit row + bit col)) t (holdLow t source at_)
      let d1 := failEntry (if new then rinc d0 (tileOff t 0x310) 1 else d0)
      let s := svc d t
      if s.state ≠ .out then onChan d1 t (setAlert source at_ (if col then [(n, source)] else []))
      else if !new then d1
      else if s.reason = .frozen && onRefresh then
        onSvc d1 t fun s => { s with snap := s.snap.map fun x => { x with refErr := min (x.refErr + 1) 0xFF } }
      else lint d1 0x26 { tile := t }

/-- Write commands of the window, newest first. -/
def windowWrites (c : Chan) (t : Nat) (a : Alert) : List Wrote := c.recent.filter fun w => inWindow t w.at_ a

def memSet (m : SMap DLine) (k : Nat) : Option DLine → SMap DLine
  | some x => memPut m k x
  | none => merase m k

def wroteKey (t : Nat) (w : Wrote) : Nat := lineKey t w.entry.bank w.entry.row w.entry.col

/-- A write of the window was discarded or executed. A near layer discards what its column bus lost and executes what follows
(R407); which command a stack lost nothing tells: a free choice for each (R272, log entry 9). -/
def redoWrite (t : Nat) (a : Alert) (acc : SMap DLine × Dev) (w : Wrote) : SMap DLine × Dev :=
  if isFar t then
    (if Config.freeChoice acc.2.free then memSet acc.1 (wroteKey t w) w.after else acc.1, { acc.2 with free := acc.2.free + 1 })
  else
    let lost := a.bad.any fun b => b.1 = w.at_ && b.2.getLsbD (rankOf t w.entry.bank)
    (if lost then acc.1 else memSet acc.1 (wroteKey t w) w.after, acc.2)

/-- The memory after a freeze. A DELTA whose old line never came was written with a line that nothing defines. -/
def freezeMem (m : SMap DLine) (d : Dev) (t : Nat) (a : Alert) : SMap DLine × Dev :=
  let c := chan d t
  let ws := windowWrites c t a
  let m1 := ws.foldl (fun m w => memSet m (wroteKey t w) w.before) m
  let lost := c.awaiting.filter fun e => e.kind = .delta && !ws.any (fun w => w.entry.id = e.id)
  let m2 := lost.foldl (fun m e => merase m (lineKey t e.bank e.row e.col)) m1
  ws.reverse.foldl (redoWrite t a) (m2, d)

/-- Reads whose data was discarded count as not issued (R272). -/
def flyEntry (f : Fly) : REntry := ⟨0, f.kind, f.bank, f.row, f.row, [f.col], f.orow, f.owner, f.prio, false, f.since, f.master⟩
def liveReads (c : Chan) : List REntry :=
  (c.fly.filter fun f => f.kind = .fill || f.kind = .direct).map flyEntry ++ c.rq
def liveBg (c : Chan) : List REntry := (c.fly.filter fun f => f.kind = .bg).map flyEntry ++ c.bg.toList

/-- Hamper entries of a freeze in the order of their creation; written ones of the window return with WINDOW. -/
def liveHam (c : Chan) (t : Nat) (a : Alert) : List HEntry :=
  let inFlight (h : HEntry) : Bool := c.fly.any fun f => f.owner = .drain t h.id
  let back := (windowWrites c t a).map fun w =>
    let e := (c.awaiting.find? fun x => x.id = w.entry.id).getD w.entry
    { e with window := true, deltaSent := e.deltaSent || (e.kind = .data && !(c.awaiting.any fun x => x.id = e.id)) }
  let rest := c.awaiting.filter fun e => !back.any fun x => x.id = e.id
  let reset (h : HEntry) : HEntry := if inFlight h then { h with drained := false } else h
  ((back ++ rest ++ c.ham).map reset).foldr (insertBy fun x y => x.id ≤ y.id) []

def snapWord (k : EKind) (sent win : Bool) (bank row col : Nat) (urgent : Bool) : BitVec 32 :=
  BitVec.ofNat 32 (2 ^ 31 + k.num * 2 ^ 28 + bit sent * 2 ^ 27 + bit win * 2 ^ 26 + bank * 2 ^ 20 + row * 2 ^ 6 + col * 2 + bit urgent)

def numbered {α : Type} (base : Nat) (l : List α) : SMap α := (List.range l.length).zip l |>.map fun e => (base + e.1, e.2)

/-- The snapshot of step 2 of R273; read entries that wait for a rebuild slot are among those of the read queue (R367). DESIGN CHOICE
(log entry 67), as R278 is silent: BANK of a command of a whole rank is its first bank coordinate, and 0 for code 7; COL and ROW of a BG
entry are those of its first line not yet read; and each kind of entry stands packed from the first position of its range. -/
def takeSnap (d : Dev) (t : Nat) (a : Alert) : Snapshot :=
  let c := chan d t
  let waits := (slotWaiters d t).map fun w => snapWord w.kind false false w.loc.bank (redirect d w.loc) w.loc.col false
  let rd (e : REntry) : BitVec 32 := snapWord e.kind false false e.bank (e.rowOf (e.cols.headD 0)) (e.cols.headD 0) false
  let hm (e : HEntry) : BitVec 32 := snapWord e.kind e.deltaSent e.window e.bank e.row e.col e.urgent
  let hist (x : Cmd) : BitVec 32 :=
    let place := if x.code = 7 then 0 else x.bank * 2 ^ 20 + x.row * 2 ^ 6 + x.col * 2
    BitVec.ofNat 32 (2 ^ 31 + x.code * 2 ^ 28 + bit (inWindow t x.at_ a) * 2 ^ 27 + bit x.auto * 2 ^ 26 + place)
  { source := a.source, refErr := 0, winWrites := (windowWrites c t a).length,
    entries := numbered 0 ((liveReads c).map rd ++ waits |>.take 48) ++ numbered 48 ((liveHam c t a).map hm |>.take 96) ++
      numbered 144 ((liveBg c).map rd |>.take 1),
    history := numbered 0 (c.history.map hist) }

/-- DLT_FRZ_STATUS of a snapshot. -/
def frzStatus (x : Snapshot) : Nat :=
  2 ^ 31 + x.source.toNat * 2 ^ 29 + x.refErr * 2 ^ 16 + x.winWrites * 2 ^ 8 + x.entries.length

/-- A read entry of a frozen tile takes the paths of an OUT channel (R273, R371). -/
def handRead (t : Nat) (d : Dev) (e : REntry) : Dev :=
  let d0 := match e.master with | some m => pushDue d m e.since true | none => d
  e.cols.foldl (fun d col =>
    let l : Loc := ⟨t, e.bank, e.orow, col⟩
    let o := ownerOf e col
    let isData := match roleOf d l with | .data _ => true | _ => false
    if isLiftRead d o l then liftRead d l o e.prio
    else match o, jobKindOf d o with
    | .job j _, some .verify => dropJob d j
    | .job j s, some .rinse | .job j s, some (.patch _ _ _) =>
      if isData then readLine d .direct l o 0 else jobGot d j s ⟨0, 0⟩ .fail
    | .job j s, _ => jobGot d j s ⟨0, 0⟩ .fail
    | _, _ => readLine d e.kind l o e.prio) d0

/-- A Hamper entry of a frozen tile (R273, R274, R369). -/
def handWrite (t : Nat) (d : Dev) (e : HEntry) : Dev :=
  if e.bolt = noBolt then (if d.boot.warmState = 3 then ledgerAgain d t e else d)
  else
    let d1 := if e.window then setMend d e.bolt true else d
    if e.deltaSent then setMend d1 e.bolt true
    else writeLine (releaseResv d1 t e.id) (if e.kind = .delta then .full else e.kind) ⟨t, e.bank, e.orow, e.col⟩ e.bolt e.line

/-- A DATA entry that holds a reservation at the frozen tile forms no delta: its bolt is marked (R369). -/
def handResv (d : Dev) (r : Resv) : Dev :=
  let c := chan d r.tile
  let bolt := ((c.ham ++ c.awaiting).find? fun e => e.id = r.hid).map HEntry.bolt
  let d1 := match bolt with | some b => setMend d b true | none => d
  onChan d1 r.tile fun c =>
    { c with ham := updWhere (fun e => e.id = r.hid) (fun e => { e with kind := .full, reserved := false }) c.ham,
             awaiting := c.awaiting.filter fun e => e.id ≠ r.hid }

/-- A running lift copy is abandoned and its slot released (R362, R383). -/
def dropLift (d : Dev) (t : Nat) : Dev :=
  let d1 := match findLift d t with | some (id, _) => dropJob d id | none => d
  match (svc d1 t).slot with
  | some n => onSvc (setLift d1 n Reset.lift) t fun s => { s with slot := none, hasCopy := false }
  | none => d1

/-- The next tile of a panel that waits for its walk starts it (R379). -/
def nextWalk (d : Dev) (p : Nat) : Dev :=
  let x := getPanel d p
  match x.walkTile, x.walkQueue with
  | none, t :: rest =>
    let d1 := setPanel d p { x with walkTile := some t, walkPos := 0, walkQueue := rest }
    match (svc d t).slot with
    | some n => setLift d1 n { getLift d1 n with phase := 3 }
    | none => d1
  | _, _ => d

def isWalkOf (t : Nat) (j : Job) : Bool := match j.kind with | .walk x => x = t | _ => false

/-- The walk of a tile ends, or is abandoned (R276, R379). -/
def endWalk (d : Dev) (t : Nat) : Dev :=
  let p := panelOf d t
  let d1 := match findJob d p (isWalkOf t) with | some (id, _) => dropJob d id | none => d
  let x := getPanel d1 p
  nextWalk (setPanel d1 p { x with walkTile := if x.walkTile = some t then none else x.walkTile, walkQueue := x.walkQueue.erase t }) p

/-- A running Patch move stops at its pointer; a record that M21 had not finished writing is written anew (R391). -/
def stopMove (d : Dev) (t : Nat) : Dev :=
  match (svc d t).move with
  | some m =>
    let d1 := match m.job with | some j => dropJob d j | none => d
    onSvc d1 t fun s => { s with move := some { m with job := none, saved := false } }
  | none => d

/-- TILE_FREEZE: the steps of R273; in step E4 a HEADER that has been asked for is written again, with OUT (R503). -/
def tileFreeze (m : SMap DLine) (d : Dev) (t : Nat) : SMap DLine × Dev :=
  match (chan d t).alert with
  | none => (m, d)
  | some a =>
    let c := chan d t
    let snap := takeSnap d t a
    let (m1, d1) := freezeMem m d t a
    let p := panelOf d t
    let close (b : Bank) : Bank := { b with openRow := none, preAt := some a.at_ }
    let shut : Chan :=
      { Reset.chan with nextId := c.nextId, banks := c.banks.map fun e => (e.1, if e.2.openRow.isSome then close e.2 else e.2),
                        ranks := c.ranks, colAt := c.colAt, history := c.history, owed := c.owed, rotor := c.rotor,
                        dueRef := c.dueRef, rfm := c.rfm, base := c.base, quietTo := c.quietTo, seam := c.seam,
                        tasks := c.tasks.filter (· = .gap), lowTo := c.lowTo }
    let d2 := onChan (stopMove d1 t) t fun _ => shut
    let d3 := dropLift d2 t
    let d4 := if (svc d3 t).state = .returning then endWalk d3 t else d3
    let out (d : Dev) : Dev :=
      onSvc d t fun s => { idleHem s with state := .out, reason := .frozen, draining := false, snap := some snap, led := if d.boot.warmState = 3 then s.led else waitsFrozen s.led }
    let d5 := withDouble p out d4
    let d6 := c.resv.foldl handResv d5
    let d7 := (liveHam c t a).foldl (handWrite t) d6
    let d8 := (liveReads c ++ liveBg c).foldl (handRead t) d7
    let d9 := lint (raise (raise d8 Ev.TILE_FROZEN) Ev.CHANNEL_OUT) 0x06 { tile := t } (frzStatus snap)
    let d10 := lint d9 0x23 { tile := t } 2 1
    let late := d10.boot.warmState = 3 && !((svc d10 t).led.any fun x => x.off = 0x2000)
    (m1, channelFreed (if late then saveHeader d10 t else d10) t)

/-! ## Return to service (R276, R363, R376, R377) -/

/-- A loopback that runs stops at its next burst boundary, with RESULT 5 (R419). -/
def stopLoop (s : Svc) : Svc :=
  if s.hem.use = .nearEnd || s.hem.use = .farEnd then { s with hem := { s.hem with stop := true, byReturn := true } } else s

/-- The tile enters RETURNING; its walk starts, or waits for the one that runs in its panel (R379, R419). -/
def startReturn (d : Dev) (t : Nat) : Dev :=
  let p := panelOf d t
  let back (s : Svc) : Svc := { stopLoop s with state := .returning, reason := .marking, warmOut := false, snap := none }
  let d1 := onSvc d t back
  let x := getPanel d1 p
  nextWalk (setPanel d1 p { x with walkQueue := x.walkQueue ++ [t] }) p

/-- RETURN_ALL: every bolt of the panel is marked; the tile waits for the scan with REASON 0b00 (R376). -/
def startReturnAll (d : Dev) (t : Nat) : Dev :=
  let p := panelOf d t
  let go (d : Dev) : Dev :=
    onSvc (markPanel d p) t fun s => { stopLoop s with state := .out, reason := .marking, warmOut := false, snap := none }
  withDouble p go d

/-- M21 writes the section that waited for the end of a freeze (R275, R496). -/
def ledgerResume (d : Dev) (t : Nat) : Dev :=
  if ((svc d t).led.any fun j => j.off = 0x40) then
    ledgerPost t 0x40 63 (svc d t).hem.values (onSvc d t fun s => { s with led := s.led.filter fun j => j.off ≠ 0x40 })
  else d

/-- A write of DLT_FRZ_RELEASE (R276); the Bool says whether it is taken. -/
def frzRelease (d : Dev) (t action : Nat) : Dev × Bool :=
  if action = 0 then (d, true)
  else if !((svc d t).state = .out && (svc d t).reason = .frozen) then (d, false)
  else if action = 1 then (ledgerResume (startReturn d t) t, true)
  else if action = 2 then (ledgerResume (onSvc d t fun s => { s with reason := .keepOut, snap := none }) t, true)
  else (ledgerResume (startReturnAll d t) t, true)

/-- MARK_SCAN_DONE. -/
def markScanDone (d : Dev) (t : Nat) : Dev :=
  if (svc d t).state = .out && (svc d t).reason = .marking then startReturn d t else d

/-! ## Take-outs (R363, R364, R380) -/

def isIn (d : Dev) (t : Nat) : Bool := (svc d t).state = .in_ && !(svc d t).draining

/-- The slot is enabled, serves the tile and is not busy (R95, R363). -/
def slotOk (d : Dev) (t n : Nat) : Bool :=
  let w := rget d (0x4020 + 4 * n)
  w.getLsbD 31 && decide (bits w 30 29 = regionOfTile t) && decide ((getLift d n).phase = 0)

/-- ERR of DLD_SVC_RESULT: 0 where the action is accepted (R363). -/
def svcErr (d : Dev) (action t slot : Nat) : Nat :=
  let s := svc d t
  if 320 ≤ t then 5
  else if action = 1 || action = 2 then
    if !isIn d t then 1
    else if !((panelTiles d (panelOf d t)).all fun x => x = t || isIn d x) then 2
    else if s.move.isSome then 4
    else if action = 2 && !slotOk d t slot then 3 else 0
  else if !(s.state = .out && (s.reason = .held || s.reason = .keepOut)) then 1
  else if action = 3 && s.warmOut then 6 else 0

/-- An accepted action. -/
def svcAct (d : Dev) (action t slot : Nat) : Dev :=
  match action with
  | 1 => onSvc d t fun s => { s with draining := true }
  | 2 => liftStep (onSvc (setLift d slot ⟨1, t, 0, []⟩) t fun s => { s with state := .lifting, slot := some slot }) t
  | 3 => startReturn d t
  | _ => startReturnAll d t

/-- A write of DLD_SVC_CMD; the Bool says whether it is taken (R363, DLD_SVC_CMD). -/
def svcCmd (d : Dev) (v : Word) : Dev × Bool :=
  let action := bits v 31 29
  let t := bits v 8 0
  if action = 0 then (d, true)
  else if 5 ≤ action then (d, false)
  else
    let err := svcErr d action t (bits v 25 24)
    let d1 := rset d 0xB004 (BitVec.ofNat 32 (2 ^ 31 + err * 2 ^ 28 + action * 2 ^ 25 + t))
    if err = 0 then (svcAct d1 action t (bits v 25 24), true) else (d1, false)

/-- Queues, Hamper and background slot are empty, with nothing on its way to them (R364, R367). -/
def channelEmpty (d : Dev) (t : Nat) : Bool :=
  let c := chan d t
  readsEmpty d t && c.bg.isNone && c.ham.isEmpty && c.resv.isEmpty && c.fly.isEmpty && c.awaiting.isEmpty

/-- TAKE_OUT_DRAIN_DONE. -/
def takeOutDrainDone (d : Dev) (t : Nat) : Dev :=
  if !(svc d t).draining || !channelEmpty d t || (chan d t).alert.isSome then d
  else
    let d1 := match (svc d t).slot with
      | some n => setLift d n { getLift d n with phase := 2 }
      | none => d
    channelFreed (enterOut d1 t .held) t

/-! ## Lift copies (R94, R380) -/

/-- LIFT_READY: the copy goes on; once its last lift bolt has been written, with what waited to be mirrored, the drain of
R364 begins. -/
def liftReady (d : Dev) (t : Nat) : Dev :=
  let d := liftStep d t
  let s := svc d t
  match s.state, s.draining, s.slot with
  | .lifting, false, some n =>
    if (getLift d n).copied < liftBolts t || (chan d t).alert.isSome then d
    else raise (onSvc d t fun s => { s with draining := true, hasCopy := true }) Ev.LIFT_READY
  | _, _, _ => d

/-! ## The walk (R377 to R379, R385) -/

/-- The stripe at a position of the order of R377. -/
def walkStripe (p pos : Nat) : Stripe :=
  let nb := nbOf (panelFar p)
  ⟨p, pos / 16 % nb, pos / 16 / nb, pos % 16, 0⟩

/-- The first position from `pos` on, below `pos + n`, whose bolt satisfies f. -/
def seek (d : Dev) (p : Nat) (f : Nat → Bool) : Nat → Nat → Option Nat
  | 0, _ => none
  | n + 1, pos => if f (stripeBolt d (walkStripe p pos)) then some pos else seek d p f n (pos + 1)

/-- The next marked bolt of the walk. -/
def nextMarked (d : Dev) (p pos : Nat) : Option Nat :=
  if mendCountPanel d p = 0 && d.mend.errs.isEmpty then none else seek d p (mendHas d) (panelBolts p - pos) pos

/-- The walk looks up bit after bit as far as its next marked bolt; n bounds the words that show an error (R374). -/
def walkLook (p pos : Nat) : Nat → Dev → Dev
  | 0, d => d
  | n + 1, d =>
    match seek d p (fun b => mendHas d b || (mget d.mend.errs (mapWord b)).isSome) (panelBolts p - pos) pos with
    | some q => walkLook p pos n (mendLook d (stripeBolt d (walkStripe p q)))
    | none => d

/-- Reads of the walk of a bolt: the live data plies, the parity ply when q is live, the lift copy of the paired ply. -/
def walkSlots (d : Dev) (t : Nat) (st : Stripe) : List Nat :=
  let a := memberOf d t
  let q := st.parityMember
  let others := otherOut d st a
  let live := (List.range 16).filter fun m => m ≠ a && !others.contains m
  let par := if q ≠ a && !others.contains q then [16] else []
  let lifted := if q = a && (svc d t).hasCopy && others.isEmpty then [a] else []
  (live ++ par ++ lifted).flatMap fun s => [s, s + 32]

/-- M17 asks for one ply of a walk job: a BG entry of its member, or two reads of the lift copy (R377, R382). -/
def issueBg (id t : Nat) (d : Dev) (slot : Nat) : Dev :=
  match getJob d id with
  | none => d
  | some j =>
    let bolt := stripeBolt d j.stripe
    let l := slotLoc d j.stripe slot
    let take (ss : List Nat) : Dev :=
      setJob d id { j with toRead := j.toRead.filter (fun x => !ss.contains x), open_ := j.open_ ++ ss }
    if !j.toRead.contains slot then d
    else if slot % 32 = memberOf d t then
      match (svc d t).slot with
      | none => jobGot d id slot ⟨0, 0⟩ .fail
      | some n => let ll := liftLoc d n l; post (take [slot]) 17 0 (.read (.job id slot) true) ll (lineBolt d ll)
    else if 32 ≤ slot || !j.toRead.contains (slot + 32) then d
    else post (take [slot, slot + 32]) 17 0 (.ply (.job id slot)) l bolt

/-- Both line positions of a bolt are free of deltas on their way (R368). -/
def boltSettled (d : Dev) (st : Stripe) : Bool :=
  !deltasPending d { st with half := 0 } none && !deltasPending d { st with half := 1 } none

/-- The walk's job asks for its reads once its positions have no delta on the way. -/
def issueWalk (d : Dev) (p : Nat) : Dev :=
  match (getPanel d p).walkTile with
  | none => d
  | some t =>
    match findJob d p (isWalkOf t) with
    | some (id, j) => if j.toRead.isEmpty || !boltSettled d j.stripe then d else j.toRead.foldl (issueBg id t) d
    | none => d

/-- The walk takes up its next marked bolt, or passes a blank one; the lines of a lift bolt that M17 has asked for go before it
(R377, R380). -/
def walkStart (d : Dev) (p t : Nat) : Dev :=
  let x := getPanel d p
  let d := walkLook p x.walkPos d.mend.errs.length d
  match nextMarked d p x.walkPos with
  | none => d
  | some pos =>
    let st := walkStripe p pos
    let d1 := setPanel (blankLook d (stripeBolt d st)) p { x with walkPos := pos }
    if liftWriting d (stripeBolt d st) then d
    else if !isValid d (stripeBolt d st) then
      setPanel (passBlank d1 st t) p { getPanel d1 p with walkPos := pos + 1 }
    else issueWalk (addJob d1 (mkJob st (.walk t) 0 (walkSlots d t st))) p

/-- What the walk writes at one line position: lines with their locations, and how many are made stains. -/
structure WalkOut where
  writes : List (Loc × DLine)
  stains : List Loc

def walkHalf (d : Dev) (t : Nat) (j : Job) (h : Nat) : WalkOut :=
  let st := { j.stripe with half := h }
  let a := memberOf d t
  let q := st.parityMember
  let others := otherOut d st a
  let got (s : Nat) : Option (DLine × Check) := mget j.got (s + 32 * h)
  let bad (s : Nat) : Bool := match got s with | some (_, .fail) | none => true | _ => false
  let locOf (m : Nat) : Loc := stripeDataLoc d st m
  let live := (List.range 16).filter fun m => m ≠ a && !others.contains m
  let failed := live.filter bad
  let lineOf (m : Nat) : DLine := if failed.contains m then stainAt (locOf m) else match got m with | some (x, _) => x | none => ⟨0, 0⟩
  let liveX := xorLines (live.map lineOf)
  let parBad := q ≠ a && bad 16
  let parX := match got 16 with | some (x, _) => x | none => ⟨0, 0⟩
  let allRead := failed.isEmpty && !parBad
  let mine : DLine × Bool :=
    if !others.isEmpty then (stainAt (locOf a), true)
    else if q = a then
      match got a, (mget j.got a).map Prod.snd, (mget j.got (a + 32)).map Prod.snd with
      | some (x, _), some .good, some .good => (coded (locOf a) x.data, false)
      | _, _, _ => (stainAt (locOf a), true)
    else if allRead then (xorLine liveX parX, false) else (stainAt (locOf a), true)
  let whole := xorLines (liveX :: mine.1 :: others.map fun m => stainAt (locOf m))
  let writePar := if !others.isEmpty then !others.contains q else q = a || !allRead
  { writes := [(locOf a, mine.1)] ++ failed.map (fun m => (locOf m, stainAt (locOf m))) ++
      (if writePar then [(stripeParityLoc d st, whole)] else []),
    stains := (if mine.2 then [locOf a] else []) ++ failed.map locOf }

/-- The bolt's lines have been read: steps 3 to 5 of R377. -/
def walkFinish (d : Dev) (t id : Nat) (j : Job) : Dev :=
  let bolt := stripeBolt d j.stripe
  let o0 := walkHalf d t j 0
  let o1 := walkHalf d t j 1
  postPuts ((o0.stains ++ o1.stains).foldl (fun d l => stained d l bolt) d) id bolt false (o0.writes ++ o1.writes)

/-- M17's writes of the bolt that other holds have asked for are created before the walk's (R256, R372). -/
def walkSettled (d : Dev) (j : Job) : Bool :=
  let held (x : Job) : Bool := match x.kind with | .walk _ | .verify | .patch _ _ _ => false | _ => x.puts ≠ 0
  !((boltJobs d j.stripe).filterMap (getJob d)).any held

/-- The hem's generator runs no training and no loopback (R419). -/
def hemQuiet (d : Dev) (t : Nat) : Bool := let u := (svc d t).hem.use; u = .idle || u = .tracking

/-- WALK_BOLT: a hem that a failed training has left outside normal mode is brought back to it first (R419; how, no rule says:
DESIGN CHOICE, log entry 46); then the walk starts on its next marked bolt, or finishes the bolt whose reads have returned. -/
def walkBolt (d : Dev) (p : Nat) : Dev :=
  match (getPanel d p).walkTile with
  | none => d
  | some t =>
    if !d.pins.ck || !hemQuiet d t then d
    else if !inNormal d t then sendScript d t (normalScript d)
    else match findJob d p (isWalkOf t) with
      | none => walkStart d p t
      | some (id, j) =>
        if !isValid d (stripeBolt d j.stripe) then settlePanel (blankJob d id j) p
        else if jobReady j then
          if walkSettled d j then settlePanel (kickPanel (walkFinish d t id j) p) p else d
        else issueWalk d p

/-- CHANNEL_RETURNED: no marked bolt is left before the end of the walk, and its hem has come back to normal mode (R379, R419). -/
def channelReturned (d : Dev) (p : Nat) : Dev :=
  match (getPanel d p).walkTile with
  | none => d
  | some t =>
    if !hemQuiet d t || !inNormal d t || (findJob d p (isWalkOf t)).isSome || (nextMarked d p (getPanel d p).walkPos).isSome then d
    else
      let d1 := endWalk (dropLift d t) t
      let d2 := onSvc d1 t fun s => { s with state := .in_, reason := .marking }
      settlePanel (lint (raise d2 Ev.CHANNEL_RETURNED) 0x23 { tile := t } 0 0) p

/-! ## Commands -/

/-- PARITY_REPORT (R271). -/
def execParityReport (t : Fin 320) (hit : ParityHit) (onRefresh : Bool) (at_ : Nat) (s : State) :
    Host.Outcome State Fault Refusal :=
  onDev s (parityReport · t.val hit.source hit.flips onRefresh at_)
/-- TILE_FREEZE (R273). -/
def execTileFreeze (t : Fin 320) (s : State) : Host.Outcome State Fault Refusal := onMem s fun m d => tileFreeze m d t.val
/-- TAKE_OUT_DRAIN_DONE (R364). -/
def execTakeOutDrainDone (t : Fin 320) (s : State) : Host.Outcome State Fault Refusal := onDev s (takeOutDrainDone · t.val)
/-- LIFT_READY (R380). -/
def execLiftReady (t : Fin 320) (s : State) : Host.Outcome State Fault Refusal := onDev s (liftReady · t.val)
/-- MARK_SCAN_DONE (R376). -/
def execMarkScanDone (t : Fin 320) (s : State) : Host.Outcome State Fault Refusal := onDev s (markScanDone · t.val)
/-- WALK_BOLT (R377). -/
def execWalkBolt (p : Fin 20) (s : State) : Host.Outcome State Fault Refusal := onDev s (walkBolt · p.val)
/-- CHANNEL_RETURNED (R379). -/
def execChannelReturned (p : Fin 20) (s : State) : Host.Outcome State Fault Refusal := onDev s (channelReturned · p.val)

end Sys2Proof.Machine
end

