-- ==== Sys2Proof/Machine/Ledger.lean ====
section
/-!
DEFINITION. The Ledger of a channel: where its copies lie, its sections, writing and reading them (R493 to R497).
-/
namespace Sys2Proof.Machine

def locKey (l : Loc) : Nat := lineKey l.tile l.bank l.row l.col

/-- An access of a master in a start passes the regulator, the tile network and the arbiter of its tile; its beat enters the tile's
port (class 8) or leaves it (9) (R58, R280, R286, R428). -/
def startPass (master cls : Nat) (bolt : Option Nat) (t : Nat) (d : Dev) : Dev :=
  eCount (eCount (unitRun master 2 1 bolt d) t cls 1) t 5 1

/-- M21 writes one line of a section into one copy. -/
def ledgerLineOut (t o v i : Nat) (s : SMap DLine × Dev) (copyB : Bool) : SMap DLine × Dev :=
  let l := ledgerLoc t copyB (o + 64 * i)
  startWrite false noBolt (s.1, startPass 21 8 none t s.2) (l, coded l (sectionLine v i))

/-- M21 writes a section on one channel: each line in copy A and then in copy B (R496). -/
def ledgerWrite (t o n v : Nat) (s : SMap DLine × Dev) : SMap DLine × Dev :=
  (List.range n).foldl (fun s i => [false, true].foldl (ledgerLineOut t o v i) s) s

/-- What the array and the link do to one line that M21 reads at a start. -/
def readFlaw (fs : List LedgerFlaw) (l : Loc) : LedgerFlaw :=
  (fs.find? fun f => f.tile.val = l.tile && f.bank.toNat = l.bank && f.row.toNat = l.row && f.col.toNat = l.col).getD
    ⟨0, 0, 0, 0, 0, 0, .none, .none⟩

/-- One line of the Ledger as read, with its outcome (R337). -/
def ledgerRead (fs : List LedgerFlaw) (m : SMap DLine) (l : Loc) : DLine × Check :=
  let f := readFlaw fs l
  match memGet m (locKey l) with
  | some x =>
    let y : DLine := ⟨x.data ^^^ f.data, x.code ^^^ f.code⟩
    (y, checkLine l y (eccCode (isFar l.tile) f.ecc0 f.ecc1 = 2))
  | none => (⟨0, 0⟩, .fail)

/-- One line of a section, where it reads GOOD. -/
def ledgerLine (fs : List LedgerFlaw) (m : SMap DLine) (t : Nat) (copyB : Bool) (o : Nat) : Option LineData :=
  match ledgerRead fs m (ledgerLoc t copyB o) with
  | (x, .good) => some x.data
  | _ => none

/-- The n lines of a section in one copy, as one number. -/
def copySection (fs : List LedgerFlaw) (m : SMap DLine) (t : Nat) (copyB : Bool) (o : Nat) : Nat → Option Nat
  | 0 => some 0
  | n + 1 =>
    match copySection fs m t copyB o n, ledgerLine fs m t copyB (o + 64 * n) with
    | some v, some x => some (v + x.toNat * 2 ^ (512 * n))
    | _, _ => none

/-- A section as read (R497): the value and whether it came from copy B; none when it is invalid. -/
def readSection (fs : List LedgerFlaw) (m : SMap DLine) (t o n : Nat) : Option (Nat × Bool) :=
  match copySection fs m t false o n with
  | some v => some (v, false)
  | none => (copySection fs m t true o n).map fun v => (v, true)

/-- The outcome of one line that M21 reads (R337, R343, R344, R422). -/
def ledgerCheck (fs : List LedgerFlaw) (m : SMap DLine) (d : Dev) (l : Loc) : Dev :=
  let f := readFlaw fs l
  let d1 := eccCount d l f.ecc0 f.ecc1
  match (ledgerRead fs m l).2 with
  | .good => d1
  | .stain => rinc d1 (tileOff l.tile 0x20C) 1
  | .fail => recordFail d1 l 1 (eccCode (isFar l.tile) f.ecc0 f.ecc1)

/-- M21 reads a section, copy A and then, where it is not good, copy B: each line is an access of its own, and its outcome
counts (R58, R286, R428, R497, R511, R522). `slow` says that a far hem runs in SAFE mode (R423). -/
def countSection (slow : Bool) (fs : List LedgerFlaw) (m : SMap DLine) (t : Nat) (d : Dev) (o n : Nat) : Dev :=
  let line (d : Dev) (l : Loc) : Dev := ledgerCheck fs m (startRead m 21 slow (startPass 21 9 none t d) l) l
  let copy (b : Bool) (d : Dev) : Dev := (List.range n).foldl (fun d i => line d (ledgerLoc t b (o + 64 * i))) d
  let d1 := copy false d
  if (copySection fs m t false o n).isSome then d1 else copy true d1

/-! ## Sections (R494, R495) -/

def wordAt (v i : Nat) : Nat := v >>> (32 * i) % 2 ^ 32

def patchOf (s : Svc) (e : Nat) : Patch := mgetD (⟨.free, 0, 0, 0⟩ : Patch) s.patches e

/-- DLT_PATCHe. -/
def patchWord (p : Patch) : Nat :=
  match p.state with
  | .free => 0
  | .moving => 2 ^ 30 + p.bank * 2 ^ 24 + p.row * 2 ^ 10 + p.spare
  | .active => 2 ^ 31 + p.bank * 2 ^ 24 + p.row * 2 ^ 10 + p.spare

/-- PATCH: sixteen words with MOVING as FREE, then the bitmap of used spare indices. -/
def patchNat (far : Bool) (s : Svc) : Nat :=
  let ws := (List.range 16).map fun e => let p := patchOf s e; if p.state = .active then patchWord p else 0
  let map := if s.allSparesUsed then 2 ^ (nbOf far * sparesOf far) - 1
    else (s.spares.map fun x => 2 ^ (x / 64 * sparesOf far + x % 64)).sum
  wordsNat ws + map * 2 ^ 512

/-- TRAIN: the hem's revision, its margin, and words whose layout no rule gives (log entry 12). -/
def trainNat (t n margin : Nat) : Nat :=
  wordsNat (Config.hemRevision.toNat :: margin :: (List.range 1006).map fun i => (Config.trainWord (512 * n + t) i).toNat)

/-- A hem takes up the values that its training found (R415). -/
def newValues (d : Dev) (t : Nat) : Dev :=
  let v := trainNat t d.free (svc d t).hem.margin.toNat
  onHem { d with free := d.free + 1 } t fun h => { h with values := v }

/-- M21 writes a channel's TRAIN section from the values in use. -/
def writeTrain (t : Nat) (s : SMap DLine × Dev) : SMap DLine × Dev := ledgerWrite t 0x40 63 (svc s.2 t).hem.values s

/-- M21 writes a channel's PATCH section from the table in force. -/
def writePatch (t : Nat) (s : SMap DLine × Dev) : SMap DLine × Dev :=
  ledgerWrite t 0x1000 8 (patchNat (isFar t) (svc s.2 t)) s

/-- The reserved rest of a copy, in lines: offset and number, between PATCH and BLANK and behind BLANK (R493, R494). -/
def ledgerRest (t : Nat) : List (Nat × Nat) :=
  let after := 0x2000 + 64 * blankLines t
  let size := if isFar t then 393216 else 65536
  [(0x1200, 56), (after, (size - after) / 64)]

/-- M21 writes the reserved rest as 0 in the Ledger step of a cold start: DESIGN CHOICE (log entry 12). -/
def writeRest (t : Nat) (s : SMap DLine × Dev) : SMap DLine × Dev :=
  (ledgerRest t).foldl (fun s e => ledgerWrite t e.1 e.2 0 s) s

end Sys2Proof.Machine
end

