-- ==== Sys2Proof/Machine/Numerics.lean ====
section
/-!
DEFINITION. The numbers of the Mangle: formats, accumulation and drain rounding (R190 to R213).
-/
namespace Sys2Proof.Machine

/-! ## Formats (R190) -/

/-- A decoded value: (−1)^neg × mag × 2^exp, an infinity, or NaN. -/
inductive Val where
  | num (neg : Bool) (mag : Nat) (exp : Int)
  | inf (neg : Bool)
  | nan
deriving DecidableEq, Repr

/-- How the all-ones exponent reads: as an ordinary one, as IEEE 754, or as NaN only with a mantissa of all-ones. -/
inductive Top where
  | none | ieee | e4m3
deriving DecidableEq, Repr

/-- Exponent bits, mantissa bits, bias, and the top exponent. -/
structure Fp where
  e    : Nat
  m    : Nat
  bias : Nat
  top  : Top
deriving DecidableEq, Repr

/-- The element type of a FORMAT; the integer formats have none. -/
def fpOf (fmt : Nat) : Fp :=
  match fmt with
  | 0 => ⟨8, 23, 127, .ieee⟩
  | 1 => ⟨8, 7, 127, .ieee⟩
  | 2 => ⟨5, 10, 15, .ieee⟩
  | 3 | 5 => ⟨4, 3, 7, .e4m3⟩
  | 4 | 6 => ⟨5, 2, 15, .ieee⟩
  | 7 => ⟨2, 3, 1, .none⟩
  | 8 => ⟨3, 2, 3, .none⟩
  | _ => ⟨2, 1, 1, .none⟩

def isMx (fmt : Nat) : Bool := decide (5 ≤ fmt ∧ fmt ≤ 9)
def isInt (fmt : Nat) : Bool := decide (fmt = 10 ∨ fmt = 11)
/-- Element width in bits. -/
def elemBits (fmt : Nat) : Nat :=
  match fmt with
  | 0 | 10 => 32 | 1 | 2 => 16 | 7 | 8 => 6 | 9 => 4 | _ => 8

/-- EMAX of a format (R190). -/
def emaxOf (fmt : Nat) : Int :=
  match fmt with
  | 0 | 1 => 127 | 2 | 4 | 6 => 15 | 3 | 5 => 8 | 8 => 4 | _ => 2

def decodeFp (f : Fp) (v : Nat) : Val :=
  let man := v % 2 ^ f.m
  let ex := v / 2 ^ f.m % 2 ^ f.e
  let neg := decide (v / 2 ^ (f.e + f.m) % 2 = 1)
  let low : Int := 1 - (f.bias : Int) - f.m
  if f.top = .ieee ∧ ex = 2 ^ f.e - 1 then (if man = 0 then .inf neg else .nan)
  else if f.top = .e4m3 ∧ ex = 2 ^ f.e - 1 ∧ man = 2 ^ f.m - 1 then .nan
  else if ex = 0 then .num neg man low
  else .num neg (2 ^ f.m + man) ((ex : Int) - f.bias - f.m)

/-- An element read in a format (R192). -/
def decodeElem (fmt v : Nat) : Val :=
  if isInt fmt then
    let x := signed (elemBits fmt) v
    .num (decide (x < 0)) x.natAbs 0
  else decodeFp (fpOf fmt) v

/-- A block scale applied to an element (R193). -/
def scaled (scale : Nat) : Val → Val
  | .num s m e => if scale = 0xFF then .nan else .num s m (e + scale - 127)
  | .inf s => if scale = 0xFF then .nan else .inf s
  | .nan => .nan

/-! ## Rounding -/

/-- mag × 2^exp rounded to p bits with a least quantum 2^qmin, to nearest with ties to even. -/
def roundRne (p : Nat) (qmin : Int) (mag : Nat) (exp : Int) : Nat × Int :=
  if mag = 0 then (0, qmin)
  else
    let q := max qmin (exp + (Nat.log2 mag + 1 : Nat) - p)
    if q ≤ exp then (mag * 2 ^ (exp - q).toNat, q)
    else
      let s := (q - exp).toNat
      let n := mag / 2 ^ s
      let r := mag % 2 ^ s
      let n' := if 2 ^ s < 2 * r ∨ (2 * r = 2 ^ s ∧ n % 2 = 1) then n + 1 else n
      if n' = 2 ^ p then (2 ^ (p - 1), q + 1) else (n', q)

def signBit (f : Fp) (neg : Bool) : Nat := if neg then 2 ^ (f.e + f.m) else 0

/-- The pattern of the largest finite value, without a sign. -/
def maxFinite (f : Fp) : Nat :=
  match f.top with
  | .ieee => (2 ^ f.e - 2) * 2 ^ f.m + (2 ^ f.m - 1)
  | .e4m3 => 2 ^ (f.e + f.m) - 2
  | .none => 2 ^ (f.e + f.m) - 1

def infPattern (f : Fp) : Nat := (2 ^ f.e - 1) * 2 ^ f.m

/-- A finite value rounded into a format: its pattern without a sign; none when the rounded magnitude is above the
largest finite value. -/
def encodeMag (f : Fp) (mag : Nat) (exp : Int) : Option Nat :=
  let r := roundRne (f.m + 1) (1 - (f.bias : Int) - f.m) mag exp
  let v := if r.1 < 2 ^ f.m then r.1 else ((r.2 + f.m + f.bias).toNat) * 2 ^ f.m + (r.1 - 2 ^ f.m)
  if v ≤ maxFinite f then some v else none

/-- NaN patterns of R210. -/
def nanPattern (fmt : Nat) : Nat :=
  match fmt with
  | 0 => 0x7FC00000 | 1 => 0x7FC0 | 2 => 0x7E00 | 3 | 5 => 0x7F | _ => 0x7E

/-! ## Binary32 arithmetic (R197) -/

def fp32 : Fp := fpOf 0

/-- A value as binary32, and whether a finite one became an infinity. -/
def toFp32 (v : Val) : Nat × Bool :=
  match v with
  | .nan => (nanPattern 0, false)
  | .inf s => (signBit fp32 s + infPattern fp32, false)
  | .num s m e =>
    match encodeMag fp32 m e with
    | some p => (signBit fp32 s + p, false)
    | none => (signBit fp32 s + infPattern fp32, true)

/-- The signed integer of a value at a common exponent. -/
def atExp (e : Int) (neg : Bool) (mag : Nat) (exp : Int) : Int :=
  let x : Int := (mag * 2 ^ (exp - e).toNat : Nat)
  if neg then -x else x

/-- The exact sum of two finite values; an exact zero is −0 only for two −0 (IEEE 754). -/
def addVal (sa : Bool) (ma : Nat) (ea : Int) (sb : Bool) (mb : Nat) (eb : Int) : Val :=
  let e := min ea eb
  let x := atExp e sa ma ea + atExp e sb mb eb
  if x = 0 then .num (sa && sb) 0 e else .num (decide (x < 0)) x.natAbs e

/-- Numeric flags (R213), numbered as DLG_NUMFLAGS shows them. -/
abbrev NumFlags := BitVec 5
def fInexact : NumFlags := 1
def fOverflow : NumFlags := 2
def fNan : NumFlags := 4
def fInf : NumFlags := 8
def fResult : NumFlags := 16

def inputFlags : Val → NumFlags
  | .nan => fNan
  | .inf _ => fInf
  | .num _ _ _ => 0

/-- One rounded binary32 addition onto an entry (R197). -/
def addArrival (acc : BitVec 32) (v : Val) : BitVec 32 × NumFlags :=
  let x := toFp32 v
  let fx := inputFlags v ||| (if x.2 then fOverflow ||| fInf else 0)
  match decodeFp fp32 acc.toNat, decodeFp fp32 x.1 with
  | .nan, _ | _, .nan => (BitVec.ofNat 32 (nanPattern 0), fx)
  | .inf a, .inf b =>
    if a = b then (acc, fx ||| fInf) else (BitVec.ofNat 32 (nanPattern 0), fx ||| fNan)
  | .inf _, .num _ _ _ => (acc, fx)
  | .num _ _ _, .inf _ => (BitVec.ofNat 32 x.1, fx)
  | .num sa ma ea, .num sb mb eb =>
    let r := toFp32 (addVal sa ma ea sb mb eb)
    (BitVec.ofNat 32 r.1, fx ||| (if r.2 then fOverflow ||| fInf else 0))

/-! ## EXACT accumulation (R201 to R203) -/

/-- Entry width n (R201). -/
def winBits (fmt : Nat) : Nat := if fmt ≤ 2 then 128 else 64
/-- L is the window base WB (R201). -/
def usesWb (op mode fmt : Nat) : Bool := op = 0 && mode = 1 && (decide (fmt ≤ 2) || isMx fmt)
def winL (fmt : Nat) (wb : Int) : Int :=
  if fmt ≤ 2 ∨ isMx fmt then wb else if fmt = 3 then -9 else if fmt = 4 then -16 else 0

/-- Special states: 0 FINITE, 1 POS_INF, 2 NEG_INF, 3 NAN (R203). -/
def specialNext (s : Nat) : Val → Nat
  | .num _ _ _ => s
  | .nan => 3
  | .inf neg =>
    match s, neg with
    | 0, false | 1, false => 1
    | 0, true | 2, true => 2
    | _, _ => 3

def addExact (n : Nat) (l : Int) (a : Int) (s : Nat) (v : Val) : Int × Nat × NumFlags :=
  match v with
  | .num neg mag exp =>
    let q := if l ≤ exp then mag * 2 ^ (exp - l).toNat else mag / 2 ^ (l - exp).toNat
    let lost := decide (exp < l) && decide (mag % 2 ^ (l - exp).toNat ≠ 0)
    let x : Int := if neg then -(q : Int) else q
    let m : Int := 2 ^ (n - 1) - 1
    let sum := a + x
    let f0 : NumFlags := if lost then fInexact else 0
    if m < sum then (m, s, f0 ||| fOverflow ||| fInexact)
    else if sum < -m then (-m, s, f0 ||| fOverflow ||| fInexact)
    else (sum, s, f0)
  | v =>
    let s' := specialNext s v
    (a, s', inputFlags v ||| (if s' = 3 && s ≠ 3 then fNan else 0))

/-! ## MAX and MIN (R207) -/

/-- a orders below b; −0 below +0. -/
def valLess : Val → Val → Bool
  | .inf a, .inf b => a && !b
  | .inf a, .num _ _ _ => a
  | .num _ _ _, .inf b => !b
  | .num sa ma ea, .num sb mb eb =>
    let e := min ea eb
    let x := atExp e sa ma ea
    let y := atExp e sb mb eb
    if x = y then sa && !sb else decide (x < y)
  | _, _ => false

def accOfVal : Val → Acc
  | .num s m e => .num s m e
  | .inf s => .inf s
  | .nan => .nan

def keepExtreme (isMax : Bool) (old v : Val) : Val := if isMax then (if valLess old v then v else old) else (if valLess v old then v else old)

/-! ## One contribution to one entry -/

/-- The entry of an element that has taken no contribution (R197, R201, R207). -/
def initAcc (op mode : Nat) : Acc := if op ≠ 0 then .empty else if mode = 1 then .win 0 0 else .w32 0

/-- One contribution element reaches its entry. -/
def applyAcc (op fmt : Nat) (wb : Int) (acc : Acc) (v : Val) : Acc × NumFlags :=
  match acc with
  | .w32 x =>
    match isInt fmt, v with
    | true, .num neg mag _ =>
      let y : BitVec 32 := BitVec.ofNat 32 mag
      (.w32 (if neg then x - y else x + y), 0)
    | _, v => let r := addArrival x v; (.w32 r.1, r.2)
  | .win a s => let r := addExact (winBits fmt) (winL fmt wb) a s v; (.win r.1 r.2.1, r.2.2)
  | .nan => (.nan, inputFlags v)
  | .empty => (accOfVal v, inputFlags v)
  | .inf s => (match v with | .nan => .nan | v => accOfVal (keepExtreme (op = 1) (.inf s) v), inputFlags v)
  | .num s m e => (match v with | .nan => .nan | v => accOfVal (keepExtreme (op = 1) (.num s m e) v), inputFlags v)

/-! ## Drain rounding (R208 to R212) -/

/-- The value that an entry drains. -/
def drainVal (fmt : Nat) (wb : Int) : Acc → Val
  | .w32 x =>
    if isInt fmt then
      let y := signed (elemBits fmt) (x.toNat % 2 ^ elemBits fmt)
      .num (decide (y < 0)) y.natAbs 0
    else decodeFp fp32 x.toNat
  | .win a s =>
    match s with
    | 0 => .num (decide (a < 0)) a.natAbs (winL fmt wb)
    | 1 => .inf false
    | 2 => .inf true
    | _ => .nan
  | .empty => .num false 0 0
  | .nan => .nan
  | .inf s => .inf s
  | .num s m e => .num s m e

/-- An element of a non-MX format and whether RESULT_OVF is set (R208 to R210). DESIGN CHOICE (log entry 68): an entry that holds
an infinity and drains to a format with infinity sets no flag; R209 speaks of rounded magnitudes and of a format without. -/
def drainElem (fmt : Nat) (v : Val) : Nat × Bool :=
  if isInt fmt then
    match v with
    | .num neg mag exp =>
      let w := elemBits fmt
      let x : Int := atExp 0 neg (if 0 ≤ exp then mag * 2 ^ exp.toNat else mag / 2 ^ (-exp).toNat) 0
      let hi : Int := 2 ^ (w - 1) - 1
      let y := max (-(hi + 1)) (min hi x)
      ((y % 2 ^ w).toNat, y != x)
    | _ => (0, false)
  else
    let f := fpOf fmt
    match v with
    | .nan => (nanPattern fmt, false)
    | .inf s => if f.top = .ieee then (signBit f s + infPattern f, false) else (signBit f s + maxFinite f, true)
    | .num s m e =>
      match encodeMag f m e with
      | some p => (signBit f s + p, false)
      | none => if f.top = .ieee then (signBit f s + infPattern f, true) else (signBit f s + maxFinite f, true)

/-- floor(log2 |v|) of the finite non-zero values of a block. -/
def blockLog (vs : List Val) : Option Int :=
  vs.foldl (fun acc v =>
    match v with
    | .num _ m e =>
      if m = 0 then acc
      else
        let x : Int := (Nat.log2 m : Int) + e
        match acc with
        | none => some x
        | some y => some (max x y)
    | _ => acc) none

/-- A block of an MX tub: its scale, its elements, and RESULT_OVF (R211). -/
def drainBlock (fmt : Nat) (vs : List Val) : Nat × List Nat × Bool :=
  let f := fpOf fmt
  if vs.contains .nan && f.top = .none then (0xFF, vs.map fun _ => 0, false)
  else
    let x0 := match blockLog vs with | none => 0 | some l => l - emaxOf fmt
    let x := max (-127) (min 127 x0)
    let one (v : Val) : Nat × Bool :=
      match v with
      | .nan => (nanPattern fmt, false)
      | .inf s => if f.top = .ieee then (signBit f s + infPattern f, false) else (signBit f s + maxFinite f, true)
      | .num s m e =>
        match encodeMag f m (e - x) with
        | some p => (signBit f s + p, false)
        | none => (signBit f s + maxFinite f, decide (127 < x0))
    let rs := vs.map one
    ((x + 127).toNat, rs.map Prod.fst, rs.any Prod.snd)

/-! ## Elements of a range of sectors (R192 to R194) -/

/-- Sectors of a group of an MX format. -/
def groupSectors (fmt : Nat) : Nat := if fmt ≤ 6 then 33 else if fmt ≤ 8 then 25 else 17

/-- Bits lo to lo + w − 1 of a run of sectors. -/
def fieldAt (sec : Nat → Sector) (lo w : Nat) : Nat :=
  let a := (sec (lo / 256)).toNat + (sec (lo / 256 + 1)).toNat * 2 ^ 256
  (a >>> (lo % 256)) % 2 ^ w

/-- The elements that n sectors from sector `off` of a tub hold, numbered in the tub: number and value. -/
def elements (fmt off n : Nat) (sec : Nat → Sector) : List (Nat × Val) :=
  let w := elemBits fmt
  if isMx fmt then
    let g := groupSectors fmt
    (List.range (n / g)).flatMap fun gi =>
      (List.range 32).flatMap fun b =>
        let scale := fieldAt sec (gi * g * 256 + 8 * b) 8
        (List.range 32).map fun j =>
          (((off / g + gi) * 32 + b) * 32 + j,
           scaled scale (decodeElem fmt (fieldAt sec ((gi * g + 1) * 256 + b * 32 * w + j * w) w)))
  else
    (List.range (n * 256 / w)).map fun i => (off * 256 / w + i, decodeElem fmt (fieldAt sec (i * w) w))

/-- Contributions of a run of elements, in order. -/
def accumulate (op fmt mode : Nat) (wb : Int) (accs : SMap Acc) (es : List (Nat × Val)) : SMap Acc × NumFlags :=
  es.foldl (fun a e =>
    let i := initAcc op mode
    let r := applyAcc op fmt wb (mgetD i a.1 e.1) e.2
    (mputD i a.1 e.1 r.1, a.2 ||| r.2)) (accs, 0)

/-- A number as sector q of a little-endian run of elements of w bits. -/
def packElems (w : Nat) (xs : List Nat) : Nat := xs.reverse.foldl (fun acc x => acc <<< w ||| x) 0

/-- Sectors of the rounded result of n sectors from sector `off` (R208 to R212). -/
def drainSectors (op fmt mode : Nat) (wb : Int) (accs : SMap Acc) (off n : Nat) : List Sector × Bool :=
  let w := elemBits fmt
  let val (e : Nat) : Val := drainVal fmt wb (mgetD (initAcc op mode) accs e)
  let r : Nat × Bool :=
    if isMx fmt then
      let g := groupSectors fmt
      (List.range (n / g)).foldl (fun (acc : Nat × Bool) gi =>
        let bs := (List.range 32).map fun b =>
          drainBlock fmt ((List.range 32).map fun j => val (((off / g + gi) * 32 + b) * 32 + j))
        let scales := packElems 8 (bs.map Prod.fst)
        let body := packElems (32 * w) (bs.map fun b => packElems w b.2.1)
        (acc.1 ||| (scales ||| body <<< (256 : Nat)) <<< (gi * g * 256), acc.2 || bs.any fun b => b.2.2)) (0, false)
    else
      let es := (List.range (n * 256 / w)).map fun i => drainElem fmt (val (off * 256 / w + i))
      (packElems w (es.map Prod.fst), es.any Prod.snd)
  ((List.range n).map fun q => BitVec.ofNat 256 (r.1 >>> (256 * q)), r.2)

end Sys2Proof.Machine
end

