-- ==== Sys2Proof/Machine/Mangle.lean ====
section
/-!
DEFINITION. Mangle control: decisions at its input, staging, keys and batches, reduction and drain, placement, spill and
leases, aborts and ageing of tubs (R187 to R249).
-/
namespace Sys2Proof.Machine

/-! ## Keys and sizes (R189, R194 to R196, R228) -/

def keyIndex (op fmt mode : Nat) : Nat := if op = 0 then 2 * fmt + mode else if op = 1 then 24 + fmt else 36 + fmt
def keyOp (k : Nat) : Nat := if k < 24 then 0 else if k < 36 then 1 else 2
def keyMode (k : Nat) : Nat := if k < 24 then k % 2 else 0
def keyFmt (k : Nat) : Nat := if k < 24 then k / 2 else if k < 36 then k - 24 else k - 36

/-- Sectors of a size class. -/
def sizeSectors (size : Nat) : Nat := 128 * 4 ^ (size - 1)
/-- Sectors that a tub uses (R228). -/
def usedSectors (fmt size : Nat) : Nat :=
  if isMx fmt then sizeSectors size / groupSectors fmt * groupSectors fmt else sizeSectors size
/-- Elements of a tub (R194). -/
def tubElements (fmt size : Nat) : Nat :=
  if isMx fmt then sizeSectors size / groupSectors fmt * 1024 else sizeSectors size * 256 / elemBits fmt

def ceilDiv (a b : Nat) : Nat := (a + b - 1) / b

/-- Lines of the accumulators of n elements (R195). -/
def accLines (op fmt mode n : Nat) : Nat :=
  let e := if op ≠ 0 then 8 else if mode = 0 then 4 else if fmt ≤ 2 then 16 else 8
  let s := if op = 0 ∧ mode = 1 ∧ ¬ isInt fmt then 2 else 0
  ceilDiv (n * e) 64 + ceilDiv (n * s) 512

/-- Lines of a tub's accumulators (R195). -/
def footprint (op fmt mode size : Nat) : Nat := accLines op fmt mode (tubElements fmt size)

def tubChunks (op fmt mode size : Nat) : Nat := ceilDiv (footprint op fmt mode size) 64

/-- Elements of a tub in each chunk: they are spread evenly over the chunks (log entry 16). -/
def perChunk (x : Incarnation) : Nat := ceilDiv (tubElements x.fmt x.size) x.chunks

/-- The first element of n sectors from sector `off`, and how many there are. -/
def elemRange (fmt off n : Nat) : Nat × Nat :=
  if isMx fmt then (off / groupSectors fmt * 1024, n / groupSectors fmt * 1024)
  else (off * 256 / elemBits fmt, n * 256 / elemBits fmt)

/-- Chunks that n sectors from sector `off` touch. -/
def chunksOf (x : Incarnation) (off n : Nat) : List Nat :=
  let per := perChunk x
  let (lo, cnt) := elemRange x.fmt off n
  (List.range ((lo + cnt - 1) / per + 1 - lo / per)).map fun i => lo / per + i

/-! ## Ages (R247) -/

def tickOf (c : BitVec 64) : Nat := c.toNat / 65536
def tubAge (d : Dev) (t : Tub) : Nat := tickOf d.cycle - tickOf t.start
def isAged (d : Dev) (t : Tub) : Bool := t.limit ≠ 0 && decide (t.limit < tubAge d t)
/-- The age restarts and its limit is fixed. -/
def restartAge (d : Dev) (t : Tub) : Tub :=
  { t with start := d.cycle, limit := if t.age = 0 then rbits d 0x8100 15 0 else t.age, aged := false }

def tubComplete (t : Tub) : Bool := decide (t.expect * usedSectors t.fmt t.size ≤ t.sectorsIn)

/-! ## M16 transfers (R233, R240, R241) -/

/-- Address bits 38:5 of chunk number n of the spill region: 4 KiB each. -/
def chunkAddr (d : Dev) (n : Nat) : BitVec 34 :=
  BitVec.ofNat 34 (d.boot.inst.toNat * 2 ^ 32 + (rbits d 0x4010 15 0 * 1024 + 2 * n) * 64)

def m16Txn (d : Dev) (kind : Kind) (gen tag n : Nat) (beats : List (BeatEn × BeatData)) : Dev :=
  let x : Txn := ⟨.m16 gen tag, 16, kind, 0, chunkAddr d n, 128, .none, 0, beats, 0, none, false, 0, false, 0, 0, [], 0,
    [], false, false, none⟩
  let r := newTxn d x
  queueAt r.2 16 r.1

/-! ## Placement (R232, R234) -/

/-- Resident chunks of a near slice, and those that are free. -/
def residentChunks (d : Dev) : Nat := 16 * (tubWays d - bit (rbits d 0x4014 13 0 ≠ 0))
def freeChunks (d : Dev) (t : Nat) : Nat := residentChunks d - mgetD 0 d.mangle.taken t
def spillChunks (d : Dev) : Nat := rbits d 0x4014 13 0 * 512
def spillFree (d : Dev) : Nat := spillChunks d - blankCount d.mangle.spillUsed

/-- The lowest k numbers that lie in no interval. -/
def lowestFree : Nat → Nat → List (Nat × Nat) → List Nat
  | _, 0, _ => []
  | from_, k, [] => (List.range k).map (from_ + ·)
  | from_, k, (lo, hi) :: m =>
    let here := (List.range (min k (lo - from_))).map (from_ + ·)
    here ++ lowestFree (hi + 1) (k - here.length) m

/-- The home tile of a new resident tub (R232). -/
def residentHome (d : Dev) (tub chunks : Nat) : Option Nat :=
  if chunks ≤ freeChunks d (tub % 256) then some (tub % 256)
  else
    let best := (List.range 256).foldl (fun b t => if freeChunks d b < freeChunks d t then t else b) 0
    if chunks ≤ freeChunks d best then some best else none

/-- Open tub `i` for transaction `id` with header h (R229 steps 9 and 10, R232, R233, R243). DESIGN CHOICE (log entry 16): a
SPILLED tub takes the lowest-numbered free chunks of the spill region; R232 does not say which. -/
def placeTub (d : Dev) (id i : Nat) (h : Tub) (m : Nat) : Dev :=
  let n := tubChunks h.op h.fmt h.mode h.size
  let g := d.mangle.gen
  let inc (home : Nat) (sp : List Nat) : Incarnation :=
    ⟨h.op, h.fmt, h.mode, h.wb, h.size, 0, false, false, home, n, sp, []⟩
  match residentHome d i n with
  | some t =>
    let m' := { d.mangle with gen := g + 1, taken := mputD 0 d.mangle.taken t (mgetD 0 d.mangle.taken t + n) }
    let d1 := setTub { d with mangle := m' } i { h with state := .open_, gen := g }
    respond (setInc d1 g (inc t [])) id .okay
  | none =>
    if n ≤ spillFree d then
      let sp := lowestFree 0 n d.mangle.spillUsed
      let used := sp.foldl (fun u c => blankAdd u c c) d.mangle.spillUsed
      let m' := { d.mangle with gen := g + 1, spillUsed := used, opening := d.mangle.opening ++ [(id, n)] }
      let d1 := setTub { d with mangle := m' } i { h with state := .spilled, gen := g }
      let d2 := raise (setInc d1 g (inc (i % 256) sp)) Ev.TUB_SPILL (some m)
      sp.foldl (fun d c => m16Txn d .zero g id c []) d2
    else
      respond (rinc (raise (setTub d i { h with state := .refused }) Ev.TUB_REFUSED (some m)) 0x8118 1) id .refused

/-- A TUB_OPEN is decided (R227, R229). DESIGN CHOICE (log entry 74): the header of a REFUSED tub keeps EXPECT, AGE and the operation
and format too; R225 names tag, key, WB and size class. -/
def decideOpen (d : Dev) (id : Nat) (x : Txn) : Dev :=
  let dw (n : Nat) : Nat := (descWord x.beats n).toNat
  let op := dw 1 / 16 % 4
  let fmt := dw 1 / 256 % 16
  let mode := if op = 0 then dw 1 / 64 % 2 else 0
  let size := dw 1 % 4
  let expect := dw 0 % 2 ^ 24
  let wb := signed 9 (dw 1 / 65536 % 512)
  let i := tubIdOf x.addr
  let t := getTub d i
  let fresh : Tub := restartAge d ⟨.refused, x.attr, op, fmt, mode, wb, size, expect, 0, dw 2 % 65536, 0, 0, false, 0⟩
  if op = 3 ∨ 12 ≤ fmt then respond d id .denied
  else if expect = 0 ∨ size = 0 then respond d id .length
  else if tubWays d * 1024 < footprint op fmt mode size then respond d id .length
  else if t.state ≠ .free ∧ t.tag ≠ x.attr then respond d id .denied
  else if t.state ≠ .free ∧ (keyIndex t.op t.fmt t.mode ≠ keyIndex op fmt mode ∨ t.size ≠ size ∨
      (usesWb op mode fmt ∧ t.wb ≠ wb)) then respond d id .denied
  else match t.state with
    | .refused => respond d id .refused
    | .open_ | .spilled | .failed => respond d id .okay
    | .free =>
      if (rget d 0x8100).getLsbD 16 then placeTub d id i fresh x.master
      else respond (rinc (raise (setTub d i fresh) Ev.TUB_REFUSED (some x.master)) 0x8118 1) id .refused

/-! ## Contributions, amends and drains (R230, R235 to R239) -/

/-- Staging entries in use: a beat's entry returns when the beat enters a lane pipeline (R216). -/
def stagingUsed (d : Dev) : Nat := (d.mangle.queue.map fun s => s.entries - s.entered).sum

/-- A CONTRIB or TUB_DRAIN range is valid for the tub (R114, R194). -/
def rangeOk (t : Tub) (off n : Nat) : Bool :=
  if isMx t.fmt then
    let g := groupSectors t.fmt
    off % g = 0 && n % g = 0 && decide (off + n ≤ usedSectors t.fmt t.size)
  else decide (off + n ≤ sizeSectors t.size)

/-- Chunks that a request of a spilled tub still lacks; those at hand are used now (R240). -/
def lacking (d : Dev) (x : Incarnation) (g off n : Nat) : List Nat :=
  if x.spill.isEmpty then []
  else (chunksOf x off n).filter fun c =>
    !(mgetD [] d.mangle.leases x.home).any fun l => l.gen = g && l.chunk = c && l.phase = 1

def stage (d : Dev) (id g off n entries : Nat) (drain : Bool) : Dev :=
  match getInc d g with
  | some x =>
    let s : Staged := ⟨id, g, keyIndex x.op x.fmt x.mode, x.home, entries, d.cycle, drain, lacking d x g off n, 0, 0, 0⟩
    { d with mangle := { d.mangle with queue := d.mangle.queue ++ [s] } }
  | none => d

/-- Every line of a drain's answer is poisoned. -/
def poisonDrain (d : Dev) (id : Nat) : Dev :=
  let f (x : Txn) : Txn :=
    let n := (x.addr.toNat + x.sectors - 1) / 2 - x.addr.toNat / 2 + 1
    { x with lines := (List.range n).map fun i => (i, (0, true)) }
  respond (onTxn d id f) id .poison

/-- The header of a tub becomes FREE (R239, R245). -/
def freeTub (d : Dev) (i : Nat) : Dev :=
  let t := getTub d i
  let d1 := setTub d i Reset.tub
  match t.state, getInc d t.gen with
  | .free, _ | .refused, _ | _, none => d1
  | _, some x => setInc d1 t.gen { x with freed := true }

/-- A CONTRIB is decided; none while staging has too few entries for it (R217, R230, R235). -/
def decideContrib (d : Dev) (id : Nat) (x : Txn) : Option Dev :=
  let i := tubIdOf x.addr
  let t := getTub d i
  let off := tubSector x.addr
  if t.state = .free ∨ t.tag ≠ x.attr then some (respond d id .denied)
  else if !rangeOk t off x.sectors then some (respond d id .length)
  else match t.state with
    | .refused | .free => some (respond d id .refused)
    | .failed => some (respond d id .poison)
    | .open_ | .spilled =>
      if 8192 < stagingUsed d + beatsOf x.sectors then none
      else
        let d1 := raise d Ev.CONTRIB_ACCEPTED (some x.master)
        let d2 := if tubComplete t then raise d1 Ev.TUB_SURPLUS (some x.master) else d1
        let d3 := setTub d2 i { t with sectorsIn := min (t.sectorsIn + x.sectors) (2 ^ 40 - 1) }
        some (stage d3 id t.gen off x.sectors (beatsOf x.sectors) false)

/-- The EXPECT that a TUB_AMEND asks for, when it is one (R236). -/
def amendExpect (old dw0 : Nat) : Option Nat :=
  let v : Nat := dw0 % 2 ^ 24
  let n : Int := match dw0 / 2 ^ 30 % 4 with
    | 0 => (v : Int)
    | 1 => (old : Int) + (v : Int)
    | 2 => (old : Int) - (v : Int)
    | _ => 0
  if v = 0 ∨ n < 1 ∨ 16777215 < n then none else some n.toNat

def decideAmend (d : Dev) (id : Nat) (x : Txn) : Dev :=
  let i := tubIdOf x.addr
  let t := getTub d i
  if t.state = .free ∨ t.tag ≠ x.attr then respond d id .denied
  else match amendExpect t.expect (descWord x.beats 0).toNat with
    | none => respond d id .length
    | some e =>
      match t.state with
      | .refused | .free => respond d id .okay
      | .failed => respond d id .poison
      | .open_ | .spilled =>
        respond (setTub d i (restartAge d { t with expect := e })) id .okay

/-- A TUB_DRAIN is decided; none while staging has no entry for it (R230, R237 to R239). DESIGN CHOICE (log entry 16): a
TUB_DRAIN that finds no free staging entry waits at the input, with every tub request behind it, as R217 says of a CONTRIB. -/
def decideDrain (d : Dev) (id : Nat) (x : Txn) : Option Dev :=
  let i := tubIdOf x.addr
  let t := getTub d i
  let off := tubSector x.addr
  let last := decide (off + x.sectors = usedSectors t.fmt t.size) || decide (usedSectors t.fmt t.size < off + x.sectors)
  if t.state = .free ∨ t.tag ≠ x.attr then some (respond d id .denied)
  else if !rangeOk t off x.sectors then some (respond d id .length)
  else match t.state with
    | .refused | .free | .failed =>
      let d1 := poisonDrain d id
      some (if last then freeTub d1 i else d1)
    | .open_ | .spilled =>
      if 8192 < stagingUsed d + 1 then none
      else
        let d1 := stage d id t.gen off x.sectors 1 true
        if !tubComplete t then some (raise d1 Ev.TUB_EARLY_DRAIN (some x.master))
        else some (if last then freeTub d1 i else d1)

/-- One tub request is decided at Mangle control's input (R119, R121, R226). -/
def decideTub (d : Dev) (id : Nat) : Option Dev :=
  match getTxn d id with
  | none => some d
  | some x =>
    match x.mark with
    | some c => some (respond d id c)
    | none =>
      match x.kind with
      | .tubOpen => some (decideOpen d id x)
      | .tubAmend => some (decideAmend d id x)
      | .tubDrain => decideDrain d id x
      | _ => decideContrib d id x

/-! ## Key queues and lanes (R214 to R216, R221, R240) -/

/-- A staged request has joined its key's queue: its chunks are leased, and so are those of the requests of its tub before
it. One of a tub that failed by a check or a POISON lacks none (R225): DESIGN CHOICE (log entry 16): it is answered POISON when
it comes to its turn in its key's queue; R244 does not say when. -/
def joined (d : Dev) (s : Staged) : Bool :=
  s.needs.isEmpty && ((d.mangle.queue.takeWhile fun e => e.txn ≠ s.txn).all fun e => e.gen ≠ s.gen || e.needs.isEmpty)

/-- The queue of the current key at a tile, in staging order. -/
def lineUp (d : Dev) (t : Nat) : List Staged :=
  d.mangle.queue.filter fun s => s.key = d.mangle.key && s.tile = t && joined d s

/-- 64 B beats on the network port of n sectors. -/
def netBeats (n : Nat) : Nat := (n + 1) / 2

def txnSectors (d : Dev) (id : Nat) : Nat := match getTxn d id with | some x => x.sectors | none => 0

/-- Sectors of data beat i of a CONTRIB. -/
def beatSectors (d : Dev) (s : Staged) (i : Nat) : Nat := min 16 (txnSectors d s.txn - 16 * i)

def onStaged (d : Dev) (txn : Nat) (f : Staged → Staged) : Dev :=
  { d with mangle := { d.mangle with queue := updWhere (fun s => s.txn = txn) f d.mangle.queue } }

/-- One beat goes to its tile's lane input queue. -/
def sendBeat (d : Dev) (s : Staged) : Dev :=
  eCount (onStaged d s.txn fun s => { s with sent := s.sent + 1 }) s.tile 8 (netBeats (beatSectors d s s.sent))

/-- Dispatch to one tile: beats of the current key in staging order, up to the first drain, while its lane input queue holds
fewer than 16 (R216). -/
def dispatch (n : Nat) (d : Dev) (t : Nat) : Dev :=
  match n with
  | 0 => d
  | n + 1 =>
    let line := (lineUp d t).takeWhile fun s => !s.drain
    if 16 ≤ (line.map fun s => s.sent - s.entered).sum then d
    else match line.find? fun s => s.sent < s.entries with
      | some s => dispatch n (sendBeat d s) t
      | none => d

/-- Dispatch to every tile; none from the decision of a switch to its end (R214). -/
def laneFill (d : Dev) : Dev :=
  if d.mangle.next.isSome then d else (d.mangle.queue.map Staged.tile).eraseDups.foldl (dispatch 16) d

/-- Elements that a lane completes in four enabled cycles (R221). -/
def laneRate (key : Nat) : Nat :=
  let fmt := keyFmt key
  if keyOp key = 0 ∧ keyMode key = 1 ∧ fmt = 0 then 1
  else if keyOp key = 0 ∧ keyMode key = 1 ∧ fmt ≤ 2 then 2
  else if fmt ≤ 2 ∨ elemBits fmt = 32 then 4 else 8

/-- Enabled cycles in which a tile's 16 lanes take a beat of n sectors. -/
def laneCycles (key n : Nat) : Nat :=
  let fmt := keyFmt key
  let elems := if isMx fmt then ceilDiv (n * 1024) (groupSectors fmt) else n * 256 / elemBits fmt
  ceilDiv elems (4 * laneRate key)

/-- Elements of n sectors of a tub that their first k data beats complete: an element enters with the beat that holds its last
bit (R192, R193). -/
def beatCut (fmt n k : Nat) : Nat :=
  let s := min n (16 * k)
  if isMx fmt then
    let g := groupSectors fmt
    s / g * 1024 + (s % g - 1) * 256 / elemBits fmt
  else s * 256 / elemBits fmt

/-- BATCH_MAX as a batch reads it: values below 64 act as 64. -/
def batchMax (d : Dev) : Nat := max 64 (rbits d 0x8000 15 0)

/-- A staged request touches a leased chunk. -/
def touches (d : Dev) (s : Staged) (gen chunk : Nat) : Bool :=
  s.gen = gen && (match getTxn d s.txn, getInc d gen with
    | some x, some inc => (chunksOf inc (tubSector x.addr) x.sectors).contains chunk
    | _, _ => false)

/-- The leased chunks that a request touches are used now. DESIGN CHOICE (log entry 16): a beat or a drain uses every leased
chunk of its whole request; R241 speaks of the least recently used and does not say what a use is. -/
def useLeases (d : Dev) (s : Staged) : Dev :=
  let use (l : Lease) : Lease := if touches d s l.gen l.chunk then { l with used := d.cycle } else l
  let ls := mgetD [] d.mangle.leases s.tile
  { d with mangle := { d.mangle with leases := mputD [] d.mangle.leases s.tile (ls.map use) } }

/-- The next beat of a CONTRIB enters a lane pipeline of its tile: its staging entry returns, and it begins the batch if it
is the first (R214, R216, R218, R223, R428). -/
def enterBeat (d : Dev) (s : Staged) : Dev :=
  let d0 := if s.sent ≤ s.entered then sendBeat d s else d
  let cyc := laneCycles s.key (beatSectors d s s.entered)
  let d1 := useLeases (onStaged d0 s.txn fun s => { s with entered := s.entered + 1 }) s
  let m := d1.mangle
  let d2 := { d1 with mangle := { m with batch := m.batch.or (some (d.cycle, batchMax d)), busy := minsert m.busy s.tile cyc } }
  rmax (eCount (raise d2 Ev.MANGLE_BEAT) s.tile 7 cyc) 0x8010 (d.cycle - s.since).toNat

/-- The remaining beats of a CONTRIB enter. -/
def enterAll (n : Nat) (d : Dev) (txn : Nat) : Dev :=
  match n with
  | 0 => d
  | n + 1 =>
    match d.mangle.queue.find? fun s => s.txn = txn with
    | some s => if s.entered < s.entries then enterAll n (enterBeat d s) txn else d
    | none => d

/-- The first beat in a tile's lane input queue. -/
def laneHead (d : Dev) (t : Nat) : Option Staged :=
  if d.mangle.next.isSome then none
  else ((lineUp d t).takeWhile fun s => !s.drain).find? fun s => s.entered < s.sent

/-- One enabled cycle of a tile's lanes. -/
def laneCycle (d : Dev) (t : Nat) : Dev :=
  let n := mgetD 0 d.mangle.busy t
  let d1 := if n = 0 then d else { d with mangle := { d.mangle with busy := mputD 0 d.mangle.busy t (n - 1) } }
  if 1 < n then d1
  else match laneHead d1 t with
    | some s => laneFill (enterBeat d1 s)
    | none => d1

/-- One TCLK of the lanes: the enable pattern of R444 says whether it is an enabled one. -/
def laneTime (d : Dev) : Dev :=
  if !d.boot.applied then d
  else
    let m := d.mangle
    let en := if m.phase = 0 then rbits d (0xE060 + 4 * d.energy.target) 5 4 else m.en
    let on_ := match en with | 0 => true | 1 => m.phase != 3 | 2 => m.phase % 2 = 0 | _ => m.phase = 0
    let d1 := { d with mangle := { m with phase := (m.phase + 1) % 4, en := en } }
    if on_ then ((m.busy.map Prod.fst) ++ m.queue.map Staged.tile).eraseDups.foldl laneCycle (laneFill d1) else laneFill d1

/-- The waiting tub requests are decided in order until one must wait (R217). -/
def pumpInput : Dev → List Nat → Dev
  | d, [] => laneFill { d with mangle := { d.mangle with input := [] } }
  | d, id :: rest =>
    match decideTub d id with
    | some d1 => pumpInput d1 rest
    | none => laneFill { d with mangle := { d.mangle with input := id :: rest } }

/-- A tub request reaches the input. -/
def mangleInput (d : Dev) (id : Nat) : Dev := pumpInput d (d.mangle.input ++ [id])

/-! ## Batches (R214, R218) -/

/-- A key's queue is not empty: a drain, or a CONTRIB with a beat that has not entered a lane pipeline (R218). -/
def readyKey (d : Dev) (k : Nat) : Bool := d.mangle.queue.any fun s => s.key = k && joined d s && decide (s.entered < s.entries)

/-- The next key with a non-empty queue after the current one, wrapping from 47 to 0. -/
def nextKey (d : Dev) : Option Nat :=
  ((List.range 47).map fun i => (d.mangle.key + 1 + i) % 48).find? (readyKey d)

/-- Beats in the lane input queues return to their key's queue (R214). -/
def withdraw (d : Dev) : Dev :=
  { d with mangle := { d.mangle with queue := d.mangle.queue.map fun s => { s with sent := s.entered } } }

/-- KEY_SWITCH: a switch is decided (R218). -/
def keySwitch (d : Dev) : Dev :=
  let over_ := match d.mangle.batch with
    | some (b, n) => decide (n < (d.cycle - b).toNat)
    | none => false
  match d.mangle.next, nextKey d with
  | none, some k =>
    if !readyKey d d.mangle.key || over_ then
      rinc (raise (withdraw { d with mangle := { d.mangle with next := some k } }) Ev.MANGLE_SWITCH) 0x800C 1
    else d
  | _, _ => d

/-! ## Reduction and drain (R198, R215, R237) -/

/-- The first staged request of the current key at a tile, when it is a drain or a CONTRIB as asked. After a switch has been
decided only a CONTRIB whose beats have all entered goes on (R214). -/
def headAt (d : Dev) (t : Nat) (drain : Bool) : Option Staged :=
  (lineUp d t).head?.filter fun s =>
    s.drain = drain && (d.mangle.next.isNone || (!drain && s.entered = s.entries))

/-- The event of each flag (R213). -/
def flagEvents (f : NumFlags) : List Nat :=
  (if f.getLsbD 0 then [Ev.MANGLE_INEXACT] else []) ++ (if f.getLsbD 1 then [Ev.MANGLE_OVERFLOW] else []) ++
  (if f.getLsbD 2 then [Ev.MANGLE_SPECIAL] else []) ++ (if f.getLsbD 3 then [Ev.MANGLE_SPECIAL] else []) ++
  (if f.getLsbD 4 then [Ev.MANGLE_OVERFLOW] else [])

/-- Flags become set; the first setting of each raises its event. DESIGN CHOICE (log entry 16): so does one that comes after the
tub's header has become FREE, for a request decided before; R213 keeps the flags until then and does not say. -/
def setFlags (d : Dev) (g : Nat) (x : Incarnation) (f : NumFlags) : Dev :=
  (flagEvents (f &&& ~~~x.flags)).foldl (fun d e => raise d e) (setInc d g { x with flags := x.flags ||| f })

/-- A staged request leaves staging. -/
def unstage (d : Dev) (s : Staged) : Dev :=
  laneFill { d with mangle := { d.mangle with queue := d.mangle.queue.filter fun e => e.txn ≠ s.txn } }

/-- The tub lines that hold n accumulators from lo on are read: where a check fails, the tub has failed (R185, R244). DIRTY of the
capture is 0: DESIGN CHOICE (log entry 72), as R186 does not say whether a tub line counts as dirty. -/
def tubRead (d : Dev) (g lo n : Nat) : Dev :=
  let hit (f : TubFlaw) : Bool := f.gen = g && decide (f.lo < lo + n) && decide (lo < f.lo + f.n)
  let fs := d.mangle.flaws.filter hit
  if fs.isEmpty then d
  else
    let d1 := { d with mangle := { d.mangle with flaws := d.mangle.flaws.filter fun f => !hit f } }
    failGen (fs.foldl (fun d f => pressError d 1 false f.tile f.set f.way) d1) g

/-- A drain reads the accumulators of its sectors. -/
def stagedRead (d : Dev) (g : Nat) (x : Txn) : Dev :=
  match getInc d g with
  | some inc =>
    let r := elemRange inc.fmt (tubSector x.addr) x.sectors
    if inc.failed then d else tubRead d g r.1 r.2
  | none => d

/-- Press array writes of tub lines by beats a to b of n sectors: the lines of each beat's entries. DESIGN CHOICE (log entry
58): R428 counts line writes, and no rule says how many lines a beat's entries lie in. -/
def beatLines (x : Incarnation) (n a b : Nat) : Nat :=
  ((List.range (b - a)).map fun i =>
    accLines x.op x.fmt x.mode (beatCut x.fmt n (a + i + 1) - beatCut x.fmt n (a + i))).sum

/-- The elements of a CONTRIB that its first k beats complete and that are not written yet are read, reduced and written, unless
the tub has failed (R185, R198, R214, R215, R244, R428). -/
def reduceTo (d : Dev) (s : Staged) (k : Nat) : Dev :=
  match getTxn d s.txn, getInc d s.gen with
  | some x, some inc =>
    let a := beatCut inc.fmt x.sectors s.written
    let n := beatCut inc.fmt x.sectors k - a
    let d1 := if inc.failed then d else tubRead d s.gen ((elemRange inc.fmt (tubSector x.addr) x.sectors).1 + a) n
    let d2 := onStaged d1 s.txn fun s => { s with written := k }
    match getInc d1 s.gen with
    | some i1 =>
      if i1.failed then d2
      else
        let es := (elements inc.fmt (tubSector x.addr) x.sectors (sectorData x.beats)).drop a
        let r := accumulate inc.op inc.fmt inc.mode inc.wb inc.accs (es.take n)
        setFlags (eCount d2 s.tile 6 (beatLines inc x.sectors s.written k)) s.gen { i1 with accs := r.1 } r.2
    | none => d2
  | _, _ => d

/-- A CONTRIB whose beats have all entered is reduced and answered (R198, R215, R244). -/
def finishContrib (d : Dev) (s : Staged) : Dev :=
  let d1 := unstage (reduceTo d s s.entries) s
  match getInc d1 s.gen with
  | some inc => respond d1 s.txn (if inc.failed then .poison else .okay)
  | none => d1

/-- CONTRIB_REDUCED: the first CONTRIB of the current key at a tile: its beats have entered, and it is answered. -/
def contribReduced (d : Dev) (t : Nat) : Dev :=
  match headAt d t false with
  | some s => finishContrib (enterAll (s.entries - s.entered) d s.txn) s
  | none => d

/-- The beats of an old CONTRIB that have entered finish; with its last beat it is answered (R214). -/
def finishOld (d : Dev) (s : Staged) : Dev :=
  if s.entered = s.entries then finishContrib d s else reduceTo d s s.entered

/-- BATCH_BEGIN: the old elements have finished, and the first element of the new key enters (R214). DESIGN CHOICE (log entry
16): where the new key's queue holds drains only, no element enters: the key is current and no batch has begun, so that
BATCH_MAX does not run; R214 and R223 speak of the first element. -/
def batchBegin (d : Dev) : Dev :=
  match d.mangle.next with
  | some k =>
    let olds := d.mangle.queue.filter fun s => s.key = d.mangle.key && !s.drain && decide (s.written < s.entered)
    let d1 := olds.foldl finishOld d
    let d2 := laneFill { d1 with mangle := { d1.mangle with key := k, next := none, batch := none } }
    match d2.mangle.queue.find? fun s => s.key = k && s.entered < s.sent with
    | some s => laneFill (enterBeat d2 s)
    | none => d2
  | none => d

/-- The lines of a drain's answer, from its sectors. -/
def drainLines (x : Txn) (ss : List Sector) : SMap (LineData × Bool) :=
  let a := x.addr.toNat % 2
  (List.range ((a + x.sectors - 1) / 2 + 1)).map fun i =>
    let get (k : Nat) : Sector := if a ≤ k then ss.getD (k - a) 0 else 0
    (i, (get (2 * i + 1) ++ get (2 * i), false))

/-- DRAIN_DELIVER: the first drain of the current key at a tile delivers the rounded result (R237, R244). -/
def drainDeliver (d : Dev) (t : Nat) : Dev :=
  match headAt d t true with
  | none => d
  | some s =>
    let d := match getTxn d s.txn with | some x => stagedRead d s.gen x | none => d
    match getTxn d s.txn, getInc d s.gen with
    | some x, some inc =>
      let m := d.mangle
      let d0 := { d with mangle := { m with busy := minsert m.busy t (netBeats x.sectors) } }
      let d1 := eCount (unstage (useLeases d0 s) s) t 9 (netBeats x.sectors)
      if inc.failed then poisonDrain d1 s.txn
      else
        let r := drainSectors inc.op inc.fmt inc.mode inc.wb inc.accs (tubSector x.addr) x.sectors
        let d2 := setFlags d1 s.gen inc (if r.2 then fResult else 0)
        respond (onTxn d2 s.txn fun x => { x with lines := drainLines x r.1 }) s.txn .okay
    | _, _ => unstage d s

/-! ## Chunks and leases (R239 to R241, R245) -/

def m16Busy (d : Dev) (g : Nat) : Bool := d.txns.any fun e => match e.2.src with | .m16 h _ => h = g | _ => false

/-- CHUNK_RELEASE: the chunks of the first freed incarnation whose requests have completed are released. -/
def chunkRelease (d : Dev) : Dev :=
  match d.mangle.incs.find? (fun e => e.2.freed && !(d.mangle.queue.any fun s => s.gen = e.1) && !m16Busy d e.1) with
  | none => d
  | some (g, x) =>
    let m := d.mangle
    let ls := m.leases.map fun (e : Nat × List Lease) => (e.1, e.2.filter fun l => l.gen ≠ g)
    let m1 := { m with incs := merase m.incs g, leases := ls, flaws := m.flaws.filter fun f => f.gen ≠ g }
    if x.spill.isEmpty then { d with mangle := { m1 with taken := mputD 0 m.taken x.home (mgetD 0 m.taken x.home - x.chunks) } }
    else { d with mangle := { m1 with spillUsed := x.spill.foldl blankDel m.spillUsed } }

/-- The first chunk that a staged request of a tile lacks and that is neither leased nor on its way. -/
def wanted (d : Dev) (t : Nat) : Option (Nat × Nat) :=
  d.mangle.queue.findSome? fun s =>
    if s.tile = t then
      (s.needs.find? fun c => !(mgetD [] d.mangle.leases t).any fun l => l.gen = s.gen && l.chunk = c).map fun c => (s.gen, c)
    else none

/-- LEASE_READ: M16 reads a wanted chunk into a free lease chunk (R240); a failed tub wants none (R225). -/
def leaseRead (d : Dev) (t : Nat) : Dev :=
  let ls := mgetD [] d.mangle.leases t
  match wanted d t with
  | some (g, c) =>
    match getInc d g with
    | some x =>
      if ls.length < 16 then
        let d1 := { d with mangle := { d.mangle with leases := mputD [] d.mangle.leases t (ls ++ [⟨g, c, d.cycle, 0⟩]) } }
        m16Txn d1 .read g c (x.spill.getD c 0) []
      else d
    | none => d
  | none => d

/-- The first staged request of a tile that still lacks a chunk. -/
def firstLacking (d : Dev) (t : Nat) : Option Staged := d.mangle.queue.find? fun s => s.tile = t && !s.needs.isEmpty

/-- A lease chunk of a tile that may be reused: no request in its key's queue touches it (R241). DESIGN CHOICE (log entry 16):
nor does the first request of the tile that still lacks a chunk, so that each request gets its chunks in turn (R242, R248). -/
def leaseIdle (d : Dev) (t : Nat) (l : Lease) : Bool :=
  l.phase = 1 &&
    !d.mangle.queue.any fun s =>
      touches d s l.gen l.chunk && (joined d s || (firstLacking d t).map Staged.txn = some s.txn)

/-- Eight beats whose contents the spec calls internal: free values (R195, log entry 9). -/
def freeBeats (d : Dev) : List (BeatEn × BeatData) × Dev :=
  let beat (b : Nat) : BeatEn × BeatData :=
    (0, (List.range 8).foldl (fun (acc : BeatData) i => acc ||| ((Config.freeLine (d.free + 8 * b + i)).setWidth 4096 <<< (512 * i))) 0)
  ((List.range 8).map beat, { d with free := d.free + 64 })

/-- The header of an incarnation is FAILED: by a check, by M16, or by the host driver's FAIL (R225, R245). -/
def headFailed (d : Dev) (g : Nat) : Bool := d.mangle.tubs.any fun e => e.2.gen = g && e.2.state = .failed

/-- A lease chunk that nothing will read again: a check has failed its tub; or the tub is FAILED or freed, and no request of it
that was decided before is left that touches the chunk. It is reused without a write-back (R225, R241, R245). -/
def isSpent (d : Dev) (l : Lease) : Bool :=
  match getInc d l.gen with
  | some x => x.failed || ((x.freed || headFailed d l.gen) && !d.mangle.queue.any fun s => touches d s l.gen l.chunk)
  | none => true

/-- LEASE_WRITEBACK: the least recently used idle lease chunk of a tile makes room: M16 writes it back, unless nothing will read
it again (R241); its 64 beats leave the tile (R428). DESIGN CHOICE (log entry 16): of chunks used last in one step, the one leased first goes. -/
def leaseWriteback (d : Dev) (t : Nat) : Dev :=
  let ls := mgetD [] d.mangle.leases t
  let older (b : Option Lease) (l : Lease) : Option Lease :=
    match b with
    | none => some l
    | some x => if l.used.toNat < x.used.toNat then some l else some x
  match (wanted d t).isSome && decide (16 ≤ ls.length), (ls.filter (leaseIdle d t)).foldl older none with
  | true, some l =>
    match isSpent d l, getInc d l.gen with
    | true, _ | _, none => { d with mangle := { d.mangle with leases := mputD [] d.mangle.leases t (ls.erase l) } }
    | false, some x =>
      let away (e : Lease) : Lease := if e = l then { e with phase := 2 } else e
      let lost (s : Staged) : Staged :=
        if touches d s l.gen l.chunk && !s.needs.contains l.chunk then { s with needs := s.needs ++ [l.chunk] } else s
      let m := d.mangle
      let d1 := { d with mangle := { m with leases := mputD [] m.leases t (ls.map away), queue := m.queue.map lost } }
      let r := freeBeats (tubRead d1 l.gen (l.chunk * perChunk x) (perChunk x))
      m16Txn (eCount r.2 t 9 64) .writebolt l.gen l.chunk (x.spill.getD l.chunk 0) r.1
  | _, _ => d

/-! ## Aborts, ageing, queries (R244, R245, R247, R249) -/

def tubFail (d : Dev) (i : Nat) : Dev :=
  let t := getTub d i
  if t.state = .open_ ∨ t.state = .spilled then raise (setTub d i { t with state := .failed }) Ev.TUB_FAILED else d

def tubRelease (d : Dev) (i : Nat) : Dev := freeTub d i

/-- A write of DLG_TUB_ABORT. -/
def tubAbort (d : Dev) (v : Word) : Dev :=
  match bits v 31 30 with
  | 1 => tubFail d (bits v 15 0)
  | 2 => tubRelease d (bits v 15 0)
  | _ => d

/-- STRAGGLER: the tub's age has passed its limit and the event has not been raised since the restart (R247). -/
def straggler (d : Dev) (i : Nat) : Dev :=
  let t := getTub d i
  if t.state ≠ .free ∧ isAged d t ∧ ¬ t.aged then
    let d1 := rinc (raise (setTub d i { t with aged := true }) Ev.STRAGGLER) 0x8124 1
    if (rget d1 0x8120).getLsbD 31 then d1 else rset d1 0x8120 (BitVec.ofNat 32 (2 ^ 31 + i))
  else d

def TubState.code : TubState → Nat
  | .free => 0 | .open_ => 1 | .spilled => 2 | .refused => 3 | .failed => 4

/-- DLG_NUMQ: a query of a tub (R223, R249). DESIGN CHOICE (log entry 29): the query samples and completes in the step of the
write, within the 8 TCLK that R223 allows, so that DONE is not seen 0 after it. HOME of a REFUSED tub, which has none, reads 0:
DESIGN CHOICE (log entry 74). -/
def numq (d : Dev) (i : Nat) : Dev :=
  let t := getTub d i
  let isOpen := t.state = .open_ || t.state = .spilled || t.state = .failed
  let fl := match getInc d t.gen with | some x => x.flags.toNat | none => 0
  let home := match getInc d t.gen with | some x => if isOpen then x.home else 0 | none => 0
  let w (n : Nat) : Word := BitVec.ofNat 32 n
  let nf := if isOpen then 3 * 2 ^ 30 + keyIndex t.op t.fmt t.mode * 256 + fl else 2 ^ 31
  let st := t.state.code * 2 ^ 29 + (if t.state = .free then 0 else
    bit (tubComplete t) * 2 ^ 28 + bit (isAged d t) * 2 ^ 27 + t.size * 2 ^ 25 + home * 2 ^ 17 + t.tag.toNat)
  let d1 := rset (rset (rset d 0x8024 (w nf)) 0x8130 (w st)) 0x8134 (w t.expect)
  rset (rset d1 0x8138 (w (t.sectorsIn % 2 ^ 32))) 0x813C (w (t.sectorsIn / 2 ^ 32))

/-! ## Commands -/

/-- CONTRIB_STAGED (R216, R217). -/
def execContribStaged (s : State) : Host.Outcome State Fault Refusal := onDev s fun d => pumpInput d d.mangle.input
/-- KEY_SWITCH (R218). -/
def execKeySwitch (s : State) : Host.Outcome State Fault Refusal := onDev s keySwitch
/-- BATCH_BEGIN (R214). -/
def execBatchBegin (s : State) : Host.Outcome State Fault Refusal := onDev s batchBegin
/-- CONTRIB_REDUCED (R215). -/
def execContribReduced (t : Fin 256) (s : State) : Host.Outcome State Fault Refusal := onDev s (contribReduced · t.val)
/-- DRAIN_DELIVER (R237). -/
def execDrainDeliver (t : Fin 256) (s : State) : Host.Outcome State Fault Refusal := onDev s (drainDeliver · t.val)
/-- CHUNK_RELEASE (R239). -/
def execChunkRelease (s : State) : Host.Outcome State Fault Refusal := onDev s chunkRelease
/-- LEASE_READ (R240). -/
def execLeaseRead (t : Fin 256) (s : State) : Host.Outcome State Fault Refusal := onDev s (leaseRead · t.val)
/-- LEASE_WRITEBACK (R241). -/
def execLeaseWriteback (t : Fin 256) (s : State) : Host.Outcome State Fault Refusal := onDev s (leaseWriteback · t.val)
/-- STRAGGLER (R247). -/
def execStraggler (tub : BitVec 16) (s : State) : Host.Outcome State Fault Refusal := onDev s (straggler · tub.toNat)

end Sys2Proof.Machine
end

