-- ==== Sys2Proof/Machine/Ports.lean ====
section
/-!
DEFINITION. The request ports: headers and data beats, protocol errors, admission at the regulator, the fold unit, the
parts of a request, forwarding, responses, masks (R54, R106 to R148, R78 to R102, R280 to R291, R464).
-/
namespace Sys2Proof.Machine

/-! ## Protocol errors (R147, R148) -/

/-- Bit `k` of DLQ_PORT_ERRn is set, with the first error's capture. DESIGN CHOICE (log entry 66): an error of a kind whose bit
is 1 already raises PORT_PROTOCOL again; R148 says that each bit that is set raises it, and no more. -/
def portError (d : Dev) (n k : Nat) (tag : BitVec 8) : Dev :=
  let off := 0x2040 + 4 * n
  let w := rget d off
  let w1 := if bits w 5 0 = 0 then setBits (setBits w 31 24 tag.toNat) 18 16 k else w
  raise (rset d off (w1 ||| BitVec.ofNat 32 (2 ^ k))) Ev.PORT_PROTOCOL (some n)

/-! ## Ready (R139, R140, R145, R63) -/

/-- Beats of a port that wait for admission (R62, R63). -/
def queuedBeats (d : Dev) (n : Nat) : Nat :=
  (d.txns.map fun e => if e.2.master = n && !e.2.admitted then max 1 e.2.beats.length else 0).sum

/-- dl_qp{n}_req_ready. -/
def reqReady (d : Dev) (n : Nat) : Bool :=
  d.pins.ready && !d.pins.mask.getLsbD n && (!(getPort d n).blocked || isQuiet d n) && decide (queuedBeats d n < 32)

/-! ## The fold unit (R78 to R102) -/

/-- A denial (R102). -/
def recordDenial (d : Dev) (x : Txn) (source : Nat) : Dev :=
  let a := byteAddr x.addr
  let d1 := raise (rinc d 0x405C 1) Ev.DENIED (some x.master) (some (a % 2 ^ 37 / 2048))
  if (rget d1 0x4050).getLsbD 31 then d1
  else
    let info := 2 ^ 31 + x.master * 2 ^ 24 + x.kind.code * 2 ^ 16 + source
    rset (rset (rset d1 0x4050 (BitVec.ofNat 32 info)) 0x4054 (BitVec.ofNat 32 (a % 2 ^ 32)))
      0x4058 (BitVec.ofNat 32 (a / 2 ^ 32))

/-- Line i of a request: its location and its bolt. -/
def lineAt (d : Dev) (r ia i : Nat) : Loc × Nat :=
  let a := (ia / 64 + i) * 64
  let sp := stripeOf d r a
  (stripeDataLoc d sp.1 ((sp.2 + sp.1.slot) % 16), a / 2048)

/-- Parts of a request on lines; a line of a WRITE without an enabled byte has none (R112, R113). -/
def lineParts (d : Dev) (id : Nat) (x : Txn) (r ia : Nat) : List Part :=
  (List.range (lineCount ia x.sectors)).filterMap fun i =>
    let lb := lineAt d r ia i
    let mk (op : LineOp) : Option Part := some ⟨id, i, x.master, x.prio, op, lb.1, lb.2⟩
    match x.kind with
    | .read => mk (.read x.hint)
    | .write =>
      let w := lineWrite ia x.sectors x.beats i
      if w.1 = 0 then none else mk (.write x.hint w.1 w.2)
    | .prefetch => if x.hint = .stream then none else mk (.prefetch x.hint)
    | .clean => mk .clean
    | .flush => mk .flush
    | .atomic =>
      let v := (x.beats.getD 0 (0, 0)).2
      mk (.atomic x.aop (atomicWide x.attr) (ia % 64 + 4 * aoffOf x.attr) (v.setWidth 64) ((v >>> (64 : Nat)).setWidth 64))
    | _ => none

/-- The bolt operations of a ZERO or a WRITEBOLT, and the parts of each (R170, R350). -/
def boltParts (d : Dev) (id : Nat) (x : Txn) (r ia : Nat) : List BoltOp × List Part :=
  let one (b : Nat) : BoltOp × List Part :=
    let a := ia + 2048 * b
    let st := (stripeOf d r a).1
    let bolt := a / 2048
    let zero := x.kind = .zero
    let mk (m : Nat) : Part :=
      let p := (m + 16 - st.slot) % 16
      let op : LineOp := if zero then .zeroBolt
        else .writeBolt x.hint (boltLine x.beats b p 0) (boltLine x.beats b p 1)
      ⟨id, 16 * b + m, x.master, x.prio, op, stripeDataLoc d st m, bolt⟩
    (⟨id, bolt, zero, x.hint, st, x.master, [], []⟩, (List.range 16).map mk)
  let os := (List.range (x.sectors / 64)).map one
  (os.map Prod.fst, os.flatMap Prod.snd)

/-- A request that stays here is cut into its parts; one without a part is answered at once (R113, R117). -/
def dispatchLocal (d : Dev) (id : Nat) (x : Txn) (r ia : Nat) : Dev :=
  let isBolt := x.kind = .zero || x.kind = .writebolt
  let bp := if isBolt then boltParts d id x r ia else ([], lineParts d id x r ia)
  if bp.2.isEmpty then respond d id .okay
  else
    let d1 := bp.1.foldl (fun d o =>
      let p := getPanel d o.stripe.panel
      setPanel d o.stripe.panel { p with boltOps := p.boltOps ++ [o] }) d
    routeTxn (setTxn d1 id { x with unsent := bp.2, left := bp.2.length }) id

/-- A request of another instance's slot goes out on the die link (R57, R464). -/
def forwardTxn (d : Dev) (id : Nat) (x : Txn) (owner : Nat) : Dev :=
  let p := getPeer d owner
  let d1 := raise (setPeer d owner { p with seqOut := p.seqOut + 1 }) Ev.REMOTE_FWD (some x.master)
    (if x.kind.isTub then none else some (byteAddr x.addr % 2 ^ 37 / 2048))
  let d2 := setTxn d1 id { x with fwd := some (BitVec.ofNat 2 owner, p.seqOut) }
  let d3 := { d2 with link := { d2.link with fwds := d2.link.fwds ++ [(id, BitVec.ofNat 2 owner, d.cycle)] } }
  let h : BitVec 2 := match x.hint with | .none => 0 | .stream => 1 | .keep => 2 | .lastuse => 3
  send d3 owner (.req p.seqOut (Fin.ofNat 24 x.master) id (BitVec.ofNat 4 x.kind.code) x.addr
    (BitVec.ofNat 7 (x.sectors - 1)) h x.attr (BitVec.ofNat 3 x.prio) x.beats)

/-- Step 3 of R54: the fold unit, or Mangle control, takes an admitted request (R78, R116, R119, R121). -/
def foldTxn (d : Dev) (id : Nat) : Dev :=
  match getTxn d id with
  | none => d
  | some x =>
    match x.mark, x.kind.isTub with
    | some _, true => mangleInput d id
    | some c, false => respond d id c
    | none, true =>
      let i := slotOf x.addr
      if i = d.boot.inst.toNat then mangleInput d id
      else if isAbsent d i || d.link.isolated then respond d id .absent
      else forwardTxn d id x i
    | none, false =>
      match foldCheck d x.master x.kind x.addr x.sectors with
      | .answer c => respond d id c
      | .forward i => forwardTxn d id x i
      | .deny s => respond (recordDenial d x s) id .denied
      | .local r ia => dispatchLocal d id x r ia

/-! ## Admission (R282 to R291, R128) -/

/-- Response beats that a port's request reserves (R128). -/
def needBeats (x : Txn) : Nat := if x.mark.isSome then 1 else max 1 (x.kind.rspBeats x.sectors)

/-- The oldest waiting request of a master is admitted, once it holds a credit and its reservation: a request is folded, an
access of an internal master goes to its tile (R58, R291). The transaction admitted is named. -/
def admitHead (d : Dev) (m : Nat) : Option Nat × Dev :=
  match (getMaster d m).queue with
  | [] => (none, d)
  | id :: rest =>
    match getTxn d id with
    | none => (none, setMaster d m { getMaster d m with queue := rest })
    | some x =>
      if x.owed ≠ 0 then (none, d)
      else if !x.hasCredit && !creditOk d m then (none, d)
      else
        let d1 := if x.hasCredit then d else takeCredit d m
        let x := { x with hasCredit := true }
        let isPort := match x.src with | .port _ _ => true | _ => false
        let p := getPort d1 m
        if isPort && decide (512 < p.reserved + needBeats x) then (none, setTxn d1 id x)
        else
          let d2 := if isPort then setPort d1 m { p with reserved := p.reserved + needBeats x } else d1
          let isUnit := x.src = .unit
          let prio := if isUnit then max x.prio (effPrio d2 m) else effPrio d2 m
          let bolt := if isUnit then x.unsent.head?.map Part.bolt
            else if x.kind.isTub || x.kind = .reserved then none else some (byteAddr x.addr % 2 ^ 37 / 2048)
          let d3 := setMaster d2 m { getMaster d2 m with queue := rest }
          let d4 := chargeAdmit d3 m (chargeOf x.kind x.sectors x.mark.isSome) bolt
          let d5 := setTxn d4 id { x with admitted := true, prio := prio, at_ := d4.cycle,
                                          reserved := if isPort then needBeats x else 0,
                                          unsent := x.unsent.map fun q => { q with prio := prio } }
          (some id, if isUnit then routeTxn d5 id else foldTxn d5 id)

/-- The tiles at whose inputs a transaction's parts stand. -/
def tilesOf (d : Dev) (id : Nat) : List Nat :=
  ((List.range 320).filter fun t => (slice d t).arb.any fun e => e.2.any fun p => p.txn = id)

/-- Requests of a port go on as far as nothing obstructs them: admission, fold, grants. -/
def pumpMaster (n : Nat) (d : Dev) (m : Nat) : Dev :=
  match n with
  | 0 => d
  | n + 1 =>
    match admitHead d m with
    | (some id, d1) => pumpMaster n ((tilesOf d1 id).foldl (grantAll 40) d1) m
    | (none, d1) => d1

def flowOn (d : Dev) (n : Nat) : Flow → Dev
  | .hold => d
  | .through => pumpMaster ((getMaster d n).queue.length) d n

/-! ## Headers and data beats (R109, R119, R126, R127, R130) -/

/-- A header with this tag is outstanding on the port. -/
def tagOut (d : Dev) (n : Nat) (tag : BitVec 8) : Bool :=
  d.txns.any fun e => match e.2.src with | .port p t => p = n && t = tag | _ => false

/-- The previous request of the port is left short of data (R130). -/
def leaveShort (d : Dev) (n : Nat) : Dev :=
  let clear (d : Dev) : Dev := setPort d n { getPort d n with owing := none }
  match (getPort d n).owing with
  | none => d
  | some (.discarded tag _) => portError (clear d) n 1 tag
  | some (.txn id _) =>
    match getTxn d id with
    | some x =>
      let tag : BitVec 8 := match x.src with | .port _ t => t | _ => 0
      portError (clear (setTxn d id { x with owed := 0, mark := x.mark.or (some .length) })) n 1 tag
    | none => clear d

def markError (d : Dev) (n : Nat) (tag : BitVec 8) (k : Kind) : Option Rsp → Dev
  | some .denied => portError d n (if k = .reserved then 3 else 4) tag
  | some .length => portError d n 5 tag
  | _ => d

/-- A header beat is presented (R107, R119, R126, R127, R130). While ready is 0 no beat transfers. -/
def acceptHeader (d : Dev) (k : Kind) (aop : Nat) (h : Header) : Dev :=
  let n := h.port.val
  if !reqReady d n then d
  else
    let d0 := setPort d n { getPort d n with blocked := false }
    let d1 := leaveShort d0 n
    let sectors := h.len.toNat + 1
    let more := k.reqBeats sectors - 1
    if tagOut d1 n h.tag then
      let owe := if more = 0 then none else some (Owing.discarded h.tag more)
      portError (setPort d1 n { getPort d1 n with owing := owe }) n 0 h.tag
    else
      let mark := frontCheck k aop h.addr sectors h.attr
      let x : Txn := ⟨.port n h.tag, n, k, aop, h.addr, sectors, k.hint (hintOf h.hint), h.attr, [(h.be, h.data)], more, mark,
        false, 0, false, 0, 0, [], 0, [], false, false, none⟩
      let (id, d2) := newTxn d1 x
      let owe := if more = 0 then none else some (Owing.txn id more)
      flowOn (markError (queueAt (setPort d2 n { getPort d2 n with owing := owe }) n id) n h.tag k mark) n h.flow

/-- A data-only beat is presented (R107, R109, R127, R130). -/
def acceptData (d : Dev) (n : Nat) (tag : BitVec 8) (be : BeatEn) (data : BeatData) (f : Flow) : Dev :=
  if !reqReady d n then d
  else
    let p := getPort d n
    match p.owing with
    | none => portError d n 2 tag
    | some (.discarded t k) => setPort d n { p with owing := if k ≤ 1 then none else some (.discarded t (k - 1)) }
    | some (.txn id k) =>
      let d1 := onTxn d id fun x => { x with beats := x.beats ++ [(be, data)], owed := x.owed - 1 }
      let d2 := setPort d1 n { p with owing := if k ≤ 1 then none else some (.txn id (k - 1)) }
      if k ≤ 1 then flowOn d2 n f else d2

/-! ## Responses (R110, R129) -/

/-- The oldest complete response of a port is driven; its beats and its tag are free. -/
def responseLeave (d : Dev) (n : Nat) : Dev :=
  let p := getPort d n
  match p.done with
  | [] => d
  | (id, r, b) :: rest => dropTxn (setPort d n { p with done := rest, reserved := p.reserved - r, bus := some b }) id

/-! ## Masks (R142 to R145, R220) -/

/-- A bit of dl_req_mask rises. DESIGN CHOICE (log entry 55): data beats still owed to a header that R127 discarded are
forgotten too: the spec speaks of the beats of a request only. -/
def maskSet (d : Dev) (m : Nat) : Dev :=
  let d0 := { d with pins := { d.pins with mask := d.pins.mask ||| BitVec.ofNat 24 (2 ^ m) } }
  if 16 ≤ m || d.pins.mask.getLsbD m then d0
  else
    let p := getPort d0 m
    let gone := p.done.map fun e => e.1
    let d1 := gone.foldl dropTxn (setPort d0 m { p with done := [], reserved := p.reserved - (p.done.map fun e => e.2.1).sum, owing := none })
    let ids := (d1.txns.filter fun e => match e.2.src with | .port n _ => n = m | _ => false).map Prod.fst
    let d2 := (List.range 320).foldl (discardParts ids) d1
    let d3 := (d2.panels.flatMap fun e => e.2.boltOps).foldl (discardBolts ids) d2
    let d4 := ids.foldl silenceTxn d3
    (List.range 320).foldl settle d4

/-- A bit of dl_req_mask falls; ready stays 0 until the port is quiet (R145). -/
def maskClear (d : Dev) (m : Nat) : Dev :=
  let d0 := { d with pins := { d.pins with mask := d.pins.mask &&& ~~~(BitVec.ofNat 24 (2 ^ m)) } }
  if 16 ≤ m || !d.pins.mask.getLsbD m then d0
  else setPort d0 m { getPort d0 m with blocked := !isQuiet d0 m }

/-! ## Commands -/

/-- A header of an ATOMIC with operation `aop` (R114). -/
def atomicHeader (h : Header) (aop : Nat) : Header := { h with attr := (h.attr &&& 0xFFF8) ||| BitVec.ofNat 16 aop }
/-- A TUB_AMEND header whose descriptor has KIND `k` (R236). -/
def amendHeader (h : Header) (k : Nat) : Header :=
  { h with data := (h.data &&& ~~~(BitVec.ofNat 4096 (3 * 2 ^ 30))) ||| BitVec.ofNat 4096 (k * 2 ^ 30) }

/-- READ (R166). -/
def execRead (h : Header) (s : State) : Host.Outcome State Fault Refusal := onDev s (acceptHeader · .read 0 h)
/-- WRITE (R112). -/
def execWrite (h : Header) (s : State) : Host.Outcome State Fault Refusal := onDev s (acceptHeader · .write 0 h)
/-- WRITEBOLT (R170). -/
def execWritebolt (h : Header) (s : State) : Host.Outcome State Fault Refusal := onDev s (acceptHeader · .writebolt 0 h)
/-- ZERO (R350). -/
def execZero (h : Header) (s : State) : Host.Outcome State Fault Refusal := onDev s (acceptHeader · .zero 0 h)
/-- PREFETCH (R169). -/
def execPrefetch (h : Header) (s : State) : Host.Outcome State Fault Refusal := onDev s (acceptHeader · .prefetch 0 h)
/-- CLEAN (R178). -/
def execClean (h : Header) (s : State) : Host.Outcome State Fault Refusal := onDev s (acceptHeader · .clean 0 h)
/-- FLUSH (R178). -/
def execFlush (h : Header) (s : State) : Host.Outcome State Fault Refusal := onDev s (acceptHeader · .flush 0 h)
/-- ATOMIC_ADD (R174). -/
def execAtomicAdd (h : Header) (s : State) : Host.Outcome State Fault Refusal := onDev s (acceptHeader · .atomic 0 (atomicHeader h 0))
/-- ATOMIC_MAX (R174). -/
def execAtomicMax (h : Header) (s : State) : Host.Outcome State Fault Refusal := onDev s (acceptHeader · .atomic 1 (atomicHeader h 1))
/-- ATOMIC_MIN (R174). -/
def execAtomicMin (h : Header) (s : State) : Host.Outcome State Fault Refusal := onDev s (acceptHeader · .atomic 2 (atomicHeader h 2))
/-- ATOMIC_SWAP (R174). -/
def execAtomicSwap (h : Header) (s : State) : Host.Outcome State Fault Refusal := onDev s (acceptHeader · .atomic 3 (atomicHeader h 3))
/-- ATOMIC_CAS (R174). -/
def execAtomicCas (h : Header) (s : State) : Host.Outcome State Fault Refusal := onDev s (acceptHeader · .atomic 4 (atomicHeader h 4))
/-- BAD_ATTR: an ATOMIC with a reserved AOP, 5 to 7 (R121). -/
def execBadAttr (h : Header) (aop : Fin 3) (s : State) : Host.Outcome State Fault Refusal :=
  onDev s (acceptHeader · .atomic (5 + aop.val) (atomicHeader h (5 + aop.val)))
/-- CONTRIB (R235). -/
def execContrib (h : Header) (s : State) : Host.Outcome State Fault Refusal := onDev s (acceptHeader · .contrib 0 h)
/-- TUB_OPEN (R229). -/
def execTubOpen (h : Header) (s : State) : Host.Outcome State Fault Refusal := onDev s (acceptHeader · .tubOpen 0 h)
/-- TUB_AMEND_SET (R236). -/
def execTubAmendSet (h : Header) (s : State) : Host.Outcome State Fault Refusal := onDev s (acceptHeader · .tubAmend 0 (amendHeader h 0))
/-- TUB_AMEND_ADD (R236). -/
def execTubAmendAdd (h : Header) (s : State) : Host.Outcome State Fault Refusal := onDev s (acceptHeader · .tubAmend 0 (amendHeader h 1))
/-- TUB_AMEND_SUB (R236). -/
def execTubAmendSub (h : Header) (s : State) : Host.Outcome State Fault Refusal := onDev s (acceptHeader · .tubAmend 0 (amendHeader h 2))
/-- TUB_AMEND_KIND_RESERVED (R236). -/
def execTubAmendKindReserved (h : Header) (s : State) : Host.Outcome State Fault Refusal :=
  onDev s (acceptHeader · .tubAmend 0 (amendHeader h 3))
/-- TUB_DRAIN (R237). -/
def execTubDrain (h : Header) (s : State) : Host.Outcome State Fault Refusal := onDev s (acceptHeader · .tubDrain 0 h)
/-- RESERVED_TYPE: a header of TYPE 12 + ty (R121). Every reserved TYPE acts alike. -/
def execReservedType (h : Header) (_ty : Fin 4) (s : State) : Host.Outcome State Fault Refusal := onDev s (acceptHeader · .reserved 0 h)
/-- DATA_BEAT (R109). -/
def execDataBeat (port : Fin 16) (tag : BitVec 8) (be : BeatEn) (data : BeatData) (flow : Flow) (s : State) :
    Host.Outcome State Fault Refusal := onDev s (acceptData · port.val tag be data flow)
/-- REQUEST_ADMIT (R285). -/
def execRequestAdmit (m : Fin 24) (s : State) : Host.Outcome State Fault Refusal := onDev s fun d => (admitHead d m.val).2
/-- CREDIT_RETURN (R280). -/
def execCreditReturn (m : Fin 24) (s : State) : Host.Outcome State Fault Refusal := onDev s (creditReturn · m.val)
/-- RESPONSE_LEAVE (R129). -/
def execResponseLeave (port : Fin 16) (s : State) : Host.Outcome State Fault Refusal := onDev s (responseLeave · port.val)
/-- REQ_MASK_SET (R143). -/
def execReqMaskSet (m : Fin 24) (s : State) : Host.Outcome State Fault Refusal := onDev s (maskSet · m.val)
/-- REQ_MASK_CLEAR (R145). -/
def execReqMaskClear (m : Fin 24) (s : State) : Host.Outcome State Fault Refusal := onDev s (maskClear · m.val)
/-- REG_WINDOW_END (R287). -/
def execRegWindowEnd (s : State) : Host.Outcome State Fault Refusal := onDev s regWindowEnd

end Sys2Proof.Machine
end

