-- ==== Sys2Proof/Machine/Repair.lean ====
section
/-!
DEFINITION. The Patch table and its moves, the retirement list, Rinse, the wear trend (R386 to R395).
-/
namespace Sys2Proof.Machine

/-! ## Wear (R395) -/

def spareUsed (s : Svc) (bank i : Nat) : Bool := s.allSparesUsed || s.spares.contains (bank * 64 + i)

/-- The lowest unused spare index of a bank. -/
def freeSpare (s : Svc) (far : Bool) (bank : Nat) : Option Nat := (List.range (sparesOf far)).find? fun i => !spareUsed s bank i

def usedEntries (s : Svc) : Nat := ((List.range 16).filter fun e => (patchOf s e).state != .free).length

/-- Whether ADVISE holds. -/
def advises (d : Dev) (t : Nat) : Bool :=
  let s := svc d t
  let far := isFar t
  let warn := rbits d 0xB01C 15 0
  let pw := rbits d 0xB01C 23 20
  (warn ≠ 0 && decide (warn ≤ s.rate)) || (pw ≠ 0 && decide (pw ≤ usedEntries s)) ||
  (List.range (nbOf far)).any fun b => (freeSpare s far b).isNone

/-- ADVISE follows its tests; a rise raises WEAR_ADVISE. -/
def advise (d : Dev) (t : Nat) : Dev :=
  let now := advises d t
  let d1 := if now && !(svc d t).advise then raise d Ev.WEAR_ADVISE else d
  onSvc d1 t fun s => { s with advise := now }

/-- RATE after a window with n FAIL outcomes. -/
def nextRate (rate n : Nat) : Nat := min (((rate : Int) + Int.tdiv (16 * (n : Int) - rate) 8).toNat) 0xFFFF

/-- WEAR_WINDOW_END: every tile's rate. -/
def wearWindowEnd (d : Dev) : Dev :=
  (List.range 320).foldl (fun d t =>
    advise (onSvc d t fun s => { s with rate := nextRate s.rate s.failsInWindow, failsInWindow := 0 }) t) d

/-! ## Retirement (R103, R390) -/

/-- The pages of a row that stays where it is. DESIGN CHOICE (log entry 57): the up to 16 pages of a parity row are reported in
rising parity column: R103 gives no order. -/
def rowPages (d : Dev) (t bank row : Nat) : List Nat :=
  let page (c : Nat) : List Nat :=
    match roleOf d ⟨t, bank, row, c⟩ with
    | .data st | .parity st => [stripeBolt d { st with slot := 0 } / 1024]
    | .other => []
  ((List.range 16).flatMap fun c => page (2 * c)).eraseDups

/-- A report joins the list, or is counted as lost where the list is full. -/
def pushRetire (d : Dev) (w : Retire) : Dev :=
  if 64 ≤ d.retire.length then rcount d 0xB034 31 16 1 else { d with retire := d.retire ++ [w] }

def retireOne (t bank row reason : Nat) (d : Dev) (page : Nat) : Dev :=
  let par := decide (nwOf (isFar t) ≤ row)
  let d1 := pushRetire d (BitVec.ofNat 32 (reason * 2 ^ 29 + bit par * 2 ^ 28 + t * 2 ^ 16 + page))
  if 64 ≤ d.retire.length then d1
  else lint (raise d1 Ev.PAGE_RETIRE) 0x22 { tile := t, bank := bank, row := row } page reason

/-! ## Patch moves (R386 to R391) -/

def threshold (d : Dev) : Nat := max 1 (rbits d 0xB018 3 0)

/-- A tracked row is due for a move (R387). -/
def rowDue (d : Dev) (x : Track) : Bool := x.force || decide (threshold d ≤ x.fails) || decide (threshold d ≤ x.fixes)

/-- The entry that redirects a row. -/
def entryOf (s : Svc) (bank row : Nat) : Option Nat :=
  (List.range 16).find? fun e => let p := patchOf s e; p.state = .active && p.bank = bank && p.row = row

/-- A row of the Ledger, which no entry redirects (R493). -/
def isLedgerRow (far : Bool) (row : Nat) : Bool := decide (nwOf far + nwOf far / 16 + sparesOf far ≤ row)

/-- PATCH_MOVE_START: a row that is due moves, or is reported for retirement. DESIGN CHOICE (log entry 84): of several rows the most
recently counted one, which R387 does not order; and of several FREE entries the lowest, which R388 leaves open. -/
def patchMoveStart (d : Dev) (t : Nat) : Dev :=
  let s := svc d t
  let far := isFar t
  if !isIn d t || s.move.isSome then d
  else match s.tracker.find? (fun x => rowDue d x && !x.told && !isLedgerRow far x.row) with
    | none => d
    | some x =>
      let mine := entryOf s x.bank x.row
      let entry := mine.or ((List.range 16).find? fun e => (patchOf s e).state = .free)
      match freeSpare s far x.bank, entry with
      | some i, some e =>
        let old := mine.map fun e => (patchOf s e).spare
        let p : Patch := ⟨.moving, x.bank, x.row, old.getD i⟩
        advise (onSvc d t fun s =>
          { s with patches := mputD ⟨.free, 0, 0, 0⟩ s.patches e p, spares := insertNat s.spares (x.bank * 64 + i),
                   tracker := s.tracker.erase x, move := some ⟨e, x.bank, x.row, i, old, 0, none, false⟩ }) t
      | none, _ =>
        (rowPages d t x.bank x.row).foldl (retireOne t x.bank x.row 0)
          (onSvc d t fun s => { s with tracker := s.tracker.map fun y => if y = x then { y with told := true } else y })
      | _, none =>
        (rowPages d t x.bank x.row).foldl (retireOne t x.bank x.row 1)
          (onSvc d t fun s => { s with tracker := s.tracker.map fun y => if y = x then { y with told := true } else y })

def setMove (d : Dev) (t : Nat) (m : Move) : Dev := onSvc d t fun s => { s with move := some m }

/-- What one column of the spare row takes: the line read, the XOR of the bolt's lines, or a stain. -/
def patchLineOf (d : Dev) (j : Job) (l : Loc) (parity : Bool) : DLine :=
  let one (slot : Nat) : DLine :=
    let k := slotLoc d j.stripe slot
    match mget j.got slot with
    | some (_, .fail) | none => stainAt k
    | some (x, _) => x
  if parity then xorLines ((List.range 16).map one) else one (memberOf d l.tile)

/-- PATCH_COLUMN: the move reads its next column, or writes what it has read and advances its pointer (R388). A column of
a blank bolt holds nothing that is defined and is passed. -/
def patchColumn (d : Dev) (t : Nat) : Dev :=
  match (svc d t).move with
  | none => d
  | some m =>
    let l : Loc := ⟨t, m.bank, m.row, m.ptr⟩
    if !isIn d t || 32 ≤ m.ptr then d
    else match m.job with
      | none =>
        let start (st : Stripe) (par : Bool) (slots : List Nat) : Dev :=
          let d := blankLook d (stripeBolt d st)
          if !isValid d (stripeBolt d st) then setMove d t { m with ptr := m.ptr + 1 }
          else
            let id := d.nextJob
            kickJob (setMove (addJob d (mkJob st (.patch t par l) 0 slots)) t { m with job := some id }) id
        match roleOf d l with
        | .data st => start st false [memberOf d t]
        | .parity st => start st true (List.range 16)
        | .other => setMove d t { m with ptr := m.ptr + 1 }
      | some id =>
        match getJob d id with
        | none => setMove d t { m with job := none }
        | some j =>
          let par := match j.kind with | .patch _ b _ => b | _ => false
          if !isValid d (stripeBolt d j.stripe) then blankJob d id j
          else if !jobReady j then kickJob d id
          else postPuts d id (stripeBolt d j.stripe) false [(l, patchLineOf d j l par)]

/-- What a move leaves in the Patch table. -/
def movedTo (m : Move) (s : Svc) : Svc := { s with patches := minsert s.patches m.entry ⟨.active, m.bank, m.row, m.spare⟩, move := none }

/-- ROW_PATCHED: after the last column M21 writes the table's new record; when that write has returned the entry is ACTIVE
(R388, R389, R496). -/
def rowPatched (d : Dev) (t : Nat) : Dev :=
  match (svc d t).move with
  | none => d
  | some m =>
    if m.ptr < 32 || !isIn d t then d
    else if !m.saved then
      ledgerPost t 0x1000 8 (patchNat (isFar t) (movedTo m (svc d t))) (setMove d t { m with saved := true })
    else if (svc d t).led.any fun j => j.off = 0x1000 then d
    else
      let d1 := onSvc d t (movedTo m)
      let d2 := raise (rcount d1 (tileOff t 0x288) 7 0 1) Ev.ROW_PATCHED
      advise (lint d2 0x21 { tile := t, bank := m.bank, row := m.row } m.spare (bit m.old.isSome)) t

/-! ## Rinse (R392 to R394) -/

def isRinse (j : Job) : Bool := match j.kind with | .rinse => true | _ => false

/-- Rinse may create entries (R392, R439, R441). -/
def rinseRuns (d : Dev) (p : Nat) : Bool :=
  (rget d 0xB010).getLsbD 31 && d.boot.done && d.boot.step = 9 && !rinseHeld d &&
  (getPanel d p).walkTile.isNone

/-- Rinse looks up bit after bit from a position as far as its next valid bolt below another; n bounds the words that show
an error (R351). -/
def rinseLook (p pos len : Nat) : Nat → Dev → Dev
  | 0, d => d
  | n + 1, d =>
    match seek d p (fun b => isValid d b || (mget d.blank.errs (mapWord b)).isSome) len pos with
    | some q => rinseLook p pos len n (blankLook d (stripeBolt d (walkStripe p q)))
    | none => d

/-- The next valid bolt of the panel's walk; passing the last row group counts a pass (R394). -/
def rinseSeek (d : Dev) (p : Nat) : Dev × Option Nat :=
  let pos := (getPanel d p).rinsePos
  let d := rinseLook p pos (panelBolts p - pos) d.blank.errs.length d
  let f := isValid d
  match seek d p f (panelBolts p - pos) pos with
  | some q => (setPanel d p { getPanel d p with rinsePos := q }, some q)
  | none =>
    let d1 := rinsePass (setPanel d p { getPanel d p with rinsePos := 0 })
    let d1 := rinseLook p 0 pos d1.blank.errs.length d1
    match if pos = 0 then none else seek d1 p f pos 0 with
    | some q => (setPanel d1 p { getPanel d1 p with rinsePos := q }, some q)
    | none => (d1, none)

/-- Plies that Rinse reads of a bolt: those of live members, and the parity ply where q is live (R392). -/
def rinseSlots (d : Dev) (st : Stripe) : List Nat :=
  let outs := outMembers d st
  let live := (List.range 16).filter fun m => !outs.contains m
  let par := if outs.contains st.parityMember then [] else [16]
  (live ++ par).flatMap fun s => [s, s + 32]

/-- The panel's Rinse job, started on the next valid bolt where none runs. -/
def rinseJob (d : Dev) (p : Nat) : Dev :=
  match findJob d p isRinse with
  | some _ => d
  | none =>
    match rinseSeek d p with
    | (d1, none) => d1
    | (d1, some pos) =>
      let st := walkStripe p pos
      addJob d1 (mkJob st .rinse 0 (rinseSlots d1 st))

/-- M18 asks for a tile's ply of the current bolt, once no delta is on the way to its positions (R368, R392). -/
def rinsePost (d : Dev) (t : Nat) : Dev :=
  match findJob d (panelOf d t) isRinse with
  | none => d
  | some (id, j) =>
    match boltSettled d j.stripe, j.toRead.find? (fun s => s < 32 && j.toRead.contains (s + 32) && (slotLoc d j.stripe s).tile = t) with
    | true, some slot =>
      let j' := { j with toRead := j.toRead.filter (fun x => x ≠ slot && x ≠ slot + 32), open_ := j.open_ ++ [slot, slot + 32] }
      post (setJob d id j') 18 0 (.ply (.job id slot)) (slotLoc d j.stripe slot) (stripeBolt d j.stripe)
    | _, _ => d

/-- RINSE_ENTRY: a tile's access for Rinse is made; it goes on as far as nothing obstructs it, to its BG entry. -/
def rinseEntry (d : Dev) (t : Nat) : Dev :=
  if !rinseRuns d (panelOf d t) || (chan d t).bg.isSome || rateChanging d t || d.pins.mask.getLsbD 18 then d
  else
    let d1 := rinsePost (rinseJob d (panelOf d t)) t
    grantAll 2 (pumpMaster (getMaster d1 18).queue.length d1 18) t

/-- The parity line of one position differs from its data lines, or has failed while they have not (R393): what it
should be. -/
def rinseFix (d : Dev) (j : Job) (h : Nat) : Option (Loc × DLine) :=
  let st := { j.stripe with half := h }
  let got (s : Nat) : Option (DLine × Check) := mget j.got (s + 32 * h)
  let ok (s : Nat) : Bool := match got s with | some (_, .good) | some (_, .stain) => true | _ => false
  let whole := (List.range 16).all ok && (outMembers d st).isEmpty
  let x := xorLines ((List.range 16).map fun m => match got m with | some (v, _) => v | none => ⟨0, 0⟩)
  match got 16 with
  | some (v, k) => if whole && (k = .fail || v ≠ x) then some (stripeParityLoc d st, x) else none
  | none => none

/-- Data lines of a position that failed on live members. -/
def rinseFails (d : Dev) (j : Job) (h : Nat) : List Loc :=
  let st := { j.stripe with half := h }
  let outs := outMembers d st
  (List.range 16).filterMap fun m =>
    match mget j.got (m + 32 * h) with
    | some (_, .fail) => if outs.contains m then none else some (stripeDataLoc d st m)
    | _ => none

/-- PARITY_FIXED, its record, and the parity row's count (R393). -/
def fixParity (bolt : Nat) (d : Dev) (e : Loc × DLine) : Dev :=
  let l := e.1
  let d1 := raise d Ev.PARITY_FIXED none (some bolt)
  onSvc (lint d1 0x20 (lintLine d1 l)) l.tile fun s => { s with tracker := trackRow l.bank l.row 0 1 false s.tracker }

/-- RINSE_BOLT_DONE: the bolt's reads have returned. -/
def rinseBoltDone (d : Dev) (p : Nat) : Dev :=
  match findJob d p (fun j => isRinse j && jobReady j) with
  | none => d
  | some (id, j) =>
    let bolt := stripeBolt d j.stripe
    if !isValid d bolt then settlePanel (kickPanel (blankJob d id j) p) p
    else
      let fixes := (rinseFix d j 0).toList ++ (rinseFix d j 1).toList
      let fails := rinseFails d j 0 ++ rinseFails d j 1
      let d1 := postPuts (fixes.foldl (fixParity bolt) d) id bolt false fixes
      settlePanel (kickPanel (fails.foldl (fun d l => startRebuild d l .nobody 0 true .bg) d1) p) p

/-! ## Commands -/

/-- PATCH_MOVE_START (R387). -/
def execPatchMoveStart (t : Fin 320) (s : State) : Host.Outcome State Fault Refusal := onDev s (patchMoveStart · t.val)
/-- PATCH_COLUMN (R388). -/
def execPatchColumn (t : Fin 320) (s : State) : Host.Outcome State Fault Refusal := onDev s (patchColumn · t.val)
/-- ROW_PATCHED (R388). -/
def execRowPatched (t : Fin 320) (s : State) : Host.Outcome State Fault Refusal := onDev s (rowPatched · t.val)
/-- RINSE_ENTRY (R392). -/
def execRinseEntry (t : Fin 320) (s : State) : Host.Outcome State Fault Refusal := onDev s (rinseEntry · t.val)
/-- RINSE_BOLT_DONE (R393). -/
def execRinseBoltDone (p : Fin 20) (s : State) : Host.Outcome State Fault Refusal := onDev s (rinseBoltDone · p.val)
/-- WEAR_WINDOW_END (R395). -/
def execWearWindowEnd (s : State) : Host.Outcome State Fault Refusal := onDev s wearWindowEnd

end Sys2Proof.Machine
end

