-- ==== Sys2Proof/Machine/Hem.lean ====
section
/-!
DEFINITION. Tasks of a hem: retraining, loopback, calibration and tracking (R415 to R425).
-/
namespace Sys2Proof.Machine

def HemUse.code : HemUse → Nat
  | .idle => 0 | .tracking => 1 | .training => 2 | .nearEnd => 3 | .farEnd => 4

/-- MR6 of both layers of a near channel: FIFO mode, or normal mode (R403, R414, R417). -/
def fifoMode (d : Dev) (t : Nat) (v : BitVec 16) : Dev :=
  if isFar t then d
  else sendScript (eachLayer (fun k d => onLayer d t k fun x => { x with fifo := [] }) d) t [(6, v)]

/-! ## The start of a region's change of rate (R446) -/

def regionTiles (r : Nat) : List Nat := if r = 0 then List.range 256 else (List.range 32).map (256 + 32 * (r - 1) + ·)

/-- The hem runs a retraining or a loopback. -/
def hemRuns (d : Dev) (t : Nat) : Bool := let u := (svc d t).hem.use; u = .training || u = .nearEnd || u = .farEnd

/-- The region at the head of a change is paused as soon as no hem of it runs: PREA and due refreshes on every channel, and
self-refresh on a stack's. -/
def beginRegion (d : Dev) : Dev :=
  match d.energy.chg && !d.energy.begun, d.energy.changing with
  | true, r :: _ =>
    if (regionTiles r).any (hemRuns d) then d
    else
      let d1 := (regionTiles r).foldl (if r = 0 then pauseTile else sleepTile) d
      { d1 with energy := { d1.energy with begun := true } }
  | _, _ => d

/-- A write of DLT_HEM_CMD (R418, R446); the Bool says whether it is taken. DESIGN CHOICE (log entry 73): a tile that is not OUT is
told so before its busy generator is; and a command that R418 would accept has no effect until the hems' clocks run (R481). -/
def hemCmd (d : Dev) (t : Nat) (v : Word) : Dev × Bool :=
  let action := bits v 31 29
  let h := (svc d t).hem
  if action = 0 then (d, true)
  else if 5 ≤ action then (d, false)
  else if action = 4 then
    (if h.use = .nearEnd || h.use = .farEnd then onHem d t fun h => { h with stop := true } else d, true)
  else if (svc d t).state ≠ .out then (onHem d t fun h => { h with result := 2 }, false)
  else if h.use ≠ .idle || rateChanging d t then (onHem d t fun h => { h with result := 3 }, false)
  else if !d.pins.ck then (d, false)
  else if action = 1 then (onHem d t fun h => { h with use := .training }, true)
  else
    let u : HemUse := if action = 2 then .nearEnd else .farEnd
    let d1 := if action = 3 then fifoMode d t 4 else d
    (onHem d1 t fun h => { h with use := u, stop := false, byReturn := false, lbPin := none }, true)

/-- The narrowest eye measured on any hem (DLS_TRAIN_STATUS). -/
def seenMargin (d : Dev) (g : BitVec 8) : Dev :=
  { d with boot := { d.boot with trainMargin := if g.toNat < d.boot.trainMargin.toNat then g else d.boot.trainMargin } }

/-- RETRAIN_DONE: the end of a retraining (R415, R416, R426, R496). -/
def retrainDone (d : Dev) (t : Nat) (r : Trial) : Dev :=
  if (svc d t).hem.use ≠ .training || !d.pins.ck then d
  else
    let d0 := trialIds d t r
    let step := failStep d0 t r
    let g := trialMargin t r step
    let d1 := if step = some 1 then trainHem d0 t r else seenMargin (trainHem d0 t r) g
    match step with
    | none =>
      let done (h : Hem) : Hem := { h with use := .idle, result := 1, drift := 0, driftRaised := false, margin := g }
      let d2 := newValues (onHem d1 t done) t
      beginRegion (trainPost d2 t)
    | some k =>
      let d2 := onHem d1 t fun h => { h with use := .idle, result := 4, margin := g }
      beginRegion (lint d2 0x28 { tile := t } k (trainPin t k r.pin))

/-- The pins that a loopback can name (DLT_LB_PIN). -/
def lbPinFits (t pin : Nat) : Bool := decide (pin < if isFar t then 68 else 272)

/-- LOOPBACK_BURST_END: the burst's bit errors and its first failing pin; the refreshes that fell due within the burst; a
stop takes effect here (R327, R330, R417 to R419). -/
def loopbackBurstEnd (d : Dev) (t : Nat) (errs : BitVec 32) (pin at_ : Nat) : Dev :=
  if !inBurst d t || !d.pins.ck then d
  else
    let d1 := if errs = 0 then d else rinc d (tileOff t 0x308) errs.toNat
    let d2 := onHem d1 t fun h =>
      { h with lbPin := if errs = 0 || !lbPinFits t pin then h.lbPin else h.lbPin.or (some (BitVec.ofNat 9 pin)) }
    let h := (svc d2 t).hem
    let d2 := if h.use = .farEnd && !isFar t then eachLayer (fifoBatch (timing d2 t) t) d2 else d2
    let d3 := if h.use = .farEnd && h.stop then fifoMode d2 t 0 else d2
    let d4 := if h.stop then
        onHem d3 t fun h => { h with use := .idle, stop := false, byReturn := false, result := if h.byReturn then 5 else 1 }
      else d3
    beginRegion (repayQuiet (issueDue d4 t at_) t)

/-- Lowest-indexed in-service tile of the stack or tier of a tile. -/
def isFirstOfStack (d : Dev) (t : Nat) : Bool :=
  ((List.range 32).map (256 + (t - 256) / 32 * 32 + ·)).find? (inService d) = some t

/-- ZQ_CALIBRATION: the impedance calibrations of R424: the hem's, a gap on its data bus, in every state; the stack's, 512 FCLK
without commands on the stack's lowest-indexed tile in service. -/
def zqCalibration (d : Dev) (t : Nat) : Dev :=
  if !(rget d 0xD020).getLsbD 31 || !d.boot.trainDone then d
  else addTasks d t (if isFar t && isFirstOfStack d t then [.gap, .zq] else [.gap])

/-- READ_TRACKING: one tracking step, and the pin that has moved furthest (R424, R425). -/
def readTracking (d : Dev) (t : Nat) (drift : BitVec 8) (pin : BitVec 9) : Dev :=
  let s := svc d t
  if !(rget d 0xD020).getLsbD 30 || !d.boot.trainDone || s.state = .out || s.hem.use ≠ .idle || !lbPinFits t pin.toNat then d
  else
    let v := max s.hem.drift.toNat (min drift.toNat (min 255 (s.hem.drift.toNat + 1)))
    let use : HemUse := if isFar t then .idle else .tracking
    let d1 := addTasks (onHem d t fun h => { h with drift := BitVec.ofNat 8 v, use := use }) t (if isFar t then [.drift, .drift] else [.trk 0, .trk 1])
    let most := rbits d 0xD020 23 16
    if most ≠ 0 && decide (most < v) && !s.hem.driftRaised then
      lint (raise (onHem d1 t fun h => { h with driftRaised := true }) Ev.HEM_DRIFT) 0x29 { tile := t } pin.toNat v
    else d1

/-- RETRAIN_DONE (R416). -/
def execRetrainDone (t : Fin 320) (r : Trial) (s : State) : Host.Outcome State Fault Refusal :=
  onDev s (retrainDone · t.val r)
/-- LOOPBACK_BURST_END (R417). -/
def execLoopbackBurstEnd (t : Fin 320) (errs : BurstErrs) (at_ : Nat) (s : State) :
    Host.Outcome State Fault Refusal :=
  onDev s (loopbackBurstEnd · t.val errs.bits errs.pin.val at_)
/-- ZQ_CALIBRATION (R424). -/
def execZqCalibration (t : Fin 320) (s : State) : Host.Outcome State Fault Refusal := onDev s (zqCalibration · t.val)
/-- READ_TRACKING (R424). -/
def execReadTracking (t : Fin 320) (drift : BitVec 8) (pin : BitVec 9) (s : State) : Host.Outcome State Fault Refusal :=
  onDev s (readTracking · t.val drift pin)

end Sys2Proof.Machine
end

