-- ==== Sys2Proof/Machine/Energy.lean ====
section
/-!
DEFINITION. Energy accounting, rail measurements, windows and the purse, operating points and rate changes, droop
(R428 to R454).
-/
namespace Sys2Proof.Machine

def onEnergy (d : Dev) (f : Energy → Energy) : Dev := { d with energy := f d.energy }

def isManager (d : Dev) : Bool := d.boot.inst = d.boot.mgr

/-! ## Samples (R428 to R431) -/

/-- Coefficient of a class of an owner (R428, R429). -/
def coefOf (owner cls : Nat) : Nat :=
  if owner = 344 then 14
  else if 320 ≤ owner then 15 + cls
  else if cls < 5 then (if owner < 256 then cls else 5 + cls)
  else if cls ≤ 7 then cls + 5 else 13

/-- An owner counts towards E_est (R430). -/
def inEstimate (owner : Nat) : Bool := owner < 320 || owner = 344

def sampleOne (e : Energy) (x : Nat × Nat) : Energy :=
  let owner := x.1 / 16
  let pj := x.2 * mgetD 0 e.coefs (coefOf owner (x.1 % 16))
  let add (k n : Nat) (e : Energy) : Energy := { e with totals := mputD 0 e.totals k (mgetD 0 e.totals k + n) }
  let e1 := add owner pj e
  if inEstimate owner then { add 346 pj e1 with winPj := e1.winPj + pj } else e1

/-- The sample of one ECLK: every counter's advance, and STATIC. -/
def takeSample (e : Energy) : Energy :=
  let e1 := e.counts.foldl sampleOne { e with counts := [], eclk := e.eclk + 1 }
  let st := 1000 * mgetD 0 e.coefs 17
  let t := mputD 0 (mputD 0 e1.totals 345 (mgetD 0 e1.totals 345 + st)) 346 (mgetD 0 e1.totals 346 + st)
  { e1 with totals := t, winPj := e1.winPj + st }

/-- SPENT (R439). -/
def spentOf (e : Energy) : Nat :=
  let est := e.winPj / 1000000
  if e.diverged && e.estPrev ≠ 0 then est * max 256 (256 * e.aPrev / e.estPrev) / 256 else est

/-- Fields of DLW_OPk and of DLW_PHASE_OPp. -/
def ratio (d : Dev) (k : Nat) : Nat := rbits d (0xE060 + 4 * k) 24 16
def prefOf (d : Dev) (p : Nat) : Nat := rbits d (0xE080 + 4 * p) 1 0
def floorOf (d : Dev) (p : Nat) : Nat := rbits d (0xE080 + 4 * p) 5 4
def purseActs (d : Dev) : Bool := (rget d 0xE000).getLsbD 31 && !(rget d 0xE000).getLsbD 30

/-! ## Changes of point (R446, R447) -/

def nearSlowAt (d : Dev) (k : Nat) : Bool := (rget d (0xE060 + 4 * k)).getLsbD 1
def farSlowAt (d : Dev) (k : Nat) : Bool := (rget d (0xE060 + 4 * k)).getLsbD 0

/-- Regions whose rate differs at point k. -/
def changesFor (d : Dev) (k : Nat) : List Nat :=
  (if d.pins.nearSlow != nearSlowAt d k then [0] else []) ++ (if d.pins.far0Slow != farSlowAt d k then [1] else []) ++
  (if d.pins.far1Slow != farSlowAt d k then [2] else [])

/-- A change to point k starts; one whose rates all stand completes at once. None starts while one runs: the choice waits for its
end (log entry 24). -/
def startChange (d : Dev) (k : Nat) : Dev :=
  if d.energy.chg then onEnergy d fun e => { e with wish := some k }
  else if k = d.energy.point then onEnergy d fun e => { e with wish := none }
  else match changesFor d k with
    | [] => raise (onEnergy d fun e => { e with point := k, target := k, wish := none }) Ev.OPPOINT_CHANGE
    | rs => beginRegion (onEnergy d fun e => { e with target := k, chg := true, changing := rs, begun := false, wish := none })

def regionPanels (r : Nat) : List Nat := if r = 0 then List.range 16 else [2 * r + 14, 2 * r + 15]

/-- A region resumes: a stack's channels leave self-refresh. -/
def resumeRegion (d : Dev) (r : Nat) : Dev := if r = 0 then d else (regionTiles r).foldl wakeTile d

/-! ## Thresholds within a window (R439, R441) -/

/-- Once the purse is exhausted a change to FLOOR starts, one in a window; while a change runs it waits for its end (log entry
24). -/
def toFloor (d : Dev) : Dev :=
  let e := d.energy
  let fl := floorOf d e.phase.toNat
  if e.started && purseActs d && e.exhausted && decide (e.point < fl) && !e.midwin && !e.chg && !e.heldOff.getLsbD fl then
    startChange (onEnergy d fun e => { e with midwin := true }) fl
  else d

/-- After the end of a change the choice that waited for it is taken up, unless the purse has been exhausted meanwhile, which has
set its own change off, or its point is held off, or PIN has been set since; with EN at 0 the point is OP0 (R441, R443, R447; log
entry 24). -/
def nextChange (d : Dev) : Dev :=
  let w := rget d 0xE000
  match d.energy.wish with
  | some k =>
    if d.energy.chg || d.energy.heldOff.getLsbD k || (w.getLsbD 31 && w.getLsbD 30) then onEnergy d fun e => { e with wish := none }
    else startChange d (if w.getLsbD 31 then k else 0)
  | none => d

/-- What waited for the end of a change. -/
def changeEnded (d : Dev) : Dev := nextChange (toFloor d)

def thresholds (d : Dev) : Dev :=
  let e := d.energy
  let frac := rbits d 0xE000 23 16
  if !e.started || !purseActs d then d
  else
    let d1 := if frac ≠ 0 && decide (e.pEff * frac ≤ e.spent * 256) then onEnergy d fun e => { e with rinseHold := true } else d
    toFloor (if e.spent < e.pEff || e.exhausted then d1
      else raise (onEnergy d1 fun e => { e with exhausted := true }) Ev.PURSE_EXHAUSTED)

/-- RATE_CHANGE_REGION: the region under change takes the target's rate, or fails to lock (R446, R447). -/
def rateChangeRegion (d : Dev) (locked : Bool) : Dev :=
  match d.energy.chg, d.energy.changing with
  | true, r :: rest =>
    let d := beginRegion d
    if !d.energy.begun then d
    else
      let d1 := resumeRegion (onEnergy d fun e => { e with begun := false }) r
      if r ≠ 0 && !locked then
        let k := d.energy.target
        let off (e : Energy) : Energy :=
          { e with chg := false, changing := [], target := e.point, heldOff := e.heldOff ||| BitVec.ofNat 4 (2 ^ k) }
        (regionPanels r).foldl settlePanel (changeEnded (lint (raise (onEnergy d1 off) Ev.RELOCK_FAIL) 0x2C {} r k))
      else
        let k := d.energy.target
        let pins := if r = 0 then { d1.pins with nearSlow := nearSlowAt d k }
          else if r = 1 then { d1.pins with far0Slow := farSlowAt d k } else { d1.pins with far1Slow := farSlowAt d k }
        let d2 := onEnergy { d1 with pins := pins } fun e =>
          if rest.isEmpty then { e with changing := [], chg := false, point := k } else { e with changing := rest }
        (regionPanels r).foldl settlePanel (if rest.isEmpty then changeEnded (raise d2 Ev.OPPOINT_CHANGE) else beginRegion d2)
  | _, _ => d


/-- ENERGY_SAMPLE (R430). -/
def energySample (d : Dev) : Dev :=
  if d.pins.rstAsserted then d
  else thresholds (onEnergy d fun e => let x := takeSample e; { x with spent := spentOf x })

/-! ## Rails (R433 to R435) -/

def getRail (d : Dev) (r : Nat) : Rail := mgetD Reset.rail d.energy.rails r
def setRail (d : Dev) (r : Nat) (x : Rail) : Dev := onEnergy d fun e => { e with rails := mputD Reset.rail e.rails r x }
def railOn (d : Dev) (r : Nat) : Bool := (rget d (0xE120 + 4 * r)).getLsbD 31

/-- m × 2^e in thousandths, times (SCALE + 1)/256, rounded down. -/
def scaledMilli (m e : Int) (scale : Nat) : Int :=
  let n := m * 1000 * (scale + 1)
  if 0 ≤ e then n * 2 ^ e.toNat / 256 else n / (256 * 2 ^ (-e).toNat)

/-- Linear11: exponent in bits 15:11, mantissa in 10:0, both signed. -/
def linear11 (w : BitVec 16) : Int × Int := (signed 11 (w.toNat % 2048), signed 5 (w.toNat / 2048))

/-- VOUT_MODE of a slot: as read before, or as this read brings it, after EN has risen or a read of the slot has failed. -/
def voutMode (d : Dev) (r : Nat) (mode : BitVec 8) : Nat := mgetD mode.toNat d.energy.vmodes r

/-- The power that a good read brings, in mW. -/
def railPower (d : Dev) (r : Nat) : PmResult → Option Int
  | .pout w => let x := linear11 w; some (scaledMilli x.1 x.2 (rbits d (0xE120 + 4 * r) 7 0))
  | .voutIout mode v i =>
    let x := linear11 i
    some (scaledMilli (x.1 * v.toNat) (x.2 + signed 5 (voutMode d r mode % 32)) (rbits d (0xE120 + 4 * r) 7 0))
  | _ => none

def pmCause : PmResult → Nat
  | .pec => 1
  | .timeout => 2
  | _ => 0

/-- The result belongs to the mode of the slot. -/
def pmFits (d : Dev) (r : Nat) : PmResult → Bool
  | .pout _ => !(rget d (0xE120 + 4 * r)).getLsbD 30
  | .voutIout _ _ _ => (rget d (0xE120 + 4 * r)).getLsbD 30
  | _ => true

/-- The next slot of the sweep: enabled slots in rising order, over and over. -/
def nextSlotOf (d : Dev) : Option Nat := ((List.range 8).map fun i => (d.energy.pmNext + i) % 8).find? (railOn d)

/-- What a read leaves known of VOUT_MODE. -/
def keepMode (d : Dev) (r : Nat) (res : PmResult) (m : SMap Nat) : SMap Nat :=
  match res with
  | .voutIout mode _ _ => minsert m r (voutMode d r mode)
  | .pout _ => m
  | _ => merase m r

/-- PMBUS_READ_DONE: the read of the sweep's next slot ends. -/
def pmbusReadDone (d : Dev) (r : Nat) (res : PmResult) : Dev :=
  if d.pins.rstAsserted || !(rget d 0xE110).getLsbD 31 || nextSlotOf d ≠ some r || !pmFits d r res then d
  else
    let addr := rbits d (0xE120 + 4 * r) 22 16
    let d0 := onEnergy d fun e =>
      { e with page := minsert e.page addr (rbits d (0xE120 + 4 * r) 15 8), pmNext := (r + 1) % 8,
               vmodes := keepMode d r res e.vmodes }
    let x := getRail d0 r
    match railPower d r res with
    | some p =>
      let bad := p < 0 || 0xFFFFFF < p
      let v := if bad then (Config.railPower d0.free).toNat else p.toNat
      let d1 := if bad then { d0 with free := d0.free + 1 } else d0
      setRail d1 r ⟨true, false, 0, v, x.sum + v, x.count + 1⟩
    | none =>
      let n := min 15 (x.misses + 1)
      let now := decide (max 1 (rbits d 0xE110 27 24) ≤ n)
      let d1 := setRail d0 r { x with misses := n, stale := x.stale || now }
      if now && !x.stale then lint (raise d1 Ev.PMBUS_FAULT) 0x2B {} r (pmCause res) else d1

def rails (d : Dev) : List Nat := (List.range 8).filter (railOn d)

/-- E_meas of the closing window in µJ, and whether it is valid (R435). -/
def measured (d : Dev) : Nat × Bool :=
  let one (r : Nat) : Nat := let x := getRail d r; if x.count = 0 then x.power else x.sum / x.count
  let total := ((rails d).map one).sum
  (total * max 1 (rbits d 0xE000 7 0) * 16384 / 100000,
   (rget d 0xE110).getLsbD 31 && !(rails d).isEmpty && (rails d).all fun r => !(getRail d r).stale)

/-! ## The package cap (R452, R453) -/

def histAt (d : Dev) (i p : Nat) : Nat := mgetD 0 d.energy.hist (16 * i + p)

/-- A report reaches the manager's history. -/
def applyReport (d : Dev) (i phase point a : Nat) : Dev :=
  let alpha := rbits d 0xE000 27 24
  let x := a * 256 / max 1 (ratio d point)
  let h := histAt d i phase
  let h' := ((h : Int) + ((x : Int) - h) / 2 ^ alpha).toNat
  onEnergy d fun e => { e with hist := mputD 0 e.hist (16 * i + phase) h', reports := minsert e.reports i phase }

/-- Instances that are present in the manager's absent set. -/
def present (d : Dev) : List Nat := (List.range 4).filter fun i => !isAbsent d i

def demandOf (d : Dev) (i : Nat) : Nat :=
  let p := mgetD 0 d.energy.reports i
  histAt d i p * ratio d (prefOf d p) / 256

def floorUj (d : Dev) (i : Nat) : Nat := rbits d (0xE184 + 4 * i) 23 0

/-- Purse of instance i, and whether the cap is short (R453). -/
def purseOf (d : Dev) (i : Nat) : Nat × Bool :=
  let cap := rbits d 0xE180 23 0
  let ps := present d
  let sd := (ps.map (demandOf d)).sum
  let sf := (ps.map (floorUj d)).sum
  let e (j : Nat) : Nat := demandOf d j - floorUj d j
  let se := (ps.map e).sum
  if sd ≤ cap then (if sd = 0 then cap / ps.length else demandOf d i + (cap - sd) * demandOf d i / sd, false)
  else if sf ≤ cap then (if se = 0 then floorUj d i else floorUj d i + (cap - sf) * e i / se, false)
  else (cap * floorUj d i / sf, true)

/-- A write of DLW_PURSE_GRANT marks the grant fresh (R437). -/
def putGrant (d : Dev) (v : Nat) : Dev := onEnergy (rset d 0xE0C0 (BitVec.ofNat 32 (v % 2 ^ 24))) fun e => { e with fresh := true }

def clip24 (n : Nat) : Nat := min n 0xFFFFFF

/-- The manager writes purse and demand of one instance. -/
def grantOne (src d : Dev) (i : Nat) : Dev :=
  let p := clip24 (purseOf src i).1
  let q := clip24 (demandOf src i)
  if i = d.boot.inst.toNat then rset (putGrant d p) 0xE0C4 (BitVec.ofNat 32 q)
  else send (send d i (.regWrite 0xE0C0 (BitVec.ofNat 32 p))) i (.regWrite 0xE0C4 (BitVec.ofNat 32 q))

def sharePurse (d : Dev) : Dev :=
  let ps := present d
  let short := ps.any fun i => (purseOf d i).2
  ps.foldl (grantOne d) (if short then raise d Ev.CAP_SHORT else d)

/-! ## Window boundaries (R436 to R443, R450, R451) -/

/-- Step 1: the closing window and the divergence test. While DIVERGED is 1 RUN falls back to 0 through REARM alone (R451). -/
def closeWindow (d : Dev) : Dev :=
  let est := d.energy.winPj / 1000000
  let m := measured d
  let margin := rbits d 0xE0E0 7 0
  let n := max 1 (rbits d 0xE0E0 15 8)
  let diff := (est - m.1) + (m.1 - est)
  let div := m.2 && margin ≠ 0 && decide (margin * max est m.1 < diff * 256)
  let run := if div then min 255 (d.energy.run + 1) else if m.2 && !d.energy.diverged then 0 else d.energy.run
  let d1 := onEnergy d fun e =>
    { e with run := run, suspended := !m.2, estLast := est, measLast := m.1, measValid := m.2,
             rails := e.rails.map fun x => (x.1, { x.2 with sum := 0, count := 0 }) }
  if div && decide (n ≤ run) && !d.energy.diverged then
    lint (raise (onEnergy d1 fun e => { e with diverged := true, coefStale := true }) Ev.ESTIMATE_DIVERGED) 0x2A {} est m.1
  else d1

/-- Step 2: the accounted energy. -/
def accounted (e : Energy) : Nat := if e.diverged && e.measValid then max e.estLast e.measLast else e.estLast

/-- Step 3: the report; a worker that has lost its manager drops it (R472). -/
def reportWindow (d : Dev) : Dev :=
  let e := d.energy
  let a := clip24 e.acctLast
  if isManager d then sharePurse (applyReport d d.boot.inst.toNat e.phase.toNat e.point a)
  else if d.link.mgrLost then d
  else send d d.boot.mgr.toNat (.report e.phase (BitVec.ofNat 2 e.point) (BitVec.ofNat 24 a))

/-- Step 4: phase tag, coefficients, a fresh grant (R431, R437). -/
def takePending (d : Dev) : Dev :=
  let coefs := (List.range 17).foldl (fun (m : SMap Nat) c => mputD 0 m c (rbits d (0xE010 + 4 * c) 19 0))
    (mputD 0 [] 17 (rbits d 0xE008 15 0))
  let d1 := onEnergy d fun e => { e with phase := BitVec.ofNat 4 (rbits d 0xE004 3 0), coefs := coefs }
  let e := d1.energy
  if e.fresh then
    onEnergy d1 fun e => { e with grant := rbits d 0xE0C0 23 0, fresh := false, staleCnt := 0, stale := false }
  else
    let n := e.staleCnt + 1
    if max 1 (rbits d 0xE0C8 31 24) ≤ n && !e.stale then
      raise (onEnergy d1 fun e => { e with staleCnt := n, grant := rbits d 0xE0C8 23 0, stale := true }) Ev.PURSE_STALE
    else onEnergy d1 fun e => { e with staleCnt := n }

/-- The point chosen from PREF to FLOOR (R443, R447). -/
def choosePoint (d : Dev) : Nat :=
  let e := d.energy
  let p := e.phase.toNat
  let cand := (List.range 4).filter fun k => decide (prefOf d p ≤ k ∧ k ≤ floorOf d p) && !e.heldOff.getLsbD k
  let demand := rbits d 0xE0C4 23 0
  match cand.find? (fun k => decide (demand * ratio d k / max 1 (ratio d (prefOf d p)) ≤ e.pEff)) with
  | some k => k
  | none => (cand.getLast?).getD e.point

/-- Step 5: the effective purse and the operating point (R438, R441, R443). -/
def choose5 (d : Dev) : Dev :=
  let d1 := onEnergy d fun e => { e with pEff := e.grant - min e.grant (e.acctLast - e.pEff) }
  let w := rget d 0xE000
  if !w.getLsbD 31 then startChange d1 0 
  else if w.getLsbD 30 then onEnergy d1 fun e => { e with wish := none }
  else startChange d1 (choosePoint d1)

/-- Step 6. -/
def openWindow (e : Energy) : Energy :=
  { e with spent := 0, winPj := 0, exhausted := false, rinseHold := false, midwin := false, aPrev := e.acctLast, estPrev := e.estLast }

/-- ENERGY_WINDOW_END. -/
def energyWindowEnd (d : Dev) : Dev :=
  if !d.energy.started || d.pins.rstAsserted then d
  else
    let d1 := closeWindow d
    let d2 := onEnergy d1 fun e => { e with acctLast := accounted e }
    onEnergy (choose5 (takePending (reportWindow d2))) openWindow

/-- The windows start at apply: the first uses the fallback, and takes the readings completed from then on; the history starts
at PKG_CAP / 4 (R435, R436, R437, R452). -/
def energyStart (d : Dev) : Dev :=
  let g := rbits d 0xE0C8 23 0
  let h := rbits d 0xE180 23 0 / 4
  onEnergy d fun e =>
    { e with started := true, grant := g, pEff := g, winPj := 0, spent := 0,
             rails := e.rails.map fun x => (x.1, { x.2 with sum := 0, count := 0 }),
             hist := (List.range 64).foldl (fun m k => mputD 0 m k h) [] }

/-! ## Droop (R448) -/

/-- DROOP_START. -/
def droopStart (d : Dev) : Dev :=
  if d.pins.rstAsserted || rbits d 0xE160 23 16 = 0 || d.pins.droop then d
  else raise (rinc { d with pins := { d.pins with droop := true } } 0xE164 1) Ev.DROOP

/-- DROOP_END. -/
def droopEnd (d : Dev) : Dev := { d with pins := { d.pins with droop := false } }

/-! ## Commands -/

/-- ENERGY_SAMPLE (R430). -/
def execEnergySample (s : State) : Host.Outcome State Fault Refusal := onDev s energySample
/-- ENERGY_WINDOW_END (R436). -/
def execEnergyWindowEnd (s : State) : Host.Outcome State Fault Refusal := onDev s energyWindowEnd
/-- PMBUS_READ_DONE (R433). -/
def execPmbusReadDone (slot : Fin 8) (r : PmResult) (s : State) : Host.Outcome State Fault Refusal :=
  onDev s (pmbusReadDone · slot.val r)
/-- RATE_CHANGE_REGION (R446). -/
def execRateChangeRegion (locked : Bool) (s : State) : Host.Outcome State Fault Refusal := onDev s (rateChangeRegion · locked)
/-- DROOP_START (R448). -/
def execDroopStart (s : State) : Host.Outcome State Fault Refusal := onDev s droopStart
/-- DROOP_END (R448). -/
def execDroopEnd (s : State) : Host.Outcome State Fault Refusal := onDev s droopEnd

end Sys2Proof.Machine
end

