-- ==== Sys2Proof/Machine/Views.lean ====
section
/-!
DEFINITION. What a register reads as: the stored value, and for each field that shows the state of a unit, that state.
-/
namespace Sys2Proof.Machine

def clip (n v : Nat) : Nat := min v (2 ^ n - 1)

/-! ## Identity, boot, ports, regulation -/

def pendWord (d : Dev) (n : Nat) : Nat := (rget d (irqPend n)).toNat

/-- DLI_IRQ_SUMMARY. -/
def irqSummary (d : Dev) : Nat :=
  ((List.range 8).map fun n => bit (pendWord d n ≠ 0) * 2 ^ (8 + n) + bit (irqLevel d n) * 2 ^ n).sum

/-- DLI_STATUS. -/
def statusWord (d : Dev) : Nat :=
  bit d.pins.ready * 2 ^ 31 + bit d.pins.pllCore * 2 ^ 30 + bit d.pins.pllSeam * 2 ^ 29 + bit d.pins.pllFar * 2 ^ 28 +
    bit d.pins.pllFar * 2 ^ 27 + bit d.pins.testMode * 2 ^ 26 + quietBits d

/-- The DLB registers that show the boot unit (R508). -/
def bootView (f : Fuses) (d : Dev) (off : Nat) : Option Nat :=
  let b := d.boot
  match off with
  | 0x1004 => some (bit b.done * 2 ^ 31 + bit b.halted * 2 ^ 30 + bit b.warm * 2 ^ 29 + b.step * 2 ^ 24)
  | 0x1010 => some (b.imgState * 2 ^ 29 + b.imgReason * 2 ^ 24 + b.imgDetail)
  | 0x1014 => some (bit f.debug * 2 ^ 31 + f.revoke.toNat * 2 ^ 4)
  | 0x101C => some (bit d.pins.srDone * 2 ^ 31 + b.warmState * 2 ^ 28 + b.warmErr * 2 ^ 24)
  | 0x1020 => some (bit b.ledOrderly * 2 ^ 31 + bit b.ledBlank * 2 ^ 30 + bit b.ledMatch * 2 ^ 29 + b.ledCopyB * 2 ^ 16 + b.ledLost)
  | 0x1024 => some b.epoch.toNat
  | _ => if 0x1040 ≤ off ∧ off < 0x1070 then some (b.layout.getD ((off - 0x1040) / 4) 0).toNat else none

/-- DLI registers. -/
def idView (f : Fuses) (d : Dev) (off : Nat) : Option Nat :=
  match off with
  | 0x04 => some (f.uid.toNat % 2 ^ 32)
  | 0x08 => some (f.uid.toNat / 2 ^ 32)
  | 0x0C => some f.minSeq
  | 0x10 => some (statusWord d)
  | 0x40 => some (irqSummary d)
  | _ => if 0xC0 ≤ off ∧ off < 0xE0 then some (pendWord d ((off - 0xC0) / 4)) else none

/-- DLQ and DLA registers. -/
def regulatorView (d : Dev) (off : Nat) : Option Nat :=
  match off with
  | 0x2120 => some (bit (d.reg.factor < 1024) * 2 ^ 31 + d.reg.factor)
  | 0x2124 => some (clip 21 d.reg.deliver)
  | 0x2128 => some (clip 21 d.reg.guarSum)
  | 0x212C => some (sharedPool d * 2 ^ 16 + sharedUsed d)
  | 0x3004 => some d.pins.mask.toNat
  | _ =>
    if 0x2200 ≤ off ∧ off < 0x2380 then
      let m := (off - 0x2200) / 16
      let x := getMaster d m
      match off % 16 with
      | 8 => some (bit x.overBudget * 2 ^ 31 + bit (pressedNow d m) * 2 ^ 30 + x.held)
      | 12 => some x.charge
      | _ => none
    else none

/-! ## Press, Mangle, tubs -/

/-- Dirty cacheable lines. -/
def dirtyLines (d : Dev) : Nat :=
  (d.tiles.map fun e => (e.2.slice.sets.map fun s => (s.2.ways.filter fun w => w.2.valid && w.2.dirty).length).sum).sum

/-- Keys other than the current one with a non-empty queue. -/
def otherKeys (d : Dev) : Nat := ((List.range 48).filter fun k => k ≠ d.mangle.key && readyKey d k).length

def tubsIn (d : Dev) (p : TubState → Bool) : Nat := (d.mangle.tubs.filter fun e => p e.2.state).length

/-- DLP and DLG registers. DESIGN CHOICE (log entry 80): the staging entry of a TUB_DRAIN of the current key counts for ACTIVE, which R223
gives to beats. -/
def mangleView (d : Dev) (off : Nat) : Option Nat :=
  let g := d.mangle
  match off with
  | 0x6020 => some (bit (d.maint ≠ 0) * 2 ^ 31)
  | 0x6024 => some (dirtyLines d)
  | 0x8004 =>
    some (bit g.next.isSome * 2 ^ 31 + bit (g.queue.any fun s => s.key = g.key) * 2 ^ 30 + g.key * 2 ^ 8 + keyOp g.key * 2 ^ 6 +
      keyMode g.key * 2 ^ 5 + keyFmt g.key)
  | 0x8008 => some (otherKeys d * 2 ^ 24 + stagingUsed d)
  | 0x8104 => some (tubsIn d fun s => s = .open_)
  | 0x8108 => some (tubsIn d fun s => s = .spilled)
  | 0x810C => some (tubsIn d fun s => s = .refused || s = .failed)
  | 0x8110 => some (if d.boot.applied then ((List.range 256).map (freeChunks d)).sum else 0)
  | 0x8114 => some (spillFree d)
  | _ => none

/-! ## Integrity, service, heat, hems -/

/-- DLE registers. -/
def integrityView (d : Dev) (off : Nat) : Option Nat :=
  let b := d.boot
  match off with
  | 0xA000 => some (bit d.blank.busy * 2 ^ 31)
  | 0xA00C => some (if d.blank.known then blankCount d.blank.valid else 0)
  | 0xA020 =>
    some (bit (b.stRun ≠ 0) * 2 ^ 31 + bit b.stFatal * 2 ^ 30 + b.stRun * 2 ^ 28 + b.stTiles * 2 ^ 16 + b.stPanels * 2 ^ 8 +
      bit b.stPress * 2 + bit b.stBlank)
  | 0xA024 => some b.stFirst.toNat
  | 0xA040 => some d.lint.head.toNat
  | _ => if 0xA060 ≤ off ∧ off < 0xA080 then some (lintWord d ((off - 0xA060) / 4)).toNat else none

def liftWord (d : Dev) (n : Nat) : Nat :=
  let l := getLift d n
  bit (l.phase ≠ 0) * 2 ^ 31 + l.phase * 2 ^ 29 + l.copied * 2 ^ 9 + l.tile

def panelWord (d : Dev) (p : Nat) : Nat :=
  let x := getPanel d p
  let outs := ((panelTiles d p).filter fun t => (svc d t).state = .out || (svc d t).state = .returning).length
  bit (isDouble d p) * 2 ^ 31 + bit x.walkTile.isSome * 2 ^ 30 + bit x.walkTile.isSome * 2 ^ 29 + outs * 2 ^ 24 + x.walkTile.getD 0

/-- DLD registers; DROPPED is stored. -/
def serviceView (d : Dev) (off : Nat) : Option Nat :=
  match off with
  | 0xB020 => some (mendCount d)
  | 0xB030 => some (match d.retire with | w :: _ => 2 ^ 31 + w.toNat | [] => 0)
  | 0xB034 => some (rbits d off 31 16 * 2 ^ 16 + d.retire.length)
  | _ =>
    if 0xB040 ≤ off ∧ off < 0xB050 then some (liftWord d ((off - 0xB040) / 4))
    else if 0xB080 ≤ off ∧ off < 0xB0D0 then some (panelWord d ((off - 0xB080) / 4))
    else none

/-- DLH and DLS registers. -/
def heatView (d : Dev) (off : Nat) : Option Nat :=
  let b := d.boot
  if off = 0xD024 then
    some (bit b.trainDone * 2 ^ 31 + bit b.trainRestored * 2 ^ 30 + b.trainFailed * 2 ^ 16 + b.trainMargin.toNat)
  else if 0xC040 ≤ off ∧ off < 0xC04C then
    let h := getHeat d ((off - 0xC040) / 4)
    some (bit h.lost * 2 ^ 31 + bit h.crit * 2 ^ 30 + bit (inForce h) * 2 ^ 29 + h.step * 2 ^ 24 + h.hold * 2 ^ 16 + h.temp.toNat)
  else none

/-! ## Energy, package, tally -/

def totalNj (d : Dev) : Nat := clip 64 (mgetD 0 d.energy.totals (rbits d 0xE100 8 0) / 1000)

def railWord (d : Dev) (r : Nat) : Nat :=
  let x := getRail d r
  bit x.valid * 2 ^ 31 + bit x.stale * 2 ^ 30 + x.misses * 2 ^ 24 + x.power

/-- DLW registers. -/
def energyView (d : Dev) (off : Nat) : Option Nat :=
  let e := d.energy
  match off with
  | 0xE0CC => some (bit e.stale * 2 ^ 31 + bit e.exhausted * 2 ^ 30 + clip24 e.pEff)
  | 0xE0D0 => some (clip24 e.spent)
  | 0xE0D4 =>
    some (bit e.chg * 2 ^ 31 + bit d.pins.droop * 2 ^ 30 + bit e.midwin * 2 ^ 29 + e.heldOff.toNat * 2 ^ 24 + e.target * 2 ^ 20 +
      e.point * 2 ^ 16 + e.phase.toNat)
  | 0xE0E4 => some (bit e.diverged * 2 ^ 31 + bit e.coefStale * 2 ^ 30 + bit e.suspended * 2 ^ 29 + e.run)
  | 0xE0E8 => some (clip24 e.estLast)
  | 0xE0EC => some (bit e.measValid * 2 ^ 31 + clip24 e.measLast)
  | 0xE0F0 => some (clip24 e.acctLast)
  | 0xE104 => some (totalNj d % 2 ^ 32)
  | 0xE108 => some (totalNj d / 2 ^ 32)
  | 0xE1A4 => some (if isManager d then clip24 (histAt d (rbits d 0xE1A0 5 4) (rbits d 0xE1A0 3 0)) else 0)
  | _ => if 0xE140 ≤ off ∧ off < 0xE160 then some (railWord d ((off - 0xE140) / 4)) else none

def LinkState.code : LinkState → Nat
  | .down => 0 | .training => 1 | .up => 2 | .mismatch => 3

/-- The links have trained, or have been given up: a HELLO has come, or neither link trains any more. -/
def linksSettled (d : Dev) : Bool :=
  d.link.helloSeen || (!d.pins.rstAsserted && [0, 1].all fun j => (getLink d j).state ≠ .training)

/-- DLK_PRESENT. UNREACH shows once the links have settled: its reset is 0 although no path is up yet (log entry 27). -/
def presentWord (d : Dev) : Nat :=
  let me := d.boot.inst.toNat
  let one (i : Nat) : Nat :=
    let p := getPeer d i
    bit (i ≠ me && p.unreach && linksSettled d) * 2 ^ (8 + i) + bit p.marked * 2 ^ (4 + i) + bit (i = me || (!p.unreach && !p.marked)) * 2 ^ i
  bit (d.link.mgrLost && !isManager d) * 2 ^ 31 + bit d.link.isolated * 2 ^ 30 + ((List.range 4).map one).sum

/-- DLK_ABSENT_INFOi. -/
def absentWord (d : Dev) (i : Nat) : Nat :=
  let p := getPeer d i
  if isAbsent d i && (p.marked || linksSettled d) then 2 ^ 31 + (if p.marked then p.cause.toNat else 7) else 0

/-- DLK registers; BCAST.TMO is stored. -/
def packageView (d : Dev) (off : Nat) : Option Nat :=
  let mgr := isManager d
  match off with
  | 0xF000 => some (bit mgr * 2 ^ 31 + d.boot.mgr.toNat * 4 + d.boot.inst.toNat)
  | 0xF008 => some (presentWord d)
  | 0xF030 =>
    some (bit (mgr && d.link.bcastBusy) * 2 ^ 31 + rbits d off 23 16 * 2 ^ 16 +
      (if mgr then ((List.range 4).map fun i => (getPeer d i).bcast * 4 ^ i).sum else 0))
  | 0xF038 => some (if mgr then ((List.range 4).map fun i => (getPeer d i).misses * 16 ^ i).sum else 0)
  | _ =>
    if 0xF010 ≤ off ∧ off < 0xF020 then some (absentWord d ((off - 0xF010) / 4))
    else if 0xF020 ≤ off ∧ off < 0xF028 then
      let l := getLink d ((off - 0xF020) / 4)
      some (l.state.code * 2 ^ 30 + l.modules.toNat)
    else none

/-- DLC registers. -/
def tallyView (d : Dev) (off : Nat) : Option Nat :=
  let count (n : Nat) : Nat := mgetD 0 d.tally.counts n
  match off with
  | 0x10004 => some ((List.range 8).map fun n => bit (count n = countMax) * 2 ^ n).sum
  | 0x10008 => some (d.cycle.toNat % 2 ^ 32)
  | 0x1000C => some (d.cycle.toNat / 2 ^ 32)
  | _ =>
    if 0x10100 ≤ off ∧ off < 0x10200 then
      let n := (off - 0x10100) / 32
      match off % 32 with
      | 0x10 => some (count n % 2 ^ 32)
      | 0x14 => some (count n / 2 ^ 32)
      | _ => none
    else none

/-! ## Tile blocks -/

def Mode.code : Mode → Nat
  | .read => 0 | .hwm => 1 | .forced => 2 | .idle => 3

/-- DLT_QSTAT. -/
def qstatWord (d : Dev) (t : Nat) : Nat :=
  let c := chan d t
  let down (r : Nat) : Bool := (getRank c (if isFar t then 0 else r)).down
  bit (isFrozen d t) * 2 ^ 31 + bit c.bg.isSome * 2 ^ 30 + bit (down 1) * 2 ^ 29 + bit (down 0) * 2 ^ 28 + c.mode.code * 2 ^ 26 +
    dfCount c * 2 ^ 16 + c.ham.length * 2 ^ 8 + (c.rq.length + (slotWaiters d t).length)

/-- DLT_FRZ_DATA at the position of DLT_FRZ_SEL. -/
def frzData (d : Dev) (t : Nat) : Nat :=
  let sel := rget d (tileOff t 0x044)
  match (svc d t).snap with
  | some x => (mgetD 0 (if sel.getLsbD 8 then x.history else x.entries) (bits sel 7 0)).toNat
  | none => 0

def svcWord (d : Dev) (t : Nat) : Nat :=
  let s := svc d t
  s.state.code * 2 ^ 30 + (if s.state = .out then s.reason.code else 0) * 2 ^ 28 + bit s.hasCopy * 2 ^ 27 + bit s.warmOut * 2 ^ 26 +
    (if s.hasCopy then s.slot.getD 0 else 0) * 2 ^ 24 + bit s.draining * 2 ^ 23

def hemWord (d : Dev) (t : Nat) : Nat :=
  let h := (svc d t).hem
  h.use.code * 2 ^ 29 + h.result * 2 ^ 26 + h.drift.toNat * 2 ^ 16 + h.margin.toNat

/-- DLT registers of tile t at a block offset. DESIGN CHOICE: LIMIT4 of DLT_REF_STATUS reads 0 on a far tile, of which R334 gives only OWED0
and OWED1 (log entry 82); PTR of DLT_PATCH_USE reads 0 after column 31, while M21 writes the record (R396; log entry 84). -/
def tileView (d : Dev) (t off : Nat) : Option Nat :=
  let s := svc d t
  match off with
  | 0x010 => some (qstatWord d t)
  | 0x040 => some (if isFrozen d t then (s.snap.map frzStatus).getD 0 else 0)
  | 0x048 => some (frzData d t)
  | 0x180 =>
    let owed (r : Nat) : Nat := if isFar t then 0 else mgetD 0 (chan d t).owed r
    some (bit (!isFar t && owedLimit d = 4) * 2 ^ 8 + owed 1 * 2 ^ 4 + owed 0)
  | 0x214 => some s.stResult.toNat
  | 0x280 => some (svcWord d t)
  | 0x284 => some (bit s.advise * 2 ^ 31 + s.rate)
  | 0x288 =>
    some (bit s.move.isSome * 2 ^ 31 + ((s.move.map Move.ptr).getD 0) % 32 * 2 ^ 26 + usedEntries s * 2 ^ 16 + rbits d (tileOff t off) 7 0)
  | 0x304 => some (hemWord d t)
  | 0x30C => some (match s.hem.lbPin with | some p => 2 ^ 31 + p.toNat | none => 0)
  | _ => if 0x2C0 ≤ off ∧ off < 0x300 then some (patchWord (patchOf s ((off - 0x2C0) / 4))) else none

/-! ## Reading a register -/

/-- What the units show at an offset. -/
def unitView (f : Fuses) (d : Dev) (off : Nat) : Option Nat :=
  if off < 0x1000 then idView f d off
  else if off < 0x2000 then bootView f d off
  else if off < 0x4000 then regulatorView d off
  else if off < 0x6000 then none
  else if off < 0xA000 then mangleView d off
  else if off < 0xB000 then integrityView d off
  else if off < 0xC000 then serviceView d off
  else if off < 0xE000 then heatView d off
  else if off < 0xF000 then energyView d off
  else if off < 0x10000 then packageView d off
  else if off < 0x100000 then tallyView d off
  else tileView d ((off - 0x100000) / 0x1000) (off % 0x1000)

/-- The value a read returns; 0 at a reserved offset and in WO fields (R28, R29). -/
def regRead (f : Fuses) (d : Dev) (off : Nat) : Word :=
  match RegMap.find off with
  | none => 0
  | some (r, _, _) =>
    let v := match unitView f d off with | some n => BitVec.ofNat 32 n | none => rget d off
    r.fields.foldl (fun (v : Word) x => if x.acc = .wo then setBits v x.hi x.lo 0 else v) v

end Sys2Proof.Machine
end

