-- ==== Sys2Proof/Machine/Access.lean ====
section
/-!
DEFINITION. Register accesses before any command behaviour: the fields an agent's write reaches (R27 to R34), the writes
that a rule ignores as a whole, what follows a write at once; a read with its clears (R33, R36).
-/
namespace Sys2Proof.Machine

/-! ## Fields -/

/-- Writes of the agent take effect in a field of this owner (R31). -/
def Own.has : Own → Agent → Bool
  | .h, .host | .hm, _ | .m, .manager => true
  | _, _ => false

def Access.isWritable : Access → Bool
  | .ro | .rc => false
  | _ => true

def fieldsAt (off : Nat) : List Field :=
  match RegMap.find off with
  | some (r, _, _) => r.fields
  | none => []

/-- Fields that a write of agent a reaches: its own, and no locked RWL field (R28, R32). -/
def openFields (off : Nat) (a : Agent) (locked : Bool) : List Field :=
  (fieldsAt off).filter fun x => x.acc.isWritable && x.own.has a && !(x.acc = .rwl && locked)

/-- One field takes its bits of the written value. WO and W1S fields store nothing themselves. -/
def putField (v : Word) (cur : Word) (x : Field) : Word :=
  match x.acc with
  | .rw | .rwl => setBits cur x.hi x.lo (bits v x.hi x.lo)
  | .w1c => cur &&& ~~~(setBits 0 x.hi x.lo (bits v x.hi x.lo))
  | _ => cur

def putFields (fs : List Field) (cur v : Word) : Word := fs.foldl (putField v) cur

/-! ## Writes -/

/-- A rule lets the write act: R279 for DLT_SCHED_CTRL, DLE_LINT_TAIL for its range. -/
def ruleAllows (d : Dev) (off : Nat) (v : Word) : Bool :=
  if off = 0xA044 then lintTailOk d v
  else if 0x100000 ≤ off ∧ off < 0x240000 ∧ off % 0x1000 = 0 then
    decide (1 ≤ bits v 6 0 ∧ bits v 6 0 ≤ 96 ∧ bits v 14 8 < bits v 6 0)
  else true

/-- What a write brings about beside its fields: a fresh grant (R437), COEF_STALE (R451), ADVISE (R395), pending bits set
by DLI_IRQ_SETn (R539). -/
def afterWrite (d : Dev) (off : Nat) (v : Word) : Dev :=
  if off = 0xE0C0 then onEnergy d fun e => { e with fresh := true }
  else if off = 0xE008 ∨ (0xE010 ≤ off ∧ off < 0xE054) then onEnergy d fun e => { e with coefStale := false }
  else if off = 0xB01C then (List.range 320).foldl advise d
  else if 0xC0 ≤ off ∧ off < 0xE0 then
    let n := (off - 0xC0) / 4
    rset d (irqPend n) (rget d (irqPend n) ||| putFields ((fieldsAt off).map fun x => { x with acc := .rw }) 0 v)
  else d

/-- The fields named take the value, with what follows. A rise of DLW_PM_CTRL.EN starts the sweep anew (R433). -/
def storeWrite (d : Dev) (off : Nat) (fs : List Field) (v : Word) : Dev :=
  let d1 := if off = 0xE110 && !(rget d off).getLsbD 31 then onEnergy d fun e => { e with pmNext := 0, vmodes := [] } else d
  afterWrite (rset d1 off (putFields fs (rget d1 off) v)) off v

def writerNum : Agent → Nat
  | .host => 0
  | .manager => 1

def logIgnored (d : Dev) (off : Nat) (v : Word) : Dev := lint d 0x12 {} off v.toNat
def logNotOwner (d : Dev) (off : Nat) (a : Agent) : Dev := lint d 0x10 {} off (writerNum a)

/-- The register has a writable field of another agent only, or beside the writer's (R32). -/
def hasForeign (off : Nat) (a : Agent) : Bool := (fieldsAt off).any fun x => x.acc.isWritable && !x.own.has a

/-- A write without command behaviour; the Bool says whether a field took it (R32, R530, R534). -/
def plainWrite (d : Dev) (a : Agent) (locked : Bool) (off : Nat) (v : Word) : Dev × Bool :=
  if !(fieldsAt off).any (fun x => x.acc.isWritable) then (logIgnored d off v, false)
  else
    let d1 := if hasForeign off a then logNotOwner d off a else d
    let fs := openFields off a locked
    if fs.isEmpty then (d1, false)
    else if !ruleAllows d1 off v then (logIgnored d1 off v, false)
    else (storeWrite d1 off fs v, true)

/-! ## Reads -/

/-- Lower register of the 64-bit pairs (R35). -/
def pairLows : List Nat :=
  [0x04, 0x2140, 0x2148, 0x2150, 0x2158, 0x4054, 0x8138, 0xE104, 0x10008] ++ (List.range 8).map fun n => 0x10110 + 0x20 * n

def isPairLow (off : Nat) : Bool := pairLows.contains off
def isPairHigh (off : Nat) : Bool := 4 ≤ off && pairLows.contains (off - 4)

/-- The host driver's read clears the RC fields (R33). -/
def clearRc (d : Dev) (off : Nat) : Dev :=
  let fs := (fieldsAt off).filter fun x => x.acc = .rc
  if fs.isEmpty then d else rset d off (fs.foldl (fun (w : Word) x => setBits w x.hi x.lo 0) (rget d off))

/-- What a host read of an offset does: its clears, the pop of DLD_RETIRE (R33, R390); DLQ_TC_BYTESn_LO clears its pair. -/
def readEffect (d : Dev) (off : Nat) : Dev :=
  let d1 := if off = 0xB030 then { d with retire := d.retire.tail } else d
  let d2 := clearRc d1 off
  if isPairLow off then clearRc d2 (off + 4) else d2

def capOf? (d : Dev) : Agent → Option (Nat × Word)
  | .host => d.ycp.capHost
  | .manager => d.ycp.capMgr

def setCap (d : Dev) (a : Agent) (c : Option (Nat × Word)) : Dev :=
  { d with ycp := match a with | .host => { d.ycp with capHost := c } | .manager => { d.ycp with capMgr := c } }

/-- One read access: the value and the state after it (R33, R36). -/
def readAccess (f : Fuses) (d : Dev) (a : Agent) (off : Nat) : Word × Dev :=
  let v := regRead f d off
  let clear (d : Dev) : Dev := match a with | .host => readEffect d off | .manager => d
  if isPairLow off then (v, clear (setCap d a (some (off, regRead f d (off + 4)))))
  else if isPairHigh off then
    match capOf? d a with
    | some (lo, w) => if lo = off - 4 then (w, setCap d a none) else (v, clear d)
    | none => (v, clear d)
  else (v, clear d)

end Sys2Proof.Machine
end

