-- ==== Sys2Proof/Machine/Package.lean ====
section
/-!
DEFINITION. Manager, workers and the die link: forwarded requests and their answers, marks, heartbeats, the pattern
broadcast, links (R456 to R477).
-/
namespace Sys2Proof.Machine

def me (d : Dev) : Nat := d.boot.inst.toNat
def instances : List Nat := List.range 4
def others (d : Dev) : List Nat := instances.filter fun i => i ≠ me d
/-- Instances to which a path is up. -/
def reachable (d : Dev) : List Nat := (others d).filter fun i => !(getPeer d i).unreach
def onLinkState (d : Dev) (f : Package → Package) : Dev := { d with link := f d.link }

/-! ## Forwarded requests at the forwarding instance (R464 to R466) -/

def dropFwd (d : Dev) (id : Nat) : Dev := onLinkState d fun p => { p with fwds := p.fwds.filter fun e => e.1 ≠ id }

/-- A forwarded request of a port completes with a given burst; a masked or silent one without a response (R143). -/
def finishFwd (d : Dev) (id : Nat) (c : Rsp) (data : List BeatData) (poison : List (BitVec 8)) (record : Bool) : Dev :=
  match getTxn (dropFwd d id) id with
  | none => dropFwd d id
  | some x =>
    let d0 := dropFwd d id
    match x.src with
    | .port n tag =>
      let p := getPort d0 n
      if x.silent || d0.pins.mask.getLsbD n then
        pushDue (dropTxn (setPort d0 n { p with reserved := p.reserved - x.reserved }) id) x.master x.at_ false
      else
        let d1 := setPort d0 n { p with done := p.done ++ [(id, x.reserved, ⟨tag, c, data, poison⟩)] }
        pushDue (setTxn d1 id { x with left := 0, unsent := [], fwd := none }) x.master x.at_ record
    | _ => respond d0 id c

/-- ABSENT in place of the remote response (R146, R465). -/
def absentFwd (d : Dev) (id : Nat) : Dev := finishFwd d id .absent [0] [0] false

/-- Every request outstanding at an instance is answered ABSENT (R466). -/
def absentAll (d : Dev) (i : Nat) : Dev :=
  ((d.link.fwds.filter fun e => e.2.1.toNat = i).map fun e => e.1).foldl absentFwd d

/-- RSP_MESSAGE. -/
def rspMessage (d : Dev) (m : Msg) : Dev :=
  if d.pins.rstAsserted || m.dst ≠ d.boot.inst then d
  else match m.body with
    | .rsp tag c poison data =>
      let d1 := linkRx d m.body
      if d1.link.fwds.any fun e => e.1 = tag && e.2.1 = m.src then
        finishFwd d1 tag c (if data.isEmpty then [0] else data) (if data.isEmpty then [0] else poison.map (BitVec.ofNat 8)) true
      else d1
    | _ => d

/-- REMOTE_TIMEOUT: the oldest forwarded request. -/
def remoteTimeout (d : Dev) : Dev :=
  match d.link.fwds with
  | [] => d
  | (id, _, _) :: _ =>
    if rbits d 0xF004 31 24 = 0 then d
    else
      let d1 := match getTxn d id with
        | some x => raise d Ev.REMOTE_TIMEOUT (some x.master) (if x.kind.isTub then none else some (byteAddr x.addr % 2 ^ 37 / 2048))
        | none => d
      absentFwd (rinc d1 0xF040 1) id

/-! ## Forwarded requests at the owner (R464, R471, R492) -/

/-- A request is presented to the regulator as M19; an instance that is not enabled answers it ABSENT. -/
def presentReq (d : Dev) (m : Msg) : Dev :=
  match m.body with
  | .req _ _ tag ty addr len hint attr _ beats =>
    if !d.pins.ready then send d m.src.toNat (.rsp tag .absent [] [])
    else
      let k := kindOfCode ty.toNat
      let aop := if k = .atomic then aopOf attr else 0
      let x : Txn := ⟨.remote m.src tag, 19, k, aop, addr, len.toNat + 1, k.hint (hintOf hint), attr, beats, 0, none,
        false, 0, false, 0, 0, [], 0, [], false, false, none⟩
      let r := newTxn d x
      queueAt r.2 19 r.1
  | _ => d

/-- Present the held requests that now are in order. -/
def presentHeld : Nat → Dev → Nat → Dev
  | 0, d, _ => d
  | n + 1, d, i =>
    let p := getPeer d i
    match mget p.reorder p.seqIn.toNat with
    | some m => presentHeld n (presentReq (setPeer d i { p with seqIn := p.seqIn + 1, reorder := merase p.reorder p.seqIn.toNat }) m) i
    | none => d

def reqBeats (m : Msg) : Nat := match m.body with | .req _ _ _ _ _ _ _ _ _ b => b.length | _ => 0
def storeUsed (p : Peer) : Nat := (p.reorder.map fun e => Config.reorderEntries (reqBeats e.2)).sum

/-- A request comes with a number that was skipped. Where the numbers have wrapped since, a number ahead of the expected one is a
new request's: no owner has more than 6144 unanswered (R464). -/
def isLate (p : Peer) (seq : BitVec 16) : Bool := p.skipped.contains seq.toNat && decide (0 < (p.seqIn - seq).toNat ∧ (p.seqIn - seq).toNat < 2 ^ 15)

/-- REQ_MESSAGE. An early message that finds the reorder store full is not taken: it stays on its link (R464). -/
def reqMessage (d : Dev) (m : Msg) : Dev :=
  match m.body with
  | .req seq _ _ _ _ _ _ _ _ _ =>
    if d.pins.rstAsserted || m.dst ≠ d.boot.inst || m.src = d.boot.inst then d
    else
      let i := m.src.toNat
      let p := getPeer d i
      if isLate p seq then setPeer (linkRx d m.body) i { p with skipped := p.skipped.erase seq.toNat }
      else if seq = p.seqIn then
        let q := { p with seqIn := p.seqIn + 1, skipped := p.skipped.erase seq.toNat }
        presentHeld p.reorder.length (presentReq (setPeer (linkRx d m.body) i q) m) i
      else if storeUsed p + Config.reorderEntries (reqBeats m) ≤ 512 then
        setPeer (linkRx d m.body) i { p with reorder := minsert p.reorder seq.toNat m }
      else d
  | _ => d

/-- REQ_SEQ_SKIP. -/
def reqSeqSkip (d : Dev) (i : Nat) : Dev :=
  let p := getPeer d i
  if d.pins.rstAsserted || rbits d 0xF004 31 24 = 0 || p.reorder.isEmpty then d
  else
    let q := { p with seqIn := p.seqIn + 1, skipped := p.seqIn.toNat :: p.skipped }
    presentHeld p.reorder.length (setPeer d i q) i

/-! ## Marks (R466, R470, R471) -/

/-- The instance applies a mark; one that holds it already raises nothing again. -/
def applyMark (d : Dev) (i : Nat) (cause : BitVec 3) : Dev :=
  let p := getPeer d i
  if p.marked then setPeer d i { p with cause := cause }
  else
    let d1 := setPeer d i { p with marked := true, cause := cause, beating := false }
    absentAll (lint (raise d1 Ev.INSTANCE_ABSENT) 0x2D {} i cause.toNat) i

def clearMark (d : Dev) (i : Nat) : Dev := setPeer d i { getPeer d i with marked := false, cause := 0 }

/-- The manager marks a worker and tells every instance that it can reach. -/
def markWorker (d : Dev) (i : Nat) (cause : BitVec 3) : Dev :=
  let p := getPeer d i
  let d1 := if p.bcast = 1 then setPeer d i { p with bcast := 3, beating := false } else d
  let was := p.marked
  let d2 := applyMark d1 i cause
  if was then d2 else (reachable d2).foldl (fun d j => send d j (.absentSet (BitVec.ofNat 2 i) cause)) d2

/-- ISOLATED. -/
def isolate (d : Dev) : Dev :=
  if d.link.isolated then d
  else raise { d with link := { d.link with isolated := true }, pins := { d.pins with ready := false } } Ev.ISOLATED

/-- ABSENT_SET. -/
def absentSet (d : Dev) (i : Nat) (cause : BitVec 3) : Dev :=
  if d.pins.rstAsserted || isManager d then d
  else if i = me d then isolate d
  else applyMark d i cause

/-- ABSENT_CLEAR. -/
def absentClear (d : Dev) (i : Nat) : Dev :=
  if d.pins.rstAsserted || isManager d || i = me d || !(getPeer d i).marked then d else clearMark d i

/-! ## The broadcast (R467, R468, R474) -/

/-- The broadcast ends once no worker is in progress and the manager has applied; a JOIN, which may come before that, once its
worker is not in progress any more (R474). -/
def endBcast (d : Dev) : Dev :=
  if (others d).any (fun i => (getPeer d i).bcast = 1) || (!d.boot.applied && d.link.joining.isNone) then d
  else onLinkState d fun p => { p with bcastBusy := false, joining := none }

/-- Bytes of the image: LENGTH and the signature block. -/
def imageBytes (d : Dev) : Nat := min ((mgetD 0 d.boot.image 2).toNat + 256) 0x100000

/-- Message n of the image: 224 B. -/
def imageMsg (d : Dev) (n : Nat) : MsgBody :=
  .image (224 * n) ((List.range 56).map fun k => mgetD 0 d.boot.image (56 * n + k))

/-- Step 1 of R467 for one worker. -/
def bcastTo (d : Dev) (i : Nat) : Dev :=
  let d1 := setPeer d i { getPeer d i with bcast := 1, acked := false, verified := false }
  (List.range ((imageBytes d + 223) / 224)).foldl (fun d n => send d i (imageMsg d n)) d1

/-- A worker fails the broadcast. -/
def bcastFail (d : Dev) (i : Nat) (cause : BitVec 3) : Dev :=
  endBcast (markWorker (raise (setPeer d i { getPeer d i with bcast := 3 }) Ev.BCAST_FAIL) i cause)

/-- Step 1 of R467 for every worker. -/
def bcastStart (d : Dev) : Dev :=
  let d1 := onLinkState d fun p => { p with bcastBusy := true, joining := none }
  (others d1).foldl (fun d i => if (getPeer d i).unreach then bcastFail d i 6 else bcastTo d i) d1

/-- VERDICT. -/
def verdict (d : Dev) (i : Nat) (reason : Option (BitVec 4)) : Dev :=
  if d.pins.rstAsserted || !isManager d || (getPeer d i).bcast ≠ 1 then d
  else match reason with
    | some _ => bcastFail d i 3
    | none => send (setPeer d i { getPeer d i with verified := true }) i (.regWrite 0xC030 (BitVec.ofNat 32 i))

/-- REG_ACK: the answer to the SLOT write completes step 3; a join goes on with APPLY (R467, R474). -/
def regAck (d : Dev) (i off : Nat) : Dev :=
  let p := getPeer d i
  if d.pins.rstAsserted || !isManager d || off ≠ 0xC030 || p.bcast ≠ 1 || !p.verified || p.acked then d
  else
    let d1 := setPeer d i { p with acked := true }
    if d.link.joining = some (BitVec.ofNat 2 i) then send d1 i .apply else d1

/-- Every worker of the broadcast has acknowledged its slot or has failed (step 4 of R467). -/
def bcastReady (d : Dev) : Bool := (others d).all fun i => (getPeer d i).bcast ≠ 1 || (getPeer d i).acked

/-- APPLIED: the worker joins the package. -/
def applied (d : Dev) (i : Nat) : Dev :=
  let p := getPeer d i
  if d.pins.rstAsserted || !isManager d || p.bcast ≠ 1 || !p.acked then d
  else
    let d1 := setPeer d i { p with bcast := 2, beating := true, misses := 0, hbWaiting := false }
    let d2 := if p.marked then
        (reachable d1).foldl (fun d j => send d j (.absentClear (BitVec.ofNat 2 i))) (clearMark d1 i)
      else d1
    endBcast d2

/-- BCAST_TIMEOUT. -/
def bcastTimeout (d : Dev) (i : Nat) : Dev :=
  if d.pins.rstAsserted || !isManager d || (getPeer d i).bcast ≠ 1 then d else bcastFail d i 2

/-- JOIN; the Bool says whether R474 accepts it. -/
def joinInst (d : Dev) (i : Nat) : Dev × Bool :=
  if !isManager d || i = me d || !(getPeer d i).marked || (getPeer d i).unreach || d.link.bcastBusy then (d, false)
  else (bcastTo (onLinkState d fun p => { p with bcastBusy := true, joining := some (BitVec.ofNat 2 i) }) i, true)

/-- EVICT; the Bool says whether it is taken. -/
def evictInst (d : Dev) (i : Nat) : Dev × Bool :=
  if !isManager d || i = me d then (d, false)
  else if (getPeer d i).marked then (d, true)
  else (endBcast (markWorker d i 5), true)

/-- A write of DLK_JOIN. -/
def joinCmd (d : Dev) (v : Word) : Dev × Bool :=
  match bits v 31 30 with
  | 0 => (d, isManager d)
  | 1 => joinInst d (bits v 1 0)
  | 2 => evictInst d (bits v 1 0)
  | _ => (d, false)

/-! ## Heartbeats (R469, R472) -/

def presentSet (d : Dev) : BitVec 4 := BitVec.ofNat 4 (presentWord d)

/-- One worker at a heartbeat interval: the check comes before the send, and the heartbeat goes out also where the check marks
the worker (R469 and its example). -/
def beatOne (d : Dev) (i : Nat) : Dev :=
  let p := getPeer d i
  if !p.beating || p.marked then d
  else
    let n := if p.hbWaiting then min 15 (p.misses + 1) else 0
    let d1 := setPeer d i { p with misses := n, hbWaiting := true }
    let d2 := if max 1 (rbits d 0xF004 23 20) ≤ n then markWorker d1 i 1 else d1
    send d2 i (.heartbeat d.link.hbSeq (presentSet d2))

/-- HEARTBEAT_SEND. -/
def heartbeatSend (d : Dev) : Dev :=
  if d.pins.rstAsserted || !isManager d then d
  else (others d).foldl beatOne (onLinkState d fun p => { p with hbSeq := p.hbSeq + 1 })

/-- A worker's mark follows a present set. -/
def followPresent (present : BitVec 4) (d : Dev) (i : Nat) : Dev :=
  let marked := (getPeer d i).marked
  if present.getLsbD i then (if marked then clearMark d i else d)
  else if marked then d
  else applyMark { d with free := d.free + 1 } i (Config.markCause d.free)

/-- Both liveness toggles have flipped since the last heartbeat: that of TCLK flips every 64 cycles, that of ECLK every 16. -/
def isAlive (d : Dev) : Bool :=
  d.cycle.toNat / 64 != d.link.beatT.toNat / 64 && d.energy.eclk.toNat / 16 != d.link.beatE.toNat / 16

/-- HEARTBEAT: it is answered where both toggles have flipped, and the MCLK side has seen it (R469). -/
def heartbeat (d : Dev) (seq : BitVec 8) (present : BitVec 4) (toggled : Bool) : Dev :=
  if d.pins.rstAsserted || isManager d then d
  else
    let d0 := onLinkState d fun p => { p with mgrLost := false, beatT := d.cycle, beatE := d.energy.eclk }
    let d1 := (others d).foldl (followPresent present) d0
    let d2 := if present.getLsbD (me d) then d1 else isolate d1
    if toggled && isAlive d then send d2 d.boot.mgr.toNat (.hbAck seq d2.pins.ready d2.boot.stFatal) else d2

/-- HB_ACK. -/
def hbAck (d : Dev) (i : Nat) (seq : BitVec 8) : Dev :=
  if d.pins.rstAsserted || !isManager d || seq ≠ d.link.hbSeq then d
  else setPeer d i { getPeer d i with hbWaiting := false }

/-- MANAGER_LOST. -/
def managerLost (d : Dev) : Dev :=
  if d.pins.rstAsserted || isManager d || !d.link.applyAt || d.link.mgrLost then d
  else lint (raise (onLinkState d fun p => { p with mgrLost := true }) Ev.MANAGER_LOST) 0x31

/-- LEAVE. -/
def leave (d : Dev) (i : Nat) : Dev :=
  if d.pins.rstAsserted || !isManager d || i = me d || (getPeer d i).marked then d else endBcast (markWorker d i 4)

/-- REPORT: a worker that is marked is not counted (R452, R470). -/
def report (d : Dev) (i : Nat) (phase : BitVec 4) (point : BitVec 2) (a : BitVec 24) : Dev :=
  if d.pins.rstAsserted || !isManager d || isAbsent d i then d else applyReport d i phase.toNat point.toNat a.toNat

/-! ## Links (R457, R459, R462, R464) -/

/-- A path to an instance comes up: the sequence restarts. -/
def pathUp (d : Dev) (i : Nat) : Dev :=
  let p := getPeer d i
  if p.unreach then setPeer d i { p with unreach := false, seqOut := 0, seqIn := 0, skipped := [], reorder := [], detour := false }
  else d

/-- The instance loses its last path to another one. -/
def pathDown (d : Dev) (i : Nat) : Dev :=
  let p := getPeer d i
  if p.unreach || i = me d then d
  else
    let cut (l : Link) : Link := { l with queue := l.queue.filter fun q => q.msg.dst.toNat ≠ i }
    let d0 := onLinkState d fun k => { k with held := k.held.filter fun m => m.dst.toNat ≠ i }
    let d1 := setPeer d0 i { p with unreach := true }
    let d2 := setLink (setLink d1 0 (cut (getLink d1 0))) 1 (cut (getLink d1 1))
    let d3 := absentAll d2 i
    if isManager d && !p.marked then endBcast (markWorker d3 i 6) else d3

/-- The instances to which no path is left become unreachable (R466). -/
def losePaths (d : Dev) : Dev := ((others d).filter fun i => !pathOk d i 0 && !pathOk d i 1).foldl pathDown d

/-- The instances to which a path is up are reachable (R466). -/
def gainPaths (d : Dev) : Dev := ((others d).filter fun i => pathOk d i 0 || pathOk d i 1).foldl pathUp d

/-- Management messages that move to link o take the path that is not preferred, unless o starts the preferred one (R460). -/
def noteDetour (o : Nat) (d : Dev) (q : Queued) : Dev :=
  let i := q.msg.dst.toNat
  if q.relayed || !q.msg.body.isManagement then d
  else setPeer d i { getPeer d i with detour := o ≠ directLink (me d) i }

/-- Link j carries messages no more: what is queued for it goes to the other link when that is up, and the instances to which
no path is left become unreachable (R457, R462, R463). -/
def linkLost (d : Dev) (j : Nat) (l : Link) : Dev :=
  let o := 1 - j
  let moves := linkUp d o
  let rest := l.queue.filter fun q => q.msg.body.code ≠ 3
  let d1 := setLink d j { l with queue := if moves then [] else rest }
  let d2 := if moves then
      rest.foldl (noteDetour o) (setLink d1 o { getLink d1 o with queue := (getLink d1 o).queue ++ rest })
    else d1
  losePaths d2

/-- This instance sends its own HELLO on link j once the link has trained (R457); it waits for room among the management messages
(R62, R63), ahead of those held back. -/
def sendHello (d : Dev) (j : Nat) : Dev :=
  let m : Msg := ⟨d.boot.inst, d.boot.inst ^^^ BitVec.ofNat 2 (j + 1), .hello d.boot.inst d.boot.mgr Config.revision⟩
  sendHeld (onLinkState d fun k => { k with held := m :: k.held })

/-- HELLO on a link that has trained: this instance's own goes out too (log entry 25). A link that is up, down or mismatched
trains again only after a reset of one of its instances (R462). -/
def helloOwn (d : Dev) (j : Nat) (modules : BitVec 5) (inst mgr : BitVec 2) (rev : BitVec 8) : Dev :=
  if (getLink d j).state ≠ .training then d
  else
    let d := onLinkState d fun k => { k with helloSeen := true }
    let l := getLink d j
    if inst = d.boot.inst ^^^ BitVec.ofNat 2 (j + 1) && mgr = d.boot.mgr && rev = Config.revision then
      gainPaths (sendHello (setLink d j ⟨.up, modules, l.queue.filter fun q => q.msg.body.code ≠ 3⟩) j)
    else
      lint (raise (sendHello (linkLost d j ⟨.mismatch, modules, l.queue⟩) j) Ev.LINK_MISMATCH) 0x2F {} j (Config.helloWord inst mgr rev)

def setFar (d : Dev) (far : BitVec 2) : Dev := onLinkState d fun k => { k with far := far }

/-- HELLO, of one of this instance's links or of one beyond a neighbour, which brings paths up (R457, R460, R464, R466). -/
def hello (d : Dev) (l : HelloLink) (modules : BitVec 5) (inst mgr : BitVec 2) (rev : BitVec 8) : Dev :=
  if d.pins.rstAsserted then d
  else match l with
    | .own j => helloOwn d j.val modules inst mgr rev
    | .far j => gainPaths (setFar d (d.link.far ||| BitVec.ofNat 2 (2 ^ j.val)))

/-- Bits of the links beyond this instance's own that face an instance. -/
def farOf (me i : Nat) : BitVec 2 := if Nat.xor me i = 3 then 3 else BitVec.ofNat 2 (2 ^ (Nat.xor me i - 1))

/-- LINK_DOWN: the links that face an instance go down; this instance's own only where it has not come up, or, to train again,
where that instance is in reset (R462, R466, R470, R498). -/
def linkDown (d : Dev) (x : PathLoss) : Dev :=
  let i := x.inst.toNat
  if d.pins.rstAsserted || i = me d then d
  else
    let d1 := setFar d (d.link.far &&& ~~~(farOf (me d) i))
    let j := Nat.xor (me d) i - 1
    let l := getLink d1 j
    if 2 ≤ j then losePaths d1
    else if x.reset then linkLost d1 j ⟨.training, 0, l.queue⟩
    else if l.state = .training then linkLost d1 j { l with state := .down }
    else losePaths d1

/-- LINK_MODULE_DOWN: the adapter retries of the link since the last one, and the module, where it could not be repaired (R462,
DLK_LINK_RETRYj). -/
def linkModuleDown (d : Dev) (m : Nat) (e : ModuleEvent) : Dev :=
  let j := m / 5
  let k := m % 5
  let l := getLink d j
  let d0 := rinc d (0xF028 + 4 * j) e.retries.toNat
  if d.pins.rstAsserted then d
  else if e.repaired || !l.modules.getLsbD k then d0
  else
    let left := l.modules &&& ~~~(BitVec.ofNat 5 (2 ^ k))
    let d1 := lint (raise (setLink d0 j { l with modules := left }) Ev.LINK_MODULE_DOWN) 0x2E {} m
    if left ≠ 0 then d1 else linkLost d1 j ⟨.down, 0, l.queue⟩

/-! ## Commands -/

/-- REQ_MESSAGE (R464). -/
def execReqMessage (m : Msg) (s : State) : Host.Outcome State Fault Refusal := onDev s (reqMessage · m)
/-- REQ_SEQ_SKIP (R464). -/
def execReqSeqSkip (src : BitVec 2) (s : State) : Host.Outcome State Fault Refusal := onDev s (reqSeqSkip · src.toNat)
/-- RSP_MESSAGE (R463, R465). -/
def execRspMessage (m : Msg) (s : State) : Host.Outcome State Fault Refusal := onDev s (rspMessage · m)
/-- REMOTE_TIMEOUT (R465). -/
def execRemoteTimeout (s : State) : Host.Outcome State Fault Refusal := onDev s remoteTimeout
/-- HELLO (R457). -/
def execHello (link : HelloLink) (modules : BitVec 5) (inst mgr : BitVec 2) (rev : BitVec 8) (s : State) :
    Host.Outcome State Fault Refusal := onDev s (hello · link modules inst mgr rev)
/-- VERDICT (R467, R468). -/
def execVerdict (src : BitVec 2) (reason : Option (BitVec 4)) (s : State) : Host.Outcome State Fault Refusal :=
  onDev s (verdict · src.toNat reason)
/-- APPLIED (R467). -/
def execApplied (src : BitVec 2) (s : State) : Host.Outcome State Fault Refusal := onDev s (applied · src.toNat)
/-- REG_ACK (R475). -/
def execRegAck (src : BitVec 2) (off : BitVec 24) (_taken : Bool) (s : State) : Host.Outcome State Fault Refusal :=
  onDev s (regAck · src.toNat off.toNat)
/-- HEARTBEAT_SEND (R469). -/
def execHeartbeatSend (s : State) : Host.Outcome State Fault Refusal := onDev s heartbeatSend
/-- HEARTBEAT (R469, R470). -/
def execHeartbeat (seq : BitVec 8) (present : BitVec 4) (toggled : Bool) (s : State) : Host.Outcome State Fault Refusal :=
  onDev s (heartbeat · seq present toggled)
/-- HB_ACK (R469). No rule uses what it carries beside its number. -/
def execHbAck (src : BitVec 2) (seq : BitVec 8) (_ready _fatal : Bool) (s : State) : Host.Outcome State Fault Refusal :=
  onDev s (hbAck · src.toNat seq)
/-- REPORT (R452). -/
def execReport (src : BitVec 2) (phase : BitVec 4) (point : BitVec 2) (a : BitVec 24) (s : State) :
    Host.Outcome State Fault Refusal := onDev s (report · src.toNat phase point a)
/-- ABSENT_SET (R470, R471). -/
def execAbsentSet (inst : BitVec 2) (cause : BitVec 3) (s : State) : Host.Outcome State Fault Refusal :=
  onDev s (absentSet · inst.toNat cause)
/-- ABSENT_CLEAR (R474). -/
def execAbsentClear (inst : BitVec 2) (s : State) : Host.Outcome State Fault Refusal := onDev s (absentClear · inst.toNat)
/-- LEAVE (R473). -/
def execLeave (src : BitVec 2) (s : State) : Host.Outcome State Fault Refusal := onDev s (leave · src.toNat)
/-- BCAST_TIMEOUT (R468). -/
def execBcastTimeout (inst : BitVec 2) (s : State) : Host.Outcome State Fault Refusal := onDev s (bcastTimeout · inst.toNat)
/-- MANAGER_LOST (R472). -/
def execManagerLost (s : State) : Host.Outcome State Fault Refusal := onDev s managerLost
/-- LINK_MODULE_DOWN (R462). -/
def execLinkModuleDown (module : Fin 10) (event : ModuleEvent) (s : State) : Host.Outcome State Fault Refusal :=
  onDev s (linkModuleDown · module.val event)
/-- LINK_DOWN (R470). -/
def execLinkDown (loss : PathLoss) (s : State) : Host.Outcome State Fault Refusal := onDev s (linkDown · loss)
/-- MESSAGE_RELAY (R460, R461). -/
def execMessageRelay (link : Fin 2) (m : Msg) (s : State) : Host.Outcome State Fault Refusal := onDev s (relay · link.val m)

end Sys2Proof.Machine
end

