-- ==== Sys2Proof/Machine/Sha.lean ====
section
/-!
DEFINITION. SHA-384 of a list of bytes (FIPS 180-4), which R484 to R487 name. Its constants are computed from the
definition: the leading 64 fraction bits of cube and square roots of the first primes.
-/
namespace Sys2Proof.Machine.Sha

/-! ## Bytes and numbers -/

/-- A big-endian number of bytes. -/
def beNat (bs : List Nat) : Nat := bs.foldl (fun acc b => acc * 256 + b % 256) 0

/-- Groups of n. -/
def chunks (n : Nat) : Nat → List Nat → List (List Nat)
  | 0, _ => []
  | m + 1, l => l.take n :: chunks n m (l.drop n)

/-- A number as n bytes, most significant first. -/
def toBytes (n v : Nat) : List Nat := (List.range n).map fun i => v >>> (8 * (n - 1 - i)) % 256

/-! ## Constants -/

/-- The largest r + x with x < 2 ^ fuel whose e-th power is at most v, found from the top bit down. -/
def rootFrom (e v : Nat) : Nat → Nat → Nat
  | 0, r => r
  | fuel + 1, r => rootFrom e v fuel (if (r + 2 ^ fuel) ^ e ≤ v then r + 2 ^ fuel else r)

/-- The first 64 bits after the point of the e-th root of n, for n below 2 ^ 16. -/
def rootFraction (e n : Nat) : BitVec 64 := BitVec.ofNat 64 (rootFrom e (n * 2 ^ (64 * e)) 80 0)

/-- The first 80 primes: numbers from 2 to 409 that no smaller number from 2 to 20 divides. -/
def primes : List Nat :=
  (List.range 410).filter fun n => decide (2 ≤ n) && (List.range 21).all fun d => decide (d < 2 ∨ n ≤ d) || n % d != 0

def roundConstants : List (BitVec 64) := primes.map (rootFraction 3)
def initial : List (BitVec 64) := ((primes.drop 8).take 8).map (rootFraction 2)

/-! ## One block -/

/-- The exclusive or of a word turned right by each of the given numbers of bits. -/
def turned (x : BitVec 64) (by_ : List Nat) : BitVec 64 := by_.foldl (fun acc r => acc ^^^ x.rotateRight r) 0

/-- Message words t to t + n - 1, the words before them newest first. -/
def expand : Nat → List (BitVec 64) → List (BitVec 64)
  | 0, _ => []
  | n + 1, seen =>
    let back (i : Nat) := seen.getD (i - 1) 0
    let fresh := back 16 + back 7 + (turned (back 15) [1, 8] ^^^ back 15 >>> 7) + (turned (back 2) [19, 61] ^^^ back 2 >>> 6)
    fresh :: expand n (fresh :: seen)

/-- One round on the eight working words, as a register that shifts by one word: its fifth word then takes the first
sum, and the new first word both. -/
def turn (v : List (BitVec 64)) (addend : BitVec 64) : List (BitVec 64) :=
  let at_ (i : Nat) := v.getD i 0
  let first := at_ 7 + turned (at_ 4) [14, 18, 41] + (at_ 6 ^^^ at_ 4 &&& (at_ 5 ^^^ at_ 6)) + addend
  let second := turned (at_ 0) [28, 34, 39] + (at_ 0 &&& at_ 1 ||| at_ 2 &&& (at_ 0 ||| at_ 1))
  (first + second) :: (v.take 7).modify 3 (· + first)

/-- A block of 128 bytes. -/
def absorb (v : List (BitVec 64)) (bytes : List Nat) : List (BitVec 64) :=
  let words := (chunks 8 16 bytes).map fun g => BitVec.ofNat 64 (beNat g)
  let addends := List.zipWith (· + ·) roundConstants (words ++ expand 64 words.reverse)
  List.zipWith (· + ·) v (addends.foldl turn v)

/-! ## The digest -/

/-- The message with a one bit, zeros and its length in bits, to a multiple of 128 bytes. -/
def padded (bs : List Nat) : List Nat :=
  bs ++ 0x80 :: List.replicate (127 - (bs.length + 16) % 128) 0 ++ toBytes 16 (8 * bs.length)

/-- The digest as 48 bytes. -/
def sha384 (bs : List Nat) : List Nat :=
  let whole := padded bs
  let v := (chunks 128 (whole.length / 128) whole).foldl absorb initial
  (v.take 6).flatMap fun w => toBytes 8 w.toNat

end Sys2Proof.Machine.Sha
end

