-- ==== Sys2Proof/Machine/Pattern.lean ====
section
/-!
DEFINITION. Pattern images: their layout, verification with the checks of pattern load, apply, the image buffer and the
messages of the broadcast that carry and apply an image (R467, R482 to R491).
-/
namespace Sys2Proof.Machine

/-! ## The image (R482 to R484) -/

/-- n words of a buffer from index i on; words that were never written read 0 (R490). -/
def wordsFrom : Nat → Nat → SMap Word → List Word
  | 0, _, _ => []
  | n + 1, i, [] => 0 :: wordsFrom n (i + 1) []
  | n + 1, i, (j, w) :: m => if j = i then w :: wordsFrom n (i + 1) m else 0 :: wordsFrom n (i + 1) ((j, w) :: m)

def wordBytes (w : Word) : List Nat := [bits w 7 0, bits w 15 8, bits w 23 16, bits w 31 24]

/-- The image as bytes, as far as the buffer goes. -/
def imageBytesOf (im : SMap Word) (n : Nat) : List Nat := ((wordsFrom ((n + 3) / 4) 0 im).flatMap wordBytes).take n

def leNat (bs : List Nat) : Nat := bs.foldr (fun b acc => b % 256 + 256 * acc) 0
/-- A little-endian field of n bytes. -/
def imgField (bs : List Nat) (o n : Nat) : Nat := leNat ((bs.drop o).take n)
def allZero (bs : List Nat) (lo hi : Nat) : Bool := ((bs.drop lo).take (hi + 1 - lo)).all fun b => b = 0

/-- A record: offset with bits 31:24 of its word, and value (R483). -/
def recordsOf : List Word → List (Nat × Word)
  | o :: v :: rest => (o.toNat, v) :: recordsOf rest
  | _ => []

def imageRecords (im : SMap Word) (count : Nat) : List (Nat × Word) := recordsOf ((wordsFrom (64 + 2 * count) 0 im).drop 64)

/-- A record may name this offset. -/
def permitted (off : Nat) : Bool :=
  decide (0x2000 ≤ off ∧ off < 0x1000000) &&
    (fieldsAt off).any fun x => (x.acc = .rw || x.acc = .rwl) && (x.own = .h || x.own = .hm)

/-! ## What apply writes (R487) -/

/-- Step 1: the RWL fields of H return to their reset values, outside DLI and DLB. -/
def resetRwl (d : Dev) : Dev :=
  d.regs.foldl (fun d e =>
    if e.1 < 0x2000 then d
    else
      let fs := (fieldsAt e.1).filter fun x => x.acc = .rwl && x.own = .h
      rset d e.1 (fs.foldl (fun (w : Word) x => setBits w x.hi x.lo (bits (regReset e.1) x.hi x.lo)) e.2)) d

/-- Step 2: the records, in image order. -/
def writeRecords (d : Dev) (rs : List (Nat × Word)) : Dev := rs.foldl (fun d r => (plainWrite d .host false r.1 r.2).1) d

/-! ## Checks of pattern load (R87, R95, R96, R105, R154, R234, R295, R334, R427, R442) -/

/-- Region of a 2 MiB unit of the instance. -/
def unitRegion (u : Nat) : Option Nat := regionOf (u * 0x200000)

/-- Units first to last lie in one region. -/
def oneRegion (u n : Nat) : Option Nat :=
  match unitRegion u, unitRegion (u + n - 1) with
  | some r, some r' => if r = r' then some r else none
  | _, _ => none

/-- Base and size of the spill region in units; none without one. -/
def spillUnits (d : Dev) : Option (Nat × Nat) :=
  let n := rbits d 0x4014 13 0
  if n = 0 then none else some (rbits d 0x4010 15 0, n)

/-- Base, size and service of an enabled lift slot in units; the size of one with SERVES 0b11 is a DESIGN CHOICE (log entry 71). -/
def liftUnits (d : Dev) (n : Nat) : Option (Nat × Nat × Nat) :=
  let w := rget d (0x4020 + 4 * n)
  if w.getLsbD 31 then some (bits w 15 0, liftSize (bits w 30 29), bits w 30 29) else none

def unitsMeet (a na b nb : Nat) : Bool := decide (a < b + nb ∧ b < a + na)

/-- R95 for slot n alone. -/
def liftBad (d : Dev) (n : Nat) : Bool :=
  match liftUnits d n with
  | some (b, k, s) => s = 3 || (match oneRegion b k with | some r => r = s | none => true)
  | none => false

/-- R95 for two slots. -/
def liftsMeet (d : Dev) (n m : Nat) : Bool :=
  match liftUnits d n, liftUnits d m with
  | some (b, k, _), some (b', k', _) => unitsMeet b k b' k'
  | _, _ => false

def spillBad (d : Dev) : Bool :=
  match spillUnits d with
  | some (b, n) =>
    let outside := match oneRegion b n with | some r => r = 0 | none => true
    outside || ((List.range 4).any fun i => match liftUnits d i with | some (b', k, _) => unitsMeet b n b' k | none => false)
  | none => false

/-- Tile t's panel number lies in its region (R23). -/
def panelFits (d : Dev) (t : Nat) : Bool := let p := panelOf d t; decide (p < 20) && decide (regionOfPanel p = regionOfTile t)

def hasRepeat : List Nat → Bool
  | [] => false
  | x :: l => l.contains x || hasRepeat l

/-- R87. -/
def mapBad (d : Dev) : Bool :=
  hasRepeat ((List.range 320).map fun t => rbits d (0x4400 + 4 * t) 8 0) || (List.range 320).any fun t => !panelFits d t

/-- A field of the register is below its reset value (R427). -/
def belowReset (d : Dev) (off : Nat) : Bool :=
  (fieldsAt off).any fun x => decide (rbits d off x.hi x.lo < bits (regReset off) x.hi x.lo)

/-- R427 for a tier whose registers begin at `o`. -/
def timingBad (d : Dev) (o clMax cwlMax : Nat) : List (Nat × Bool) :=
  let t0 := rget d o
  let t1 := rget d (o + 4)
  let cl := bits t1 31 24
  let cwl := bits t1 23 16
  let low (n : Nat) : Bool := belowReset d (o + 4 * n)
  [(o, low 0 || decide (bits t0 31 24 < bits t0 23 16 + bits t0 15 8)),
   (o + 4, low 1 || decide (bits t1 15 8 < 4 * bits t1 7 4) || decide (rbits d (o + 8) 15 8 + cwl < cl + bits t1 3 0 + 1) ||
     decide (clMax < cl) || decide (cwlMax < cwl)),
   (o + 8, low 2), (o + 12, low 3)]

/-- Every check of pattern load with the offset where it is placed; true where it fails. -/
def loadChecks (d : Dev) : List (Nat × Bool) :=
  let size := rbits d 0x4014 13 0
  let frac := rbits d 0x2100 14 8
  let r3 := List.range 3
  let r4 := List.range 4
  let nt := rget d 0xC004
  let ft := rget d 0xC008
  [(0x2100, frac = 0 || decide (100 < frac) || decide (deliverable d < guarSum d)),
   (0x2200, decide (6144 < (masters.map (guarOtRaw d)).sum)),
   (0x2300, size ≠ 0 && guarOtRaw d 16 = 0)] ++
  r3.map (fun n => (0x4000 + 4 * n, decide (2 ≤ rbits d (0x4000 + 4 * n) 3 2))) ++
  [(0x4010, spillBad d), (0x4014, decide (8192 < size) || (size ≠ 0 && rbits d 0x6000 3 0 = 0))] ++
  r4.map (fun n => (0x4020 + 4 * n, liftBad d n || r4.any fun m => n < m && liftsMeet d n m)) ++
  [(0x4400, mapBad d), (0x6000, decide (10 < rbits d 0x6000 3 0)),
   (0xC004, bits nt 27 16 = 0 || decide (bits nt 15 0 < 512) || decide (bits nt 15 0 < 8 * bits nt 27 16)),
   (0xC008, bits ft 27 16 = 0 || decide (bits ft 15 0 < 64)), (0xC00C, rbits d 0xC00C 15 0 = 0)] ++
  r3.map (fun n => (0xC010 + 4 * n, decide (85 < signed 8 (rbits d (0xC010 + 4 * n) 7 0)))) ++
  timingBad d 0xD000 31 31 ++ timingBad d 0xD010 127 63 ++
  [(0xE060, ratio d 0 ≠ 256 || r3.any fun k => decide (ratio d k < ratio d (k + 1)))] ++
  r4.map (fun k => (0xE060 + 4 * k, ratio d k = 0 || decide (256 < ratio d k))) ++
  (List.range 16).map fun p => (0xE080 + 4 * p, decide (floorOf d p < prefOf d p))

/-- The offset of the first check that fails. -/
def firstBad (d : Dev) : Option Nat := ((loadChecks d).find? fun e => e.2).map fun e => e.1

/-! ## Verification (R486) -/

/-- The part identity, DLI_ID. -/
def partId : Nat := 0xD4700100

/-- Checks 6 and 7. -/
def checkKey (f : Fuses) (bs : List Nat) (length : Nat) : Nat :=
  let slot := imgField bs 24 2
  let sig := bs.drop length
  let key := sig.take 97
  if f.revoke.getLsbD slot || BitVec.ofNat 384 (Sha.beNat (Sha.sha384 key)) ≠ f.keys.getD slot 0 then 6
  else
    let digest := Sha.beNat (Sha.sha384 (bs.take length))
    let n (o : Nat) : Nat := Sha.beNat ((sig.drop o).take 48)
    if key.getD 0 0 = 4 && Ecdsa.verify digest (n 1) (n 49) (n 100) (n 148) then 0 else 7

/-- REASON and DETAIL of a buffer; reason 0 is VERIFIED. -/
def verifyImage (f : Fuses) (d : Dev) : Nat × Nat :=
  let im := d.boot.image
  let h := imageBytesOf im 256
  let length := imgField h 8 4
  let count := imgField h 12 4
  if imgField h 0 4 ≠ 0x4E525450 || imgField h 4 2 ≠ 1 || decide (1 < imgField h 6 2) || decide (3 < imgField h 24 2) ||
      !allZero h 26 111 || !allZero h 144 255 then (1, 0)
  else if length % 8 ≠ 0 || decide (length < 256) || decide (1048320 < length) || count ≠ (length - 256) / 8 then (2, 0)
  else if imgField h 16 4 ≠ partId then (3, 0)
  else if imgField h 20 4 < f.minSeq then (4, 0)
  else
    let unsigned := imgField h 6 2 = 1
    if unsigned && !f.debug then (5, 0)
    else
      let k := if unsigned then 0 else checkKey f (imageBytesOf im (length + 256)) length
      if k ≠ 0 then (k, 0)
      else
        let rs := imageRecords im count
        match rs.find? fun r => !permitted r.1 with
        | some r => (8, r.1 % 2 ^ 24)
        | none =>
          match firstBad (writeRecords (resetRwl d) rs) with
          | some off => (9, off)
          | none => (0, 0)

/-- A link still trains. -/
def linksTrain (d : Dev) : Bool := [0, 1].any fun j => (getLink d j).state = .training

/-- PATTERN_VERIFY. The manager's comes after the training of its links (step C4 of R498); a link that will not come up has been
given up before, by LINK_DOWN (log entry 38). -/
def patternVerify (f : Fuses) (d : Dev) : Dev :=
  if d.boot.imgState ≠ 1 || d.pins.rstAsserted || (isManager d && linksTrain d) then d
  else
    let r := verifyImage f d
    let ok := r.1 = 0
    let b := { d.boot with imgState := if ok then 2 else 3, imgReason := r.1, imgDetail := r.2, step := if ok then 2 else 0 }
    let d1 := { d with boot := b }
    let d2 := if ok then d1 else raise d1 Ev.PATTERN_REJECTED
    if isManager d then (if ok then bcastStart d2 else d2)
    else send d2 d.boot.mgr.toNat (.verdict (if ok then none else some (BitVec.ofNat 4 r.1)))

/-! ## Apply (R487) -/

/-- DLF_REGION_CTRL0 to 2 and DLF_TILE_MAP0 to 319. -/
def layoutWords (d : Dev) : List Word :=
  ((List.range 3).map fun n => rget d (0x4000 + 4 * n)) ++ (List.range 320).map fun t => rget d (0x4400 + 4 * t)

/-- The layout digest as twelve little-endian words. -/
def layoutDigest (d : Dev) : List Word :=
  (Sha.chunks 4 12 (Sha.sha384 ((layoutWords d).flatMap wordBytes))).map fun bs => BitVec.ofNat 32 (leNat bs)

/-- The regulator's first window begins (R287, R295, R302). -/
def startRegulator (d : Dev) : Dev :=
  let r := { d.reg with deliver := deliverable d, guarSum := guarSum d, window := max 1 (rbits d 0x2100 7 0),
                        mon := BitVec.ofNat 4 (rbits d 0x211C 3 0) }
  masters.foldl (fun (d : Dev) m => setMaster d m { getMaster d m with charge := 0, overBudget := false, pressed := pressedNow d m })
    { d with reg := r }

/-- The five steps of apply; the windows of R287 and R436 begin. -/
def applyPattern (d : Dev) : Dev :=
  let count := (mgetD 0 d.boot.image 3).toNat
  let d1 := writeRecords (resetRwl d) (imageRecords d.boot.image count)
  let b := { d1.boot with applied := true, layout := layoutDigest d1, imgState := 4, step := 3,
                          warm := (rget d1 0x1000).getLsbD 0 }
  let d2 := rset { d1 with boot := b, lint := { Reset.lint with open_ := true } } 0xA044 0
  energyStart (startRegulator d2)

/-- PATTERN_APPLY: step 4 of R467 on the manager. -/
def patternApply (d : Dev) : Dev :=
  if d.pins.rstAsserted || !isManager d || d.boot.imgState ≠ 2 || !bcastReady d then d
  else
    let d1 := applyPattern d
    let d2 := setPeer d1 (me d) { getPeer d1 (me d) with bcast := 2 }
    let ready (i : Nat) : Bool := (getPeer d2 i).bcast = 1 && (getPeer d2 i).acked
    endBcast (((others d2).filter ready).foldl (fun d i => send d i .apply) d2)

/-- APPLY on a worker. -/
def applyMessage (d : Dev) : Dev :=
  if d.pins.rstAsserted || isManager d || d.boot.imgState ≠ 2 then d
  else send (onLinkState (applyPattern d) fun p => { p with applyAt := true }) d.boot.mgr.toNat .applied

/-! ## The buffer (R467, R489 to R491) -/

/-- Every word of the image has arrived. -/
def imageComplete (im : SMap Word) : Bool :=
  match mget im 2 with
  | some w =>
    let n := (min (w.toNat + 256) 0x100000 + 3) / 4
    (im.filter fun e => e.1 < n).length = n
  | none => false

def storeWords (d : Dev) (i : Nat) (ws : List Word) : Dev :=
  let put (e : SMap Word × Nat) (w : Word) : SMap Word × Nat := (if e.2 < 262144 then minsert e.1 e.2 w else e.1, e.2 + 1)
  { d with boot := { d.boot with image := (ws.foldl put (d.boot.image, i)).1 } }

/-- IMAGE on a worker. -/
def imageMessage (d : Dev) (off : Nat) (ws : List Word) : Dev :=
  if d.pins.rstAsserted || isManager d || d.boot.imgState ≠ 0 then d
  else
    let d1 := storeWords (linkRx d (.image off ws)) (off / 4) ws
    if imageComplete d1.boot.image then { d1 with boot := { d1.boot with imgState := 1, step := 1 } } else d1

/-- A write of DLB_IMG_DATA; the Bool says whether it is taken. The buffer is writable until GO, and again once its image is
REJECTED: what is verified is what is broadcast and applied (R491, log entry 36). -/
def imgData (d : Dev) (v : Word) : Dev × Bool :=
  if d.boot.applied || !isManager d || d.boot.imgState = 1 || d.boot.imgState = 2 then (d, false)
  else
    let i := rbits d 0x1008 17 0
    (rset (storeWords d i [v]) 0x1008 (BitVec.ofNat 32 ((i + 1) % 262144)), true)

/-- GO; the Bool says whether it is taken. -/
def goCmd (d : Dev) : Dev × Bool :=
  if d.boot.applied || !isManager d || d.boot.imgState = 1 || d.boot.imgState = 2 || d.link.bcastBusy then (d, false)
  else ({ d with boot := { d.boot with imgState := 1, imgReason := 0, imgDetail := 0, step := 1 } }, true)

/-! ## Commands -/

/-- IMAGE (R467). -/
def execImage (off : BitVec 20) (words : List Word) (s : State) : Host.Outcome State Fault Refusal :=
  onDev s (imageMessage · off.toNat words)
/-- PATTERN_VERIFY (R486). -/
def execPatternVerify (s : State) : Host.Outcome State Fault Refusal := onDev s (patternVerify s.fuses)
/-- PATTERN_APPLY (R467, R487). -/
def execPatternApply (s : State) : Host.Outcome State Fault Refusal := onDev s patternApply
/-- APPLY (R467). -/
def execApply (s : State) : Host.Outcome State Fault Refusal := onDev s applyMessage

end Sys2Proof.Machine
end

