-- ==== Sys2Proof/Machine/Boot.lean ====
section
/-!
DEFINITION. Resets, cold and warm starts with training, self-test and the Ledger, orderly and disorderly warm entries
(R353 to R355, R414 to R416, R478 to R481, R496 to R507).
-/
namespace Sys2Proof.Machine

def onBoot (d : Dev) (f : Boot → Boot) : Dev := { d with boot := f d.boot }
def onPins (d : Dev) (f : Pins → Pins) : Dev := { d with pins := f d.pins }

/-! ## Resets (R52, R140, R456, R478 to R480) -/

/-- The memory is in self-refresh, and stays there through any number of resets until a start (R413). -/
def isAsleep (d : Dev) : Bool := d.pins.srDone || d.boot.warmOk

/-- What a reset leaves of a tile: the ranks of its memory that are in self-refresh (R413). -/
def asleepOnly (x : Tile) : Tile :=
  let ranks := (x.chan.ranks.filter fun e => e.2.selfRefresh).map fun e => (e.1, { Reset.rank with selfRefresh := true })
  { Reset.tile with chan := { Reset.chan with ranks := ranks } }

/-- The tiles with a rank in self-refresh, and nothing else. -/
def sleepers (d : Dev) : SMap Tile := (d.tiles.map fun e => (e.1, asleepOnly e.2)).filter fun e => e.2 ≠ Reset.tile

/-- No rank of the memory is in self-refresh. -/
def wakeAll (d : Dev) : Dev :=
  let up (x : Tile) : Tile :=
    { x with chan := { x.chan with ranks := (x.chan.ranks.map fun e => (e.1, { e.2 with selfRefresh := false })).filter fun e => e.2 ≠ Reset.rank } }
  { d with tiles := (d.tiles.map fun e => (e.1, up e.2)).filter fun e => e.2 ≠ Reset.tile }

/-- The logic of the instance after a reset: what lies outside it stays, the wrapper, dl_mem_rst_n, the masks that the switch
core drives, and the memory's own registers. -/
def resetLogic (d : Dev) : Dev :=
  let pins := { Reset.pins with memRst := d.pins.memRst, mask := d.pins.mask, wrapper := d.pins.wrapper,
                                testMode := d.pins.testMode, testTainted := d.pins.testMode, shiftOut := d.pins.shiftOut }
  { Reset.dev with pins := pins, free := d.free, boot := { Reset.boot with warmOk := isAsleep d && !d.pins.memRst },
                   layer := d.layer, layers := d.layers, hbms := d.hbms,
                   tiles := if isAsleep d && !d.pins.memRst then sleepers d else [] }

/-- RESET_ASSERT. The effect of what it abandons on memory is unknown (R140): only self-refresh keeps the lines. -/
def resetAssert (m : SMap DLine) (d : Dev) : SMap DLine × Dev :=
  if d.pins.rstPin then (m, d) else (if isAsleep d then m else [], resetLogic d)

/-- RESET_DEASSERT. In test mode, or where it was left during this reset, no start-up begins (R541). -/
def resetDeassert (d : Dev) (inst mgr : BitVec 2) : Dev :=
  if !d.pins.rstPin then d
  else if d.pins.testMode || d.pins.testTainted then onPins d fun p => { p with rstPin := false }
  else
    let up (p : Pins) : Pins := { p with rstPin := false, rstAsserted := false, pllCore := true, pllSeam := true, pllFar := true }
    let d2 := rset (onBoot (onPins d up) fun b => { b with inst := inst, mgr := mgr }) 0xC030 (inst.setWidth 32)
    let train (d : Dev) (j : Nat) : Dev := setLink d j { getLink d j with state := .training }
    train (train d2 0) 1

/-- MEM_RESET: the assertion of dl_mem_rst_n leaves no line defined, puts the layers' registers and the stacks back to their
reset, and no warm start may follow (R401, R409, R479, R480). -/
def memReset (m : SMap DLine) (d : Dev) (asserted : Bool) : SMap DLine × Dev :=
  let d1 := onPins d fun p => { p with memRst := asserted }
  if asserted then ([], onLayers (onBoot { wakeAll d1 with hbms := [] } fun b => { b with warmOk := false }) [] layerReset) else (m, d1)

/-! ## Training at a start (R414 to R416, R420, R423, R427, R499) -/

/-- The trial of a hem at a start; one that is not listed measures `margin` everywhere and passes. -/
def trialOf (d : Dev) (o : StartOutcome) (t : Nat) : Trial :=
  match o.train.find? fun x => x.tile.val = t with
  | some x => x.trial
  | none =>
    let ids (k : Nat) : BitVec 16 × BitVec 16 := ((layerOf d t k).mr0, (layerOf d t k).mr1)
    ⟨ids 0, ids 1, o.margin, o.margin, o.margin, 0, true, true, none⟩

/-- What the training of one hem found. -/
structure Trained where
  tile   : Nat
  step   : Option Nat
  margin : BitVec 8
  pin    : Nat

def trained (d : Dev) (o : StartOutcome) (t : Nat) : Trained :=
  let r := trialOf d o t
  let s := failStep d t r
  ⟨t, s, trialMargin t r s, trainPin t (s.getD 0) r.pin⟩

def failedHems (ts : List Trained) : List Trained := ts.filter fun x => x.step.isSome

/-- The initialisation of a stack: on-die ECC and CA parity on, host ECC off, the metadata bits for the CRC, CL and CWL from
DLS_FAR_T1 (R420, R423, R427). -/
def stackStart (d : Dev) : Dev :=
  let x : Stack := ⟨true, rbits d 0xD014 31 24, rbits d 0xD014 23 16, true, false, true, true⟩
  { d with hbms := [(0, x), (1, x)] }

/-- A stack's power-up ends its self-refresh (R423, R498). -/
def farUp (d : Dev) : Dev :=
  ((List.range 64).map (256 + ·)).foldl (fun d t => onChan d t fun c => setRank c 0 { getRank c 0 with selfRefresh := false }) d

def minMargin (ms : List (BitVec 8)) : BitVec 8 :=
  match ms with
  | [] => 0
  | m :: rest => rest.foldl (fun a b => if b.toNat < a.toNat then b else a) m

/-- Training or restore of every hem has finished: margins and values, the records of those that failed, DLS_TRAIN_STATUS. -/
def trainDone (d : Dev) (ts : List Trained) (restored : Bool) : Dev :=
  let d1 := ts.foldl (fun d x => newValues (onHem d x.tile fun h => { h with margin := x.margin }) x.tile) d
  let log (d : Dev) (x : Trained) : Dev := match x.step with | some k => lint d 0x28 { tile := x.tile } k x.pin | none => d
  let d2 := ts.foldl log d1
  let measured (t : Nat) : Bool := !ts.any fun x => x.tile = t && x.step = some 1
  onBoot d2 fun b =>
    { b with trainDone := true, trainRestored := restored, trainFailed := (failedHems ts).length,
             trainMargin := minMargin (((List.range 320).filter measured).map fun t => (svc d2 t).hem.margin) }

/-- Training of these hems at a start; the other near hems apply their values and perform step 3 (R414, R415). -/
def trainAll (d : Dev) (o : StartOutcome) (hems : List Nat) : Dev × List Trained :=
  let d1 := hems.foldl (fun d t => trialIds d t (trialOf d o t)) d
  let d2 := hems.foldl (fun d t => trainHem d t (trialOf d1 o t)) d1
  let rest := (List.range 256).filter (!hems.contains ·)
  (rest.foldl (fun d t => sendScript d t (normalScript d)) d2, hems.map (trained d1 o))

/-! ## Self-test (R353, R354, R543) -/

/-- Test vectors of the phases BLANK, GEN, CHK, XOR and PATH (R543). -/
def phaseVectors (p : Nat) : Nat := match p with | 0 => 6 | 1 => 8 | 2 => 336 | 3 => 17 | _ => 4

/-- The unit takes part in the phase, the phase runs, and it has the vector. -/
def testFits (warm : Bool) (f : TestFail) : Bool :=
  let p := f.phase.val
  (!warm || p = 2) && decide (f.vector.toNat < phaseVectors p) && match f.unit with
    | .tile _ => p = 1 || p = 2 || p = 4
    | .press _ => p = 1 || p = 2
    | .panel _ => p = 3
    | .blank => p = 0

/-- A hem that failed training counts as a PATH failure of its tile (R416, R499; log entry 28). -/
def hemFail (x : Trained) : TestFail := ⟨.tile (Fin.ofNat 320 x.tile), 4, BitVec.ofNat 9 (Config.hemVector x.tile % 4)⟩

/-- Failures in the order of the phases; within a phase the hems' come first, then those of the command's list in its order: DESIGN
CHOICE (log entry 69), as R360 does not say which of several units that fail in one phase is the first. -/
def byPhase (fs : List TestFail) : List TestFail := (List.range 5).flatMap fun p => fs.filter fun f => f.phase.val = p

/-- The first failure of each unit. -/
def firstFails : List TestFail → List TestFail
  | [] => []
  | f :: fs => f :: (firstFails fs).filter fun g => g.unit ≠ f.unit

def unitTile : TestUnit → Nat
  | .tile t | .press t => t.val
  | _ => 0

/-- SELFTEST_FAIL and the record of one failing unit. -/
def logFail (d : Dev) (f : TestFail) : Dev :=
  let x := match f.unit with | .panel p => p.val | _ => f.vector.toNat
  lint (raise d Ev.SELFTEST_FAIL) 0x05 { tile := unitTile f.unit } f.phase.val x

/-- Bits of DLT_ST_RESULT. -/
def resultBit (f : TestFail) : Word :=
  match f.unit, f.phase.val with
  | .press _, _ => 8
  | .tile _, 1 => 1
  | .tile _, 2 => 2
  | .tile _, 4 => 4
  | _, _ => 0

def markResult (d : Dev) (f : TestFail) : Dev :=
  match f.unit with
  | .tile t | .press t => onSvc d t.val fun s => { s with stResult := s.stResult ||| resultBit f }
  | _ => d

/-- DLE_ST_FIRST of a failure. -/
def firstWord (f : TestFail) : BitVec 32 :=
  let k := match f.unit with | .tile _ => 0 | .press _ => 1 | .panel _ => 2 | .blank => 3
  let u := match f.unit with | .tile t | .press t => t.val | .panel p => p.val | .blank => 0
  BitVec.ofNat 32 (2 ^ 31 + f.phase.val * 2 ^ 25 + f.vector.toNat * 2 ^ 16 + k * 2 ^ 14 + u)

def failedTiles (fs : List TestFail) : List Nat :=
  fs.filterMap fun f => match f.unit with | .tile t => some t.val | _ => none

/-- Start-up halts: a unit other than a tile failed, or two tiles of one panel did. -/
def testHalts (d : Dev) (firsts : List TestFail) : Bool :=
  (firsts.any fun f => match f.unit with | .tile _ => false | _ => true) ||
    hasRepeat ((failedTiles firsts).map (panelOf d))

def isPress (f : TestFail) : Bool := match f.unit with | .press _ => true | _ => false
def isPanel (f : TestFail) : Bool := match f.unit with | .panel _ => true | _ => false
def isBlank (f : TestFail) : Bool := match f.unit with | .blank => true | _ => false

/-- A tile starts out of service, held (R354, R364, R497). -/
def startOut (d : Dev) (t : Nat) (warmOut : Bool) : Dev :=
  let d1 := if (svc d t).state = .out then d else enterOut d t .keepOut
  onSvc d1 t fun s => { s with reason := .keepOut, warmOut := s.warmOut || warmOut }

/-- The failures are logged and shown; failing tiles start OUT, KEEP_OUT. DESIGN CHOICE (log entry 69): TILES counts tile units,
and no tile whose Press slice alone has failed; R360 does not say which it means. -/
def failUnits (d : Dev) (fs : List TestFail) : Dev :=
  let firsts := firstFails (byPhase fs)
  let d1 := (failedTiles firsts).foldl (startOut · · false) (fs.foldl markResult (firsts.foldl logFail d))
  onBoot d1 fun b =>
    { b with stTiles := (failedTiles firsts).length, stPanels := (firsts.filter isPanel).length,
             stPress := firsts.any isPress, stBlank := firsts.any isBlank,
             stFirst := match byPhase fs with | f :: _ => firstWord f | [] => 0 }

/-- Start-up halts (R354, R499). -/
def halt (d : Dev) : Dev := onBoot d fun b => { b with halted := true, stFatal := true, step := 15 }

/-- The two lines of every data ply and of the parity ply of a bolt. -/
def boltLines (d : Dev) (st : Stripe) (members : List Nat) : List Loc :=
  [0, 1].flatMap fun h => members.map (stripeDataLoc d { st with half := h }) ++ [stripeParityLoc d { st with half := h }]

/-- M22's WRITEBOLT of PATH at its members: FULL entries of patterns that no rule gives, in a memory that is lost (R353, R347). -/
def testWrite (d : Dev) (st : Stripe) : SMap DLine × Dev :=
  let bolt := stripeBolt d st
  let grant (d : Dev) (m : Nat) : Dev := let t := tileAt d st.panel m; eCount (eCount d t 8 2) t 5 1
  let put (s : SMap DLine × Dev) (l : Loc) : SMap DLine × Dev :=
    let r := freeLine s.2
    startWrite false bolt (s.1, r.2) (l, r.1)
  (boltLines d st (List.range 16)).foldl put ([], (List.range 16).foldl grant (unitRun 22 64 1 (some bolt) d))

/-- PATH of one panel: one WRITEBOLT, the read-back of its 34 lines, and a rebuild of each member's lines, whose reads are DIRECT
entries at the members that do not pass the tile network (R58, R250, R286, R353, R428; log entry 28). -/
def testPath (d : Dev) (p : Nat) : Dev :=
  let st : Stripe := ⟨p, 0, 0, 0, 0⟩
  let bolt := stripeBolt d st
  let w := testWrite d st
  let back (d : Dev) (l : Loc) : Dev := startRead w.1 22 false (startPass 22 9 (some bolt) l.tile d) l
  let rebuild (d : Dev) (l : Loc) : Dev := startRead w.1 22 false (eCount (unitRun 22 2 1 (some bolt) d) l.tile 5 1) l
  let member (d : Dev) (m : Nat) : Dev := (boltLines d st ((List.range 16).filter (· ≠ m))).foldl rebuild d
  (List.range 16).foldl member ((boltLines d st (List.range 16)).foldl back w.2)

/-- The readback of a data line fails at a tile in PATH: a read with outcome FAIL (R337, R343, R543). DESIGN CHOICE (log entry 28): it is
the line at the first position of the bolt. -/
def readbackFail (d : Dev) (f : TestFail) : Dev :=
  let t := unitTile f.unit
  if f.phase.val = 4 && f.vector.toNat = 1 then
    recordFail d (stripeDataLoc d ⟨panelOf d t, 0, 0, 0, 0⟩ (memberOf d t)) EKind.direct.num 0
  else d

/-- The self-test of a start; hem failures join it. The Bool says whether start-up halts. -/
def selfTest (d : Dev) (o : StartOutcome) (hems : List Trained) (warm : Bool) : Dev × Bool :=
  let mine := o.test.filter (testFits warm)
  let fs := hems.map hemFail ++ mine
  let tested (d : Dev) (t : Nat) : Dev := onSvc d t fun s => { s with stResult := 0x80000000 }
  let d0 := if warm then d else (List.range 20).foldl testPath d
  let d1 := failUnits (mine.foldl readbackFail ((List.range 320).foldl tested d0)) fs
  let d2 := onBoot d1 fun b => { b with stRun := if warm then 2 else 1 }
  if testHalts d2 (firstFails (byPhase fs)) then (halt d2, true) else (d2, false)

/-! ## The end of a start (C12, W12) -/

/-- dl_ready rises, unless the worker is isolated (R471); the quota windows start (R308). -/
def enable (d : Dev) : Dev :=
  let d1 := onBoot d fun b => { b with step := 9 }
  if d.link.isolated then d1
  else raise (latchQuota (onPins (onBoot d1 fun b => { b with done := true }) fun p => { p with ready := true })) Ev.STARTUP_DONE

/-- A start of this kind may run its memory steps: it waits while the accesses of M21 or M22 are masked, or find no credit (R142,
R280, log entry 61). -/
def mayStart (d : Dev) (warm : Bool) : Bool :=
  d.boot.applied && d.boot.step = 3 && d.boot.warm == warm && d.pins.pllCore && !d.pins.rstAsserted &&
    !d.pins.mask.getLsbD 21 && !d.pins.mask.getLsbD 22 && creditOk d 21 && creditOk d 22

/-! ## Ledger steps (R496) -/

/-- Tiles from the highest down. -/
def tilesDown : List Nat := (List.range 320).reverse

def putHeader (t epoch : Nat) (orderly out : Bool) (s : SMap DLine × Dev) : SMap DLine × Dev :=
  ledgerWrite t 0 1 (headerNat t epoch orderly out s.2.boot.layout) s

def coldLedger (s : SMap DLine × Dev) : SMap DLine × Dev :=
  tilesDown.foldl (fun s t => putHeader t 0 false false (writeTrain t (writePatch t (writeRest t s)))) s

/-! ## Cold start (R498, R499) -/

/-- The hems leave the state of R401: their clocks run (R481), and the memory does not stay in self-refresh. -/
def clocksOn (d : Dev) : Dev := onPins (onBoot d fun b => { b with warmOk := false }) fun p => { p with ck := true }

/-- SAFE mode runs at the lower NCLK rate, and at a warm start the far hems at FCLK of 2.4 GHz (R408, R423). -/
def slowClocks (d : Dev) (warm : Bool) : Dev :=
  onPins d fun p => { p with nearSlow := true, far0Slow := p.far0Slow || warm, far1Slow := p.far1Slow || warm }

/-- The rates after the restore or the training are those before. -/
def ratesBack (d : Dev) (was : Pins) : Dev :=
  onPins d fun p => { p with nearSlow := was.nearSlow, far0Slow := was.far0Slow, far1Slow := was.far1Slow }

/-- One temperature poll of each region at once, from which the period counts (C7, R321). -/
def firstPoll (d : Dev) (o : StartOutcome) : Dev := pollAll (pollNow d) o.temps

/-- COLD_START: steps C6 to C12. -/
def coldStart (m : SMap DLine) (d : Dev) (o : StartOutcome) : SMap DLine × Dev :=
  if !mayStart d false then (m, d)
  else
    let (d0, ts) := trainAll (farUp (stackStart (slowClocks (clocksOn d) false))) o (List.range 320)
    let hf := failedHems ts
    let d1 := trainDone (ratesBack d0 d.pins) ts false
    if hasRepeat (hf.map fun f => panelOf d f.tile) then ([], halt (failUnits d1 (hf.map hemFail)))
    else
      let (d2, stops) := selfTest (firstPoll d1 o) o hf false
      if stops then ([], d2)
      else
        let d3 := { d2 with blank := ⟨[], [], false, true, []⟩, mend := Reset.mend }
        let r := coldLedger ([], d3)
        (r.1, enable r.2)

/-! ## Warm start (R497, R505 to R507) -/

/-- What a channel's Ledger gives: each section with whether it came from copy B; none where it is invalid. -/
structure Restored where
  tile   : Nat
  header : Option (Nat × Bool)
  train  : Option (Nat × Bool)
  patch  : Option (Nat × Bool)
  blank  : Option (Nat × Bool)

/-- The lines of one channel. -/
def tileMem (m : SMap DLine) (t : Nat) : SMap DLine := m.filter fun e => keyTile e.1 = t

def readLedger (fs : List LedgerFlaw) (m : SMap DLine) (t : Nat) : Restored :=
  let tm := tileMem m t
  let read (o n : Nat) : Option (Nat × Bool) := readSection fs tm t o n
  let train := (read 0x40 63).filter fun v => wordAt v.1 0 = Config.hemRevision.toNat
  ⟨t, read 0 1, train, read 0x1000 8, read 0x2000 (blankLines t)⟩

/-- A read that fell back to copy B, or an invalid section, raises its event and writes one record (R497). -/
def logSection (t sec : Nat) (d : Dev) : Option (Nat × Bool) → Dev
  | some (_, true) => lint (raise d Ev.LEDGER_COPY) 0x32 { tile := t } sec
  | some (_, false) => d
  | none => lint (raise d Ev.LEDGER_LOST) 0x33 { tile := t } sec

def fromB : Option (Nat × Bool) → Bool
  | some (_, b) => b
  | none => false

def headerEpoch (v : Nat × Bool) : Nat := wordAt v.1 2
def headerOrderly (v : Nat × Bool) : Bool := wordAt v.1 3 % 2 = 1
def headerOut (v : Nat × Bool) : Bool := wordAt v.1 3 / 2 % 2 = 1
def headerMatches (d : Dev) (v : Nat × Bool) : Bool := (List.range 12).map (fun i => wordAt v.1 (4 + i)) = d.boot.layout.map BitVec.toNat

/-- R505. -/
def isOrderly (d : Dev) (hs : List (Nat × Bool)) : Bool :=
  match hs with
  | [] => false
  | h :: _ => hs.all fun x => headerOrderly x && headerEpoch x = headerEpoch h && headerMatches d x

/-- The Patch table and the used spare indices of a PATCH section (R494, R497). -/
def restorePatch (far : Bool) (s : Svc) : Option (Nat × Bool) → Svc
  | none => { s with patches := [], allSparesUsed := true }
  | some (v, _) =>
    let entry (e : Nat) : Option (Nat × Patch) :=
      let w := wordAt v e
      if w / 2 ^ 30 = 2 then some (e, ⟨.active, w / 2 ^ 24 % 64, w / 2 ^ 10 % 2 ^ 14, w % 64⟩) else none
    let k := sparesOf far
    let used := (List.range (nbOf far * k)).filter fun i => (v / 2 ^ (512 + i)) % 2 = 1
    { s with patches := (List.range 16).filterMap entry, spares := used.map fun i => i / k * 64 + i % k }

/-- The trained values that a valid TRAIN section holds, with its margin (R415, R423). -/
def restoreTrain (d : Dev) (r : Restored) : Dev :=
  match r.train with
  | some (v, _) => onHem d r.tile fun h => { h with values := v, margin := BitVec.ofNat 8 (wordAt v 1) }
  | none => d

/-- One channel's HEADER, TRAIN and PATCH act on its service state and its hem (R497, R507). -/
def restoreTile (orderly : Bool) (d : Dev) (r : Restored) : Dev :=
  let d1 := onSvc (restoreTrain d r) r.tile fun s => restorePatch (isFar r.tile) s r.patch
  let out := r.patch.isNone || match r.header with | none => true | some h => orderly && headerOut h
  if out then startOut d1 r.tile true else d1

/-- M21's reads of one channel before the self-test: HEADER, TRAIN and PATCH. -/
def countReads (fs : List LedgerFlaw) (m : SMap DLine) (d : Dev) (t : Nat) : Dev :=
  countSection true fs m t (countSection true fs m t (countSection true fs m t d 0 1) 0x40 63) 0x1000 8

/-- Runs of 1s, kept with the last one first. -/
def pushRun (acc : List (Nat × Nat)) (r : Nat × Nat) : List (Nat × Nat) :=
  match acc with
  | (lo, hi) :: rest => if hi + 1 = r.1 then (lo, r.2) :: rest else r :: (lo, hi) :: rest
  | [] => [r]

/-- Valid bolts of 512 map bits from `base` on. -/
def lineRuns (base x : Nat) (acc : List (Nat × Nat)) : List (Nat × Nat) :=
  if x = 0 then acc
  else if x = 2 ^ 512 - 1 then pushRun acc (base, base + 511)
  else (List.range 512).foldl (fun acc i => if x / 2 ^ i % 2 = 1 then pushRun acc (base + i, base + i) else acc) acc

/-- The Blank map share of a channel at an orderly warm start (R494, R497). -/
def restoreShare (acc : List (Nat × Nat)) (r : Restored) : List (Nat × Nat) :=
  let b := blankShare r.tile
  match r.header, r.blank with
  | some _, some (v, _) =>
    (List.range (blankLines r.tile)).foldl (fun acc i => lineRuns (b.1 + 512 * i) (v / 2 ^ (512 * i) % 2 ^ 512) acc) acc
  | _, _ => pushRun acc (b.1, b.1 + b.2 - 1)

/-- The Ledger step of a warm start for one channel: the header, and each section that was not good in copy A (R496). -/
def warmLedger (orderly : Bool) (epoch : Nat) (s : SMap DLine × Dev) (r : Restored) : SMap DLine × Dev :=
  let bad (x : Option (Nat × Bool)) : Bool := x.isNone || fromB x
  let s1 := if orderly && bad r.blank then ledgerWrite r.tile 0x2000 (blankLines r.tile) (blankNat r.tile s.2.blank.valid) s else s
  let s2 := if bad r.patch then writePatch r.tile s1 else s1
  let s3 := if bad r.train then writeTrain r.tile s2 else s2
  putHeader r.tile epoch false false s3

/-- DLB_LEDGER_STATUS and EPOCH. -/
def ledgerStatus (d : Dev) (rs : List Restored) (orderly : Bool) : Dev :=
  let hs := rs.filterMap Restored.header
  let sections (r : Restored) : List (Option (Nat × Bool)) := [r.header, r.train, r.patch] ++ if orderly then [r.blank] else []
  let epoch := (hs.map headerEpoch).foldl max 0
  onBoot d fun b =>
    { b with ledOrderly := orderly, ledBlank := orderly, ledMatch := hs.all (headerMatches d),
             ledCopyB := (rs.filter fun r => (sections r).any fromB).length,
             ledLost := (rs.filter fun r => (sections r).any Option.isNone).length, epoch := BitVec.ofNat 32 epoch }

/-- WARM_START: steps W6 to W12. -/
def warmStart (m : SMap DLine) (d : Dev) (o : StartOutcome) : SMap DLine × Dev :=
  let rs := (List.range 320).map (readLedger o.ledger m)
  let orderly := isOrderly d (rs.filterMap Restored.header)
  let log3 (d : Dev) (r : Restored) : Dev :=
    logSection r.tile 2 (logSection r.tile 1 (logSection r.tile 0 (countReads o.ledger m d r.tile) r.header) r.train) r.patch
  let d0 := (List.range 320).foldl wakeTile (stackStart (slowClocks (clocksOn d) true))
  let d1 := rs.foldl (restoreTile orderly) (rs.foldl log3 d0)
  let (d2, ts) := trainAll d1 o ((rs.filter fun r => r.train.isNone).map Restored.tile)
  let d3 := (List.range 320).foldl advise (trainDone (ratesBack d2 d.pins) ts (rs.all fun r => r.train.isSome))
  let (d4, stops) := selfTest (firstPoll d3 o) o (failedHems ts) true
  if stops then (m, d4)
  else
    let blank (d : Dev) (r : Restored) : Dev := logSection r.tile 3 (countSection false o.ledger m r.tile d 0x2000 (blankLines r.tile)) r.blank
    let d5 := if orderly then rs.foldl blank d4 else d4
    let valid := if orderly then (rs.foldl restoreShare []).reverse else []
    let d6 := ledgerStatus { d5 with blank := ⟨valid, [], false, true, []⟩, mend := Reset.mend } rs orderly
    let r := rs.reverse.foldl (warmLedger orderly d6.boot.epoch.toNat) (m, d6)
    (r.1, enable r.2)

/-! ## Warm entries (R500 to R504) -/

/-- A channel with no entry in it (D2 of R504). -/
def shutChan (c : Chan) : Chan :=
  { Reset.chan with nextId := c.nextId, banks := c.banks, ranks := c.ranks, colAt := c.colAt, history := c.history,
                    rotor := c.rotor, owed := c.owed, dueRef := c.dueRef, rfm := c.rfm, base := c.base, seam := c.seam }

/-- Every rank and far channel is in self-refresh. -/
def allAsleep (d : Dev) : Bool := (List.range 320).all fun t => (ranksOf t).all fun k => (getRank (chan d t) k).selfRefresh

/-- E5 and D3: self-refresh entry of every tile (R502). -/
def sleepAll (d : Dev) : Dev := onLayers ((List.range 320).foldl sleepTile d) [] layerSleep

/-- E6 and D4: the clocks to the memory have stopped, and dl_sr_done rises (R478, R502, R513). -/
def sleepDone (d : Dev) : Dev :=
  let d2 := onPins (onBoot d fun b => { b with warmState := 5 }) fun p => { p with srDone := true, ck := false }
  if d.pins.srDone then d2 else raise d2 Ev.WARM_READY

/-- The early DELTA writes of a channel complete with the lines on their way (D2 of R504, R255). -/
def finishDeltas (s : SMap DLine × Dev) (t : Nat) : SMap DLine × Dev :=
  let c := chan s.2 t
  let one (m : SMap DLine) (e : HEntry) : SMap DLine :=
    let k := lineKey t e.bank e.row e.col
    match c.fly.find? fun f => f.owner = .drain t e.id with
    | some f => (match f.content with | some x => memPut m k (xorLine x e.line) | none => merase m k)
    | none => merase m k
  ((c.awaiting.filter fun e => e.kind = .delta).foldl one s.1, s.2)

/-- Every outstanding transaction is abandoned, and every channel entry discarded (D2 of R504). -/
def abandonAll (d : Dev) : Dev :=
  let slice (s : Slice) : Slice := { Reset.slice with sets := s.sets, quota := s.quota, quotaRaised := s.quotaRaised, rr := s.rr }
  let stopMove (s : Svc) : Svc := { s with move := s.move.map (fun m => { m with job := none, saved := false }), led := [] }
  let tile (x : Tile) : Tile := ⟨slice x.slice, shutChan x.chan, stopMove x.svc⟩
  let port (p : Port) : Port := { p with owing := none, reserved := 0, done := [] }
  let master (x : Master) : Master := { x with queue := [], held := 0, due := [] }
  let panel (p : Panel) : Panel := { p with jobs := [], boltOps := [], walkTile := none, walkQueue := [] }
  let g := { d.mangle with queue := [], input := [], opening := [], batch := none, next := none, busy := [] }
  { d with txns := [], jobs := [], tiles := d.tiles.map fun e => (e.1, tile e.2), ports := d.ports.map fun e => (e.1, port e.2),
           reg := { d.reg with masters := d.reg.masters.map fun e => (e.1, master e.2) },
           panels := d.panels.map fun e => (e.1, panel e.2), mangle := g, maint := 0, sweep := 0, link := { d.link with fwds := [] } }

/-- An entry begins: a worker sends LEAVE, dl_ready falls (E1, D1). STEP of a halted instance stays HALTED (R499). -/
def beginEntry (d : Dev) : Dev :=
  let d1 := if isManager d then d else send d d.boot.mgr.toNat .leave
  onPins (onBoot d1 fun b => { b with step := if b.halted then 15 else 10, warmState := 1, warmErr := 0 }) fun p => { p with ready := false }

def entryRuns (d : Dev) : Bool := decide (1 ≤ d.boot.warmState ∧ d.boot.warmState ≤ 4)

/-- ERR of an ORDERLY action (R500, DLB_WARM_STATUS). -/
def orderlyErr (d : Dev) : Nat :=
  if entryRuns d then 4
  else if d.boot.step ≠ 9 then 1
  else if (List.range 320).any (isFrozen d) then 2
  else if (List.range 320).any (fun t => (svc d t).state = .lifting) then 3
  else 0

/-- A write of DLB_WARM_CTRL; the Bool says whether it is taken. A disorderly entry runs at once. -/
def warmCmd (m : SMap DLine) (d : Dev) (v : Word) : (SMap DLine × Dev) × Bool :=
  let reject (e : Nat) : (SMap DLine × Dev) × Bool := ((m, onBoot d fun b => { b with warmErr := e }), false)
  match bits v 31 30 with
  | 0 => ((m, d), true)
  | 1 =>
    if orderlyErr d ≠ 0 then reject (orderlyErr d)
    else ((m, rsetBits (beginEntry d) 0x8100 16 16 0), true)
  | 2 =>
    if !d.boot.applied then reject 1
    else
      let r := (List.range 320).foldl finishDeltas (m, beginEntry d)
      ((r.1, sleepDone (sleepAll (abandonAll r.2))), true)
  | _ => ((m, d), false)

/-! ## The steps of an orderly entry after its acceptance -/

/-- Masters whose credits E2 waits for. -/
def quietMasters : List Nat := List.range 17 ++ [19, 20, 23]

/-- RETURN for each tile that is OUT and HELD (E2). -/
def returnHeld (d : Dev) : Dev :=
  (List.range 320).foldl (fun d t => if (svc d t).state = .out && (svc d t).reason = .held then startReturn d t else d) d

/-- E2 is over. -/
def isQuiesced (d : Dev) : Bool :=
  quietMasters.all (fun m => (getMaster d m).held = 0) && d.mangle.queue.isEmpty &&
    (List.range 320).all fun t =>
      let s := svc d t
      !s.draining && s.state ≠ .returning && !(s.state = .out && (s.reason = .marking || s.reason = .held)) &&
        (s.move.isNone || s.state = .out)

def channelsEmpty (d : Dev) : Bool := (List.range 320).all fun t => channelEmpty d t

/-- The row that a row of a bank stands for: that of the entry whose spare it is, or itself. -/
def sourceRow (d : Dev) (t bank row : Nat) : Nat :=
  match ((List.range 16).map (patchOf (svc d t))).find? fun p => p.state = .active && p.bank = bank && spareRow t p.spare = row with
  | some p => p.row
  | none => row

/-- What the line of a key holds is undefined: its bolt is blank, or its Blank word was lost and nothing has written the line
since (R347, R351). -/
def isUndefined (d : Dev) (k : Nat) : Bool :=
  let bank := k / (16384 * 32) % 64
  match roleOf d ⟨keyTile k, bank, sourceRow d (keyTile k) bank (k / 32 % 16384), k % 32⟩ with
  | .data st | .parity st => let b := stripeBolt d st; !isValid d b || isLost d b k
  | .other => false

/-- E4: M21 asks for the BLANK section of every channel; its HEADER follows (R496, `saveNext`); and for the TRAIN section that waits
on a frozen one (R503). The undefined contents of blank
bolts do not outlive the Blank map that names them: a share that is lost finds them undefined (R347, R497). -/
def saveLedger (s : SMap DLine × Dev) : SMap DLine × Dev :=
  let d := blankLookAll s.2
  (s.1.filter fun e => !isUndefined d e.1,
   (tilesDown.filter (isFrozen d)).foldl ledgerResume
     (tilesDown.foldl (fun d t => ledgerPost t 0x2000 (blankLines t) (blankNat t d.blank.valid) d) d))

/-- Every section has been written, and no report waits for its freeze. -/
def isSaved (d : Dev) : Bool :=
  channelsEmpty d && d.tiles.all fun e => e.2.svc.led.isEmpty && (e.2.chan.alert.isNone || e.2.svc.state = .out)

/-- One step of a running orderly entry: E2 to E6 (R501, R503). Between the self-refresh commands of E5 and E6 a parity report can
still come. -/
def entryStep (m : SMap DLine) (d : Dev) : SMap DLine × Dev :=
  match d.boot.warmState with
  | 1 =>
    let d1 := returnHeld d
    if isQuiesced d1 && d1.maint = 0 then (m, onBoot (maintStart d1 1) fun b => { b with warmState := 2 }) else (m, d1)
  | 2 => if d.maint = 0 && channelsEmpty d then saveLedger (m, onBoot d fun b => { b with warmState := 3 }) else (m, d)
  | 3 => (m, if isSaved d then onBoot d fun b => { b with warmState := 4 } else d)
  | 4 => (m, if allAsleep d then sleepDone d else sleepAll d)
  | _ => (m, d)

/-! ## Commands -/

/-- RESET_ASSERT (R478). -/
def execResetAssert (s : State) : Host.Outcome State Fault Refusal := onMem s resetAssert
/-- RESET_DEASSERT (R52, R456, R498). -/
def execResetDeassert (instId mgrSel : BitVec 2) (s : State) : Host.Outcome State Fault Refusal :=
  onDev s (resetDeassert · instId mgrSel)
/-- MEM_RESET (R479). -/
def execMemReset (asserted : Bool) (s : State) : Host.Outcome State Fault Refusal := onMem s fun m d => memReset m d asserted
/-- COLD_START (R498). -/
def execColdStart (o : StartOutcome) (s : State) : Host.Outcome State Fault Refusal := onMem s fun m d => coldStart m d o
/-- WARM_START (R506). After a reset that R480 does not allow it to follow, what the instance does is undefined. -/
def execWarmStart (o : StartOutcome) (s : State) : Host.Outcome State Fault Refusal :=
  if !mayStart s.dev true then .next s
  else if !s.dev.boot.warmOk then .fault .warmUndefined
  else onMem s fun m d => warmStart m d o

end Sys2Proof.Machine
end

