-- ==== Sys2Proof/Machine/Clock.lean ====
section
/-!
DEFINITION. One TCLK with no command waiting (log entry 2): the counts that advance with time, the head of each link's
queue, and a running warm entry.
-/
namespace Sys2Proof.Machine

/-- Ranks of a tile that satisfy p. -/
def ranksWith (d : Dev) (t : Nat) (p : Rank → Bool) : Nat := ((ranksOf t).filter fun r => p (getRank (chan d t) r)).length

/-- Time awake and powered down of one tile (R428, DLT_PD_TIME, PD_TCLK). -/
def tileTime (d : Dev) (t : Nat) : Dev :=
  let downs := ranksWith d t Rank.down
  let on := mgetD 0 d.energy.onRest t + ranksWith d t fun r => !r.down && !r.selfRefresh
  let pd := mgetD 0 d.energy.pdRest t + downs
  let d1 := raiseN (eCount d t 4 (on / 1024)) Ev.PD_TCLK downs
  let d2 := if pd / 16 = 0 then d1 else rinc d1 (tileOff t 0x020) (pd / 16)
  onEnergy d2 fun e => { e with onRest := mputD 0 e.onRest t (on % 1024), pdRest := mputD 0 e.pdRest t (pd % 16) }

/-- Counts of the arbiter of one tile (R308, R309). -/
def arbTime (d : Dev) (t : Nat) : Dev :=
  if !quotaMasks d t then d
  else
    let d1 := rinc d (tileOff t 0x100) 1
    let low := (heads d t).any fun e => decide (e.2.prio < 6)
    if (rget d 0x3000).getLsbD 16 || low then d1 else rinc d1 (tileOff t 0x104) 1

/-- One master: waiting for a credit, and pressed so far (R282, R303). -/
def masterTime (d : Dev) (m : Nat) : Dev :=
  let x := getMaster d m
  let d1 := if headWaits d m && !creditOk d m then raise d Ev.CREDIT_WAIT (some m) else d
  setMaster d1 m { x with pressed := x.pressed && pressedNow d m }

/-- A CONTRIB waits at the input of Mangle control (R217). -/
def stagingTime (d : Dev) : Dev :=
  match d.mangle.input.head?.bind (getTxn d) with
  | some x => if x.kind = .contrib then raise d Ev.STAGING_WAIT (some x.master) else d
  | none => d

/-- The channel of a link that a message takes: requests apart from the others, relayed messages apart from this instance's
own, and the two relay channels apart. None waits for another (R461). -/
def laneOf (q : Queued) : Bool × Bool × Nat := (q.msg.body.cls = 0, q.relayed, q.chan)

/-- The oldest message of every channel, and what stays. -/
def oldest : List Queued → List (Bool × Bool × Nat) → List Queued × List Queued
  | [], _ => ([], [])
  | q :: qs, seen =>
    if seen.contains (laneOf q) then
      let r := oldest qs seen
      (r.1, q :: r.2)
    else
      let r := oldest qs (laneOf q :: seen)
      (q :: r.1, r.2)

/-- The oldest message of each channel of a link leaves (log entry 8); on a link that is not up only a HELLO does. -/
def linkTime (d : Dev) (j : Nat) : Dev :=
  let l := getLink d j
  let r := if linkUp d j then oldest l.queue []
    else (l.queue.filter (fun q => q.msg.body.code = 3), l.queue.filter fun q => q.msg.body.code ≠ 3)
  sendHeld (linkTx (setLink d j { l with queue := r.2 }) (r.1.map fun q => q.msg.body))

/-- One TCLK. -/
def tickDev (m : SMap DLine) (d : Dev) : SMap DLine × Dev :=
  if d.pins.rstAsserted || !d.pins.pllCore then (m, d)
  else
    let d1 := laneTime (sweepTick (masters.foldl masterTime (stagingTime (raise d Ev.CYCLES))))
    let d2 := (d1.tiles.map Prod.fst).foldl arbTime ((List.range 320).foldl tileTime d1)
    let r := entryStep m (linkTime (linkTime d2 0) 1)
    (r.1, { r.2 with cycle := r.2.cycle + 1 })

def tick (s : State) : State :=
  let r := tickDev s.dram s.dev
  { s with dram := r.1, dev := r.2 }

end Sys2Proof.Machine
end

