-- ==== Sys2Proof/Machine/Regs.lean ====
section
/-!
DEFINITION. Accesses at the YCP arbiter with their responses, the command registers, merged writes (R33 to R37,
R475, R476, R526 to R534, R538), and the commands that are such accesses.
-/
namespace Sys2Proof.Machine

/-! ## Blocks and responses (R530, R533, R535, R538) -/

/-- The range of a TCLK block; the blocks of the 320 tiles end at 0x23FFFF (log entry 32). -/
def inTclk (off : Nat) : Bool :=
  decide (0x2000 ≤ off ∧ off < 0xE000) || decide (0xF000 ≤ off ∧ off < 0x11000) || decide (0x100000 ≤ off ∧ off < 0x240000)

/-- The range of DLW. -/
def inEclk (off : Nat) : Bool := decide (0xE000 ≤ off ∧ off < 0xF000)

/-- An access to the offset is served (R533). -/
def served (d : Dev) (off : Nat) : Bool :=
  if inTclk off then d.pins.pllCore && !d.pins.testMode else if inEclk off then !d.pins.testMode else true

/-- Response parity: it makes the number of ones even (R529). -/
def responseParity (code : BitVec 2) (rdata : Word) : Bool := isOdd code != isOdd rdata

/-- The response last given at the port, with its parity (R527, R529). -/
def answer (d : Dev) (code : BitVec 2) (rdata : Word) : Dev :=
  { d with ycp := { d.ycp with rsp := some (code, rdata), par := responseParity code rdata } }

/-- PARITY (1) or NOT_READY (2): captured while VALID is 0, and counted (R538). -/
def answerErr (d : Dev) (kind : Nat) (write : Bool) (addr : Nat) : Dev :=
  let d1 := if (rget d 0x30).getLsbD 31 then d
    else rset d 0x30 (BitVec.ofNat 32 (2 ^ 31 + bit write * 2 ^ 30 + kind * 2 ^ 28 + addr * 4))
  answer (rinc d1 0x34 1) (if kind = 1 then 3 else 2) 0

def answerWrite (d : Dev) (ok : Bool) : Dev := answer d (if ok then 0 else 1) 0

/-! ## Command registers -/

/-- A write of DLP_MAINT (R181). -/
def maintCmd (d : Dev) (v : Word) : Dev × Bool :=
  let op := bits v 1 0
  if d.maint ≠ 0 then (d, false)
  else if op = 0 then (d, true)
  else if op = 3 && d.pins.ready then (d, false)
  else (maintStart d op, true)

/-- A write of DLE_BLANK_CMD (R352). -/
def blankCmd (d : Dev) (v : Word) : Dev × Bool :=
  if !v.getLsbD 0 then (d, true)
  else if d.pins.ready || d.blank.busy then (d, false)
  else ({ d with blank := { d.blank with valid := [], errs := [], busy := true } }, true)

/-- A write of DLE_BLANK_QUERY, with its lookup. The rule gives it up to 4 TCLK; it completes in this step, so that DONE never reads
0 after a query: DESIGN CHOICE (log entry 29). What a map that nothing has set holds is not stated (log entry 9). -/
def blankQuery (d : Dev) (v : Word) : Dev :=
  let b := bits v 25 0
  if 62914559 < b then rset d 0xA008 0xC0000000
  else if d.blank.known || d.blank.busy then rset (blankLook d b) 0xA008 (BitVec.ofNat 32 (2 ^ 31 + bit (isValid d b)))
  else rset { d with free := d.free + 1 } 0xA008 (BitVec.ofNat 32 (2 ^ 31 + bit (Config.freeChoice d.free)))

/-- CLEAR of DLC_CTRL: bit n counter n with its DLC_SAT bit, bit 8 the histograms (R520, R524). -/
def clearCounts (d : Dev) (mask : BitVec 9) : Dev :=
  let counter (d : Dev) (n : Nat) : Dev :=
    if mask.getLsbD n then
      { d with tally := { d.tally with counts := merase d.tally.counts n,
                                       satRaised := d.tally.satRaised &&& ~~~(BitVec.ofNat 8 (2 ^ n)) } }
    else d
  let histogram (d : Dev) (h : Nat) : Dev :=
    let base := 0x10400 + 0x100 * h
    (List.range 32).foldl (fun d b => rset d (base + 0x80 + 4 * b) 0) (rset (rset d (base + 4) 0) (base + 8) 0)
  let d1 := (List.range 8).foldl counter d
  if mask.getLsbD 8 then (List.range 4).foldl histogram d1 else d1

/-- REARM of DLW_DIV_CTRL (R451). -/
def rearm (d : Dev) : Dev := onEnergy d fun e => { e with diverged := false, run := 0 }

/-- A write of DLW_OPk releases the hold-off of point k (R447). -/
def releasePoint (d : Dev) (k : Nat) : Dev :=
  onEnergy d fun e => { e with heldOff := e.heldOff &&& ~~~(BitVec.ofNat 4 (2 ^ k)) }

/-- Registers of the tile blocks that are commands. -/
def tileCmd (d : Dev) (t off : Nat) (v : Word) : Option (Dev × Bool) :=
  match off with
  | 0x04C => some (frzRelease d t (bits v 1 0))
  | 0x300 => some (hemCmd d t v)
  | _ => none

/-- Registers whose write is a command; the Bool says whether it is taken. None: a register that only holds fields. -/
def regCmd (m : SMap DLine) (d : Dev) (off : Nat) (v : Word) : Option ((SMap DLine × Dev) × Bool) :=
  let dev (r : Dev × Bool) : Option ((SMap DLine × Dev) × Bool) := some ((m, r.1), r.2)
  match off with
  | 0x1008 => if d.boot.applied then dev (d, false) else none
  | 0x100C => dev (imgData d v)
  | 0x1018 => some (warmCmd m d v)
  | 0x6020 => dev (maintCmd d v)
  | 0x8020 => dev (numq d (bits v 15 0), true)
  | 0x8128 => dev (tubAbort d v, true)
  | 0xA000 => dev (blankCmd d v)
  | 0xA004 => dev (blankQuery d v, true)
  | 0xB000 => dev (svcCmd d v)
  | 0xF034 => dev (joinCmd d v)
  | _ =>
    if 0x100000 ≤ off ∧ off < 0x240000 then
      match tileCmd d ((off - 0x100000) / 0x1000) (off % 0x1000) v with
      | some r => dev r
      | none => none
    else none

/-- A write of DLB_BOOT_CTRL: GO, and KIND (R489, R491). -/
def bootCtrl (d : Dev) (v : Word) : Dev × Bool :=
  let r := if v.getLsbD 31 then goCmd d else (d, true)
  let d1 := if r.2 then r.1 else logIgnored r.1 0x1000 v
  let d2 := if d1.boot.applied then d1 else rset d1 0x1000 (setBits (rget d1 0x1000) 0 0 (bits v 0 0))
  (d2, r.2 || !d.boot.applied)

/-- Registers that hold fields beside a trigger. -/
def fieldWrite (d : Dev) (off : Nat) (v : Word) : Dev × Bool :=
  if off = 0x1000 then bootCtrl d v
  else
    let r := plainWrite d .host d.boot.applied off v
    if off = 0x10000 then (clearCounts r.1 (v.setWidth 9), r.2)
    else if off = 0xE0E0 && v.getLsbD 31 then (rearm r.1, r.2)
    else if 0xE060 ≤ off ∧ off < 0xE070 ∧ off % 4 = 0 then (releasePoint r.1 ((off - 0xE060) / 4), r.2)
    else r

/-- A write of DLT_HEM_CMD with a defined action: R418 shows its rejection in RESULT and logs nothing. -/
def isHemCmd (off : Nat) (v : Word) : Bool :=
  decide (0x100000 ≤ off ∧ off < 0x240000 ∧ off % 0x1000 = 0x300) && decide (bits v 31 29 < 5)

/-- A write of the host driver; a rejected command is logged as its rule states (R534). -/
def hostWrite (m : SMap DLine) (d : Dev) (off : Nat) (v : Word) : (SMap DLine × Dev) × Bool :=
  match regCmd m d off v with
  | some ((m1, d1), ok) => ((m1, if ok || isHemCmd off v then d1 else logIgnored d1 off v), ok)
  | none => let r := fieldWrite d off v; ((m, r.1), r.2)

/-! ## Split pairs (R37) -/

def holdOf (d : Dev) : Agent → Option (Nat × Word)
  | .host => d.ycp.holdHost
  | .manager => d.ycp.holdMgr

def setHold (d : Dev) (a : Agent) (h : Option (Nat × Word)) : Dev :=
  { d with ycp := match a with | .host => { d.ycp with holdHost := h } | .manager => { d.ycp with holdMgr := h } }

def anyWritable (off : Nat) : Bool := (fieldsAt off).any fun x => x.acc.isWritable

/-- A writable 64-bit pair whose lower register is at the offset. -/
def isWritablePair (lo : Nat) : Bool := isPairLow lo && (anyWritable lo || anyWritable (lo + 4))

/-- The agent may write some field of the pair. -/
def mayHold (d : Dev) (a : Agent) (lo : Nat) : Bool :=
  !(openFields lo a d.boot.applied).isEmpty || !(openFields (lo + 4) a d.boot.applied).isEmpty

/-- A write that is no part of a writable pair. -/
def writeSingle (m : SMap DLine) (d : Dev) (a : Agent) (off : Nat) (v : Word) : (SMap DLine × Dev) × Bool :=
  match a with
  | .host => hostWrite m d off v
  | .manager => let r := plainWrite d .manager d.boot.applied off v; ((m, r.1), r.2)

/-- One write access of an agent at the arbiter. -/
def writeAccess (m : SMap DLine) (d : Dev) (a : Agent) (off : Nat) (v : Word) : (SMap DLine × Dev) × Bool :=
  let held := holdOf d a
  let d1 := setHold d a none
  if isWritablePair off && mayHold d a off then ((m, setHold d1 a (some (off, v))), true)
  else if 4 ≤ off && isWritablePair (off - 4) then
    match held with
    | some (lo, w) =>
      if lo = off - 4 then
        let r1 := plainWrite d1 a d.boot.applied lo w
        let r2 := plainWrite r1.1 a d.boot.applied off v
        ((m, r2.1), r1.2 || r2.2)
      else ((m, lint d1 0x11 {} off (writerNum a)), false)
    | none => ((m, lint d1 0x11 {} off (writerNum a)), false)
  else writeSingle m d1 a off v

/-! ## Merged writes (R34, R476) -/

def hasBoth (off : Nat) : Bool := (fieldsAt off).any fun x => x.acc.isWritable && x.own = .hm

/-- CONFLICT: captured, counted and logged. -/
def conflict (d : Dev) (off : Nat) (v : Word) : Dev :=
  let d1 := raise d Ev.CONFLICT
  let d2 := if (rget d1 0xF044).getLsbD 31 then d1 else rset d1 0xF044 (BitVec.ofNat 32 (2 ^ 31 + off))
  lint (rinc d2 0xF048 1) 0x30 {} off v.toNat

/-- The one merged write: an HM field takes the manager's value, an H field the host's, an M field the manager's; and whether a
field took a value, and one took the manager's. -/
def mergedWrite (m : SMap DLine) (d : Dev) (off : Nat) (hv mv : Word) : (SMap DLine × Dev) × Bool × Bool :=
  let d1 := setHold (setHold d .host none) .manager none
  if !anyWritable off then ((m, logIgnored d1 off hv), false, false)
  else if hasBoth off then
    let r := plainWrite d1 .manager d.boot.applied off mv
    ((m, conflict r.1 off hv), r.2, r.2)
  else
    let r := hostWrite m d1 off hv
    let q := plainWrite r.1.2 .manager d.boot.applied off mv
    ((r.1.1, q.1), r.2 || q.2, q.2)

/-! ## Accesses of the port and of the manager -/

/-- A write at the port, with its response (R530, R531). -/
def portWrite (m : SMap DLine) (d : Dev) (off : Nat) (v : Word) : SMap DLine × Dev :=
  if d.pins.rstPin then (m, d)
  else if !served d off then (m, answerErr d 2 true (off / 4))
  else let r := writeAccess m d .host off v; (r.1.1, answerWrite r.1.2 r.2)

/-- A manager write that reaches the arbiter; the Bool says whether a field took it. -/
def managerWrite (m : SMap DLine) (d : Dev) (off : Nat) (v : Word) : (SMap DLine × Dev) × Bool :=
  if d.pins.rstAsserted || !served d off then ((m, d), false) else writeAccess m d .manager off v

/-- A worker answers the manager's write (R475). -/
def ackManager (d : Dev) (off : Nat) (taken : Bool) : Dev :=
  if isManager d || d.pins.rstAsserted then d else send d d.boot.mgr.toNat (.regAck (BitVec.ofNat 24 off) taken)

/-- A write at the arbiter: of the host driver, of the manager's internal units, or of both in one MCLK (R475, R476). -/
def writeBy (m : SMap DLine) (d : Dev) (off : Nat) : WriteBy → SMap DLine × Dev
  | .host v => portWrite m d off v
  | .manager v => let r := managerWrite m d off v; (r.1.1, ackManager r.1.2 off r.2)
  | .both hv mv =>
    if d.pins.rstPin then (m, d)
    else if !served d off then (m, ackManager (answerErr d 2 true (off / 4)) off false)
    else let r := mergedWrite m d off hv mv; (r.1.1, ackManager (answerWrite r.1.2 r.2.1) off r.2.2)

/-- A read by an agent; the host driver's has a response at the port, and the manager's returns its value. -/
def readBy (f : Fuses) (d : Dev) (a : Agent) (off : Nat) : Dev :=
  if d.pins.rstPin then d
  else if !served d off then (match a with | .host => answerErr d 2 false (off / 4) | .manager => d)
  else
    let r := readAccess f (lintRead d off) a off
    match a with
    | .host => answer r.2 0 r.1
    | .manager => { r.2 with ycp := { r.2.ycp with mgr := some r.1 } }

/-- The address of a denial that the command does not carry: a free value (log entries 1 and 9). -/
def freeDenial (d : Dev) : Dev :=
  let x := (freeLine d).1.data.toNat % 2 ^ 39
  rset (rset (freeLine d).2 0x4054 (BitVec.ofNat 32 (x % 2 ^ 32))) 0x4058 (BitVec.ofNat 32 (x / 2 ^ 32))

/-- The register captures a record while its VALID is 0: an RC field at bit 31, released by the read. -/
def isCapture (off : Nat) : Bool := (fieldsAt off).any fun x => x.acc = .rc && x.hi = 31 && x.lo = 31

/-- A capture's other fields take the new record. -/
def takeRecord (off : Nat) (met : Word) (d : Dev) : Dev :=
  let d1 := ((fieldsAt off).filter fun x => x.acc = .ro).foldl (fun d x => rsetBits d off x.hi x.lo (bits met x.hi x.lo)) d
  if off = 0x4050 then freeDenial d1 else d1

def isRc (x : Field) : Bool := x.acc = .rc

/-- The RC fields of a register take what the hardware adds to them (R30), a 64-bit count as a whole; a capture that its read has
released takes the new record, and the retirement list a new report (R390; log entry 1). -/
def meetCount (off : Nat) (met : Word) (d : Dev) : Dev :=
  let count := if isPairLow off && (fieldsAt off).any isRc then add64 d off met.toNat
    else ((fieldsAt off).filter isRc).foldl (fun d x => rcount d off x.hi x.lo (bits met x.hi x.lo)) d
  if off = 0xB030 then (if met.getLsbD 31 then pushRetire d (met &&& 0x7FFFFFFF) else d)
  else if isCapture off && met.getLsbD 31 && !(rget d off).getLsbD 31 then takeRecord off met count
  else count

/-- A read of a register with RC fields; an update of the same MCLK comes after the clear: the read returns the old value and
the fields keep the update (R30, R33). -/
def countRead (f : Fuses) (d : Dev) (a : Agent) (r : CountRead) : Dev :=
  if d.pins.rstAsserted then readBy f d a r.off.toNat else meetCount r.off.toNat r.met (readBy f d a r.off.toNat)

/-- Bit k of DLI_IRQ_PENDn is an interrupt cause (R514). -/
def isCause (n k : Nat) : Bool := (fieldsAt (irqPend n)).any fun x => decide (x.lo ≤ k ∧ k ≤ x.hi)

/-- A clearing write of DLI_IRQ_PENDn; causes that events set in the same MCLK end set, each occurrence with the attributes that
its event lists (R30, R509). -/
def pendClear (m : SMap DLine) (d : Dev) (n : Nat) (w : PendClear) : SMap DLine × Dev :=
  let r := portWrite m d (irqPend n) w.value
  let met := w.met.filter fun x => !d.pins.rstAsserted && isCause n x.cause.val
  (r.1, met.foldl (fun d x => raiseCause d (0x100 + 0x20 * n + x.cause.val) x.master.val x.bolt.toNat) r.2)

/-- The port whose DLQ_PORT_ERRn stands at an offset. -/
def errPort (off : Nat) : Option Nat := if 0x2040 ≤ off ∧ off < 0x2080 ∧ off % 4 = 0 then some ((off - 0x2040) / 4) else none

/-- The bits of DLQ_PORT_ERRn that errors set. -/
def errBits (met : List PortErr) : Word := met.foldl (fun w e => w ||| BitVec.ofNat 32 (2 ^ e.kind.val)) 0

/-- A write of a register; errors that a port meets in the MCLK of a write to its DLQ_PORT_ERRn are recorded by the bits as they
stand before it, and their bits end set (R30, R148). -/
def writeMet (m : SMap DLine) (d : Dev) (off : Nat) (w : WriteBy) (met : List PortErr) : SMap DLine × Dev :=
  match errPort off, d.pins.rstAsserted with
  | some n, false =>
    let r := writeBy m (met.foldl (fun d e => portError d n e.kind.val e.tag) d) off w
    (r.1, rset r.2 off (rget r.2 off ||| errBits met))
  | _, _ => writeBy m d off w

/-- A number of ones that is odd. -/
def oddOnes (write : Bool) (addr : BitVec 22) (wdata : Word) (par : Bool) : Bool :=
  let ones {n : Nat} (v : BitVec n) : Nat := ((List.range n).filter fun i => v.getLsbD i).length
  (bit write + ones addr + ones wdata + bit par) % 2 = 1

/-- An access as the port receives it, with its parity (R529). -/
def rawAccess (f : Fuses) (m : SMap DLine) (d : Dev) (write : Bool) (addr : BitVec 22) (wdata : Word) (par : Bool) :
    SMap DLine × Dev :=
  if d.pins.rstPin then (m, d)
  else if (rget d 0x14).getLsbD 31 && oddOnes write addr wdata par then (m, answerErr d 1 write addr.toNat)
  else if write then portWrite m d (addr.toNat * 4) wdata
  else (m, readBy f d .host (addr.toNat * 4))

/-- REG_WRITE on a worker: TAKEN when the field took the value (R475). -/
def regWriteMsg (m : SMap DLine) (d : Dev) (off : BitVec 24) (v : Word) : SMap DLine × Dev :=
  if d.pins.rstAsserted || isManager d then (m, d)
  else
    let r := managerWrite m d off.toNat v
    (r.1.1, ackManager r.1.2 off.toNat r.2)

/-! ## Ends of what the units run -/

/-- MAINT_DONE. -/
def maintDone (d : Dev) : Dev := if d.maint ≠ 0 && maintIdle d then { d with maint := 0 } else d

/-- BLANK_CLEAR_DONE. -/
def blankClearDone (d : Dev) : Dev :=
  if d.blank.busy then { d with blank := ⟨[], [], false, true, []⟩ } else d

/-- TALLY_SAT: raised once for a counter at all-ones (R513). -/
def tallySat (d : Dev) (n : Nat) : Dev :=
  if mgetD 0 d.tally.counts n = countMax && !d.tally.satRaised.getLsbD n then
    raise { d with tally := { d.tally with satRaised := d.tally.satRaised ||| BitVec.ofNat 8 (2 ^ n) } } Ev.TALLY_SAT
  else d

/-! ## Commands -/

/-- A command that is one write of the host driver. -/
def hostCmd (off : Nat) (v : Word) (s : State) : Host.Outcome State Fault Refusal := onMem s fun m d => portWrite m d off v

/-- An action of DLD_SVC_CMD. -/
def svcWordOf (action : Nat) (t : BitVec 9) (slot : BitVec 2) : Word :=
  BitVec.ofNat 32 (action * 2 ^ 29 + slot.toNat * 2 ^ 24 + t.toNat)

/-- CLEAN_ALL (R179). -/
def execCleanAll (s : State) : Host.Outcome State Fault Refusal := hostCmd 0x6020 1 s
/-- FLUSH_ALL (R179). -/
def execFlushAll (s : State) : Host.Outcome State Fault Refusal := hostCmd 0x6020 2 s
/-- INVALIDATE_ALL (R179, R181). -/
def execInvalidateAll (s : State) : Host.Outcome State Fault Refusal := hostCmd 0x6020 3 s
/-- MAINT_DONE (R180). -/
def execMaintDone (s : State) : Host.Outcome State Fault Refusal := onDev s maintDone
/-- TUB_ABORT FAIL (R245). -/
def execTubAbortFail (tub : BitVec 16) (s : State) : Host.Outcome State Fault Refusal :=
  hostCmd 0x8128 (0x40000000 ||| tub.setWidth 32) s
/-- TUB_ABORT RELEASE (R245). -/
def execTubAbortRelease (tub : BitVec 16) (s : State) : Host.Outcome State Fault Refusal :=
  hostCmd 0x8128 (0x80000000 ||| tub.setWidth 32) s
/-- NUMQ (R223). -/
def execNumq (tub : BitVec 16) (s : State) : Host.Outcome State Fault Refusal := hostCmd 0x8020 (tub.setWidth 32) s
/-- FRZ_RETURN (R276). -/
def execFrzReturn (t : Fin 320) (s : State) : Host.Outcome State Fault Refusal := hostCmd (tileOff t.val 0x04C) 1 s
/-- FRZ_KEEP_OUT (R276). -/
def execFrzKeepOut (t : Fin 320) (s : State) : Host.Outcome State Fault Refusal := hostCmd (tileOff t.val 0x04C) 2 s
/-- FRZ_RETURN_ALL (R276). -/
def execFrzReturnAll (t : Fin 320) (s : State) : Host.Outcome State Fault Refusal := hostCmd (tileOff t.val 0x04C) 3 s
/-- SCHED_CTRL_WRITE (R279). -/
def execSchedCtrlWrite (t : Fin 320) (v : Word) (s : State) : Host.Outcome State Fault Refusal :=
  hostCmd (tileOff t.val 0) v s
/-- TAKE_OUT (R363). -/
def execTakeOut (t : BitVec 9) (s : State) : Host.Outcome State Fault Refusal := hostCmd 0xB000 (svcWordOf 1 t 0) s
/-- TAKE_OUT_LIFT (R380). -/
def execTakeOutLift (t : BitVec 9) (slot : BitVec 2) (s : State) : Host.Outcome State Fault Refusal :=
  hostCmd 0xB000 (svcWordOf 2 t slot) s
/-- SVC_RETURN (R363). -/
def execSvcReturn (t : BitVec 9) (s : State) : Host.Outcome State Fault Refusal := hostCmd 0xB000 (svcWordOf 3 t 0) s
/-- SVC_RETURN_ALL (R376). -/
def execSvcReturnAll (t : BitVec 9) (s : State) : Host.Outcome State Fault Refusal := hostCmd 0xB000 (svcWordOf 4 t 0) s
/-- RETIRE_POP (R390). -/
def execRetirePop (s : State) : Host.Outcome State Fault Refusal := onDev s (readBy s.fuses · .host 0xB030)
/-- RETRAIN (R418). -/
def execRetrain (t : Fin 320) (s : State) : Host.Outcome State Fault Refusal := hostCmd (tileOff t.val 0x300) 0x20000000 s
/-- LOOP_NEAR_END (R417). -/
def execLoopNearEnd (t : Fin 320) (s : State) : Host.Outcome State Fault Refusal := hostCmd (tileOff t.val 0x300) 0x40000000 s
/-- LOOP_FAR_END (R417). -/
def execLoopFarEnd (t : Fin 320) (s : State) : Host.Outcome State Fault Refusal := hostCmd (tileOff t.val 0x300) 0x60000000 s
/-- LOOP_STOP (R418). -/
def execLoopStop (t : Fin 320) (s : State) : Host.Outcome State Fault Refusal := hostCmd (tileOff t.val 0x300) 0x80000000 s
/-- REARM (R451): the fields beside REARM keep their values. -/
def execRearm (s : State) : Host.Outcome State Fault Refusal :=
  onMem s fun m d => portWrite m d 0xE0E0 (rget d 0xE0E0 ||| 0x80000000)
/-- PURSE_GRANT_WRITE (R437). -/
def execPurseGrantWrite (w : WriteBy) (s : State) : Host.Outcome State Fault Refusal := onMem s fun m d => writeBy m d 0xE0C0 w
/-- OP_WRITE (R447). -/
def execOpWrite (k : Fin 4) (v : Word) (s : State) : Host.Outcome State Fault Refusal := hostCmd (0xE060 + 4 * k.val) v s
/-- REG_WRITE (R475). -/
def execRegWrite (off : BitVec 24) (v : Word) (s : State) : Host.Outcome State Fault Refusal :=
  onMem s fun m d => regWriteMsg m d off v
/-- JOIN (R474). -/
def execJoin (inst : BitVec 2) (s : State) : Host.Outcome State Fault Refusal :=
  hostCmd 0xF034 (0x40000000 ||| inst.setWidth 32) s
/-- EVICT (R470). -/
def execEvict (inst : BitVec 2) (s : State) : Host.Outcome State Fault Refusal :=
  hostCmd 0xF034 (0x80000000 ||| inst.setWidth 32) s
/-- IMG_DATA_WRITE (R490). -/
def execImgDataWrite (v : Word) (s : State) : Host.Outcome State Fault Refusal := hostCmd 0x100C v s
/-- GO (R491): KIND keeps its value. -/
def execGo (s : State) : Host.Outcome State Fault Refusal :=
  onMem s fun m d => portWrite m d 0x1000 (rget d 0x1000 ||| 0x80000000)
/-- ORDERLY_ENTRY (R501). -/
def execOrderlyEntry (s : State) : Host.Outcome State Fault Refusal := hostCmd 0x1018 0x40000000 s
/-- DISORDERLY_ENTRY (R504). -/
def execDisorderlyEntry (s : State) : Host.Outcome State Fault Refusal := hostCmd 0x1018 0x80000000 s
/-- BLANK_CLEAR (R352). -/
def execBlankClear (s : State) : Host.Outcome State Fault Refusal := hostCmd 0xA000 1 s
/-- BLANK_QUERY (DLE_BLANK_QUERY, R360). -/
def execBlankQuery (bolt : BitVec 26) (s : State) : Host.Outcome State Fault Refusal := hostCmd 0xA004 (bolt.setWidth 32) s
/-- LINT_RECORD_WRITE (R357). -/
def execLintRecordWrite (s : State) : Host.Outcome State Fault Refusal := onDev s lintWrite
/-- LINT_TAIL_WRITE (DLE_LINT_TAIL). -/
def execLintTailWrite (v : Word) (s : State) : Host.Outcome State Fault Refusal := hostCmd 0xA044 v s
/-- TALLY_CLEAR (R520): FREEZE keeps its value. -/
def execTallyClear (mask : BitVec 9) (s : State) : Host.Outcome State Fault Refusal :=
  onMem s fun m d => portWrite m d 0x10000 ((rget d 0x10000 &&& 0x80000000) ||| mask.setWidth 32)
/-- TALLY_FREEZE (R521). -/
def execTallyFreeze (b : Bool) (s : State) : Host.Outcome State Fault Refusal :=
  hostCmd 0x10000 (if b then 0x80000000 else 0) s
/-- IRQ_CLEAR (R30, R514). -/
def execIrqClear (n : Fin 8) (w : PendClear) (s : State) : Host.Outcome State Fault Refusal :=
  onMem s fun m d => pendClear m d n.val w
/-- IRQ_SET (R539). -/
def execIrqSet (n : Fin 8) (v : Word) (s : State) : Host.Outcome State Fault Refusal := hostCmd (irqSetOff n.val) v s
/-- RC_READ (R30, R33). -/
def execRcRead (a : Agent) (r : CountRead) (s : State) : Host.Outcome State Fault Refusal :=
  onDev s (countRead s.fuses · a r)
/-- SPLIT_LO_READ (R36). -/
def execSplitLoRead (a : Agent) (off : BitVec 24) (s : State) : Host.Outcome State Fault Refusal :=
  onDev s (readBy s.fuses · a off.toNat)
/-- SPLIT_HI_READ (R36). -/
def execSplitHiRead (a : Agent) (off : BitVec 24) (s : State) : Host.Outcome State Fault Refusal :=
  onDev s (readBy s.fuses · a off.toNat)
/-- One write of an agent at the arbiter. -/
def writeOf (a : Agent) (v : Word) : WriteBy := match a with | .host => .host v | .manager => .manager v
/-- SPLIT_LO_WRITE (R37). -/
def execSplitLoWrite (a : Agent) (off : BitVec 24) (v : Word) (s : State) : Host.Outcome State Fault Refusal :=
  onMem s fun m d => writeBy m d off.toNat (writeOf a v)
/-- SPLIT_HI_WRITE (R37). -/
def execSplitHiWrite (a : Agent) (off : BitVec 24) (v : Word) (s : State) : Host.Outcome State Fault Refusal :=
  onMem s fun m d => writeBy m d off.toNat (writeOf a v)
/-- REGISTER_WRITE (R30, R32, R148, R476, R534). -/
def execRegisterWrite (off : BitVec 24) (w : RegisterWrite) (s : State) : Host.Outcome State Fault Refusal :=
  onMem s fun m d => writeMet m d off.toNat w.by_ w.met
/-- YCP_ERR (R529, R533, R538). -/
def execYcpErr (write : Bool) (addr : BitVec 22) (wdata : Word) (par : Bool) (s : State) :
    Host.Outcome State Fault Refusal := onMem s fun m d => rawAccess s.fuses m d write addr wdata par
/-- TALLY_SAT (R513). -/
def execTallySat (n : Fin 8) (s : State) : Host.Outcome State Fault Refusal := onDev s (tallySat · n.val)
/-- BLANK_CLEAR_DONE (R352). -/
def execBlankClearDone (s : State) : Host.Outcome State Fault Refusal := onDev s blankClearDone

end Sys2Proof.Machine
end

