-- ==== Sys2Proof/Machine/Sram.lean ====
section
/-!
DEFINITION. Errors of the on-chip SRAMs: what an upset leaves for the next check of a Press entry, a tub line, a diagnostic
line or a word of the Blank or Mend map to find (R184, R185, R244, R351, R374).
-/
namespace Sys2Proof.Machine

/-- A Press entry: a valid line of a cacheable way, or a diagnostic line (R152, R153). -/
def upsetPress (d : Dev) (t set way bit : Nat) : Dev :=
  if 316 ≤ t && way = 15 then
    let k := (t - 316) * 1024 + set
    { d with lint := { d.lint with bad := if d.lint.bad.contains k then d.lint.bad else d.lint.bad ++ [k] } }
  else if (cacheable d t).contains way && (getWay (getSet (slice d t) set) way).valid then
    let flip (x : Way) : Way :=
      if bit < 512 then { x with data := x.data ^^^ BitVec.ofNat 512 (2 ^ bit) }
      else { x with crc := x.crc ^^^ BitVec.ofNat 32 (2 ^ (bit - 512)) }
    onSlice d t fun s => setSet s set (setWay (getSet s set) way (flip (getWay (getSet s set) way)))
  else d

/-- The ways in which a near slice may hold a tub line: the lease way for one that it holds by lease, the other tub ways for a resident
one (R234). -/
def tubWayFits (d : Dev) (leased : Bool) (way : Nat) : Bool :=
  let first := 16 - tubWays d
  let spill := decide (rbits d 0x4014 13 0 ≠ 0)
  decide (first ≤ way) && (if leased then way = first else !(spill && way = first))

/-- A tub line: of a resident tub of the slice, or of a spilled one's chunk that the slice holds by lease (R240), in a way that may
hold it. DESIGN CHOICE (log entry 45): which set, and which of several tub ways, a tub line occupies is open; the model keeps no
placement, and takes the operand's as the place that DLP_SRAM_INFO names. -/
def upsetTub (d : Dev) (t i lo n set way : Nat) : Dev :=
  let h := getTub d i
  match getInc d h.gen with
  | some x =>
    let here := x.spill.isEmpty || (mgetD [] d.mangle.leases t).any fun l =>
      l.gen = h.gen && l.chunk = lo / perChunk x && l.phase = 1
    if (h.state = .open_ || h.state = .spilled) && x.home = t && here && tubWayFits d (!x.spill.isEmpty) way && decide (lo < tubElements x.fmt x.size) then
      { d with mangle := { d.mangle with flaws := d.mangle.flaws ++ [⟨h.gen, lo, n, t, set, way⟩] } }
    else d
  | none => d

/-- A map word: a second error in a word that shows one cannot be corrected. -/
def upsetWord (m : SMap Bool) (w : Nat) (uncorr : Bool) : SMap Bool := minsert m w (uncorr || (mget m w).isSome)

/-- Bits of an SRAM change by themselves. -/
def upset (d : Dev) (t : Nat) (u : Upset) : Dev :=
  if d.pins.rstAsserted then d
  else match u with
    | .press set way b => upsetPress d t set.val way.val b.val
    | .tub i lo n set way => upsetTub d t i.toNat lo n set.val way.val
    | .blank w b =>
      if d.blank.known then { d with blank := { d.blank with errs := upsetWord d.blank.errs w.val b } } else d
    | .mend w b => { d with mend := { d.mend with errs := upsetWord d.mend.errs w.val b } }

/-- TILE_GRANT (R306), with an upset that came before it. -/
def execTileGrant (t : Fin 320) (u : Option Upset) (s : State) : Host.Outcome State Fault Refusal :=
  onDev s fun d => tileGrant (match u with | some x => upset d t.val x | none => d) t.val

end Sys2Proof.Machine
end

