-- ==== Sys2Proof/Machine/Wrapper.lean ====
section
/-!
DEFINITION. The instructions of the test wrapper, test mode, and the fuses (R485, R540, R541).
-/
namespace Sys2Proof.Machine

/-- An instruction without test mode. Leaving test mode restores nothing: the logic stays in reset (R541). -/
def wrapperPlain (d : Dev) (code : BitVec 4) (out : List Nat) : Dev :=
  onPins d fun p => { p with wrapper := code, testMode := false, shiftOut := out }

/-- WS_BYPASS, and every code that acts as it: one bit lies between dl_wsi and dl_wso. What it holds no rule states: a free value
(log entry 36). -/
def selectBypass (d : Dev) : Dev :=
  wrapperPlain { d with free := d.free + 1 } 0 [bit (Config.freeChoice d.free)]

/-- An update of an instruction with test mode: the instance behaves as at the assertion of dl_rst_n, and is usable only after a
cold start (R541). -/
def enterTest (m : SMap DLine) (d : Dev) (code : BitVec 4) : SMap DLine × Dev :=
  let d1 := onPins d fun p => { p with wrapper := code, testMode := true, testTainted := true, shiftOut := [] }
  if d.pins.testMode then (m, d1)
  else
    let pin := d.pins.rstPin
    ([], onPins (onBoot (wakeAll (resetLogic d1)) fun b => { b with warmOk := false }) fun p => { p with rstPin := pin })

/-! ## Fuses -/

def natBits (n v : Nat) : List Nat := (List.range n).map fun i => v / 2 ^ i % 2

/-- The thermometer of the MIN_SEQ fuses. -/
def thermometer (n : Nat) : List Nat := (List.range 64).map fun i => bit (i < n)

/-- Every fuse: the unique identity, MIN_SEQ, REVOKE, DEBUG, the key slots. -/
def fuseBits (f : Fuses) : List Nat :=
  natBits 64 f.uid.toNat ++ thermometer f.minSeq ++ natBits 4 f.revoke.toNat ++ [bit f.debug] ++
    (List.range 4).flatMap fun k => natBits 384 (f.keys.getD k 0).toNat

/-- A list in some order: each element goes to a place among those behind it, which the free values choose. -/
def shuffle (pick : Nat → Nat) (n : Nat) : List Nat → List Nat
  | [] => []
  | a :: l => (shuffle pick (n + 1) l).insertIdx (pick n % (l.length + 1)) a

/-- The fuses in the order in which FUSE_READ shifts them out: all of them, in an order that no rule states (log entry 13). -/
def shiftFuses (f : Fuses) : List Nat := shuffle Config.fuseBit 0 (fuseBits f)

/-- FUSE_PROG blows fuses; a blown fuse stays blown. 0 to 3 a key slot, 4 REVOKE, 5 MIN_SEQ, 6 DEBUG, 7 the identity. -/
def blow (f : Fuses) (which : Nat) (v : BitVec 384) : Fuses :=
  match which with
  | 4 => { f with revoke := f.revoke ||| v.setWidth 4 }
  | 5 => { f with minSeq := max f.minSeq (min v.toNat 64) }
  | 6 => { f with debug := f.debug || v.getLsbD 0 }
  | 7 => { f with uid := f.uid ||| v.setWidth 64 }
  | k => if k < 4 then { f with keys := f.keys.set k (f.keys.getD k 0 ||| v) } else f

/-! ## Commands -/

/-- WS_BYPASS (R540). -/
def execWsBypass (s : State) : Host.Outcome State Fault Refusal := onDev s selectBypass
/-- WS_EXTEST (R541). -/
def execWsExtest (s : State) : Host.Outcome State Fault Refusal := onMem s fun m d => enterTest m d 1
/-- WS_INTEST (R541). -/
def execWsIntest (s : State) : Host.Outcome State Fault Refusal := onMem s fun m d => enterTest m d 2
/-- MEM_TEST (R541). -/
def execMemTest (s : State) : Host.Outcome State Fault Refusal := onMem s fun m d => enterTest m d 3
/-- FUSE_READ (R540). -/
def execFuseRead (s : State) : Host.Outcome State Fault Refusal := onDev s (wrapperPlain · 4 (shiftFuses s.fuses))
/-- FUSE_PROG (R485, R541). -/
def execFuseProg (which : Fin 9) (v : BitVec 384) (s : State) : Host.Outcome State Fault Refusal :=
  let r := enterTest s.dram s.dev 5
  .next { s with fuses := blow s.fuses which.val v, dram := r.1, dev := r.2 }
/-- WRAPPER_RESET (R540). -/
def execWrapperReset (s : State) : Host.Outcome State Fault Refusal := onDev s selectBypass

end Sys2Proof.Machine
end

