-- ==== Sys2Proof/Machine/Dispatch.lean ====
section
/-!
DEFINITION. Which meaning each command has: one arm per command.
-/
namespace Sys2Proof.Machine

/-- The effect of a command on everything but the queue of commands. -/
def exec (i : Instr) (s : State) : Host.Outcome State Fault Refusal :=
  match i with
  | .read h => Sys2Proof.Machine.execRead h s
  | .write h => Sys2Proof.Machine.execWrite h s
  | .writebolt h => Sys2Proof.Machine.execWritebolt h s
  | .zero h => Sys2Proof.Machine.execZero h s
  | .prefetch h => Sys2Proof.Machine.execPrefetch h s
  | .clean h => Sys2Proof.Machine.execClean h s
  | .flush h => Sys2Proof.Machine.execFlush h s
  | .atomicAdd h => Sys2Proof.Machine.execAtomicAdd h s
  | .atomicMax h => Sys2Proof.Machine.execAtomicMax h s
  | .atomicMin h => Sys2Proof.Machine.execAtomicMin h s
  | .atomicSwap h => Sys2Proof.Machine.execAtomicSwap h s
  | .atomicCas h => Sys2Proof.Machine.execAtomicCas h s
  | .contrib h => Sys2Proof.Machine.execContrib h s
  | .tubOpen h => Sys2Proof.Machine.execTubOpen h s
  | .tubAmendSet h => Sys2Proof.Machine.execTubAmendSet h s
  | .tubAmendAdd h => Sys2Proof.Machine.execTubAmendAdd h s
  | .tubAmendSub h => Sys2Proof.Machine.execTubAmendSub h s
  | .tubDrain h => Sys2Proof.Machine.execTubDrain h s
  | .reservedType h ty => Sys2Proof.Machine.execReservedType h ty s
  | .dataBeat port tag be data flow => Sys2Proof.Machine.execDataBeat port tag be data flow s
  | .requestAdmit m => Sys2Proof.Machine.execRequestAdmit m s
  | .creditReturn m => Sys2Proof.Machine.execCreditReturn m s
  | .responseLeave port => Sys2Proof.Machine.execResponseLeave port s
  | .reqMaskSet m => Sys2Proof.Machine.execReqMaskSet m s
  | .reqMaskClear m => Sys2Proof.Machine.execReqMaskClear m s
  | .tileGrant t upset => Sys2Proof.Machine.execTileGrant t upset s
  | .quotaWindowEnd => Sys2Proof.Machine.execQuotaWindowEnd s
  | .pressFillReturn t => Sys2Proof.Machine.execPressFillReturn t s
  | .victimToHamper t => Sys2Proof.Machine.execVictimToHamper t s
  | .dirtyWriteback t => Sys2Proof.Machine.execDirtyWriteback t s
  | .cleanAll => Sys2Proof.Machine.execCleanAll s
  | .flushAll => Sys2Proof.Machine.execFlushAll s
  | .invalidateAll => Sys2Proof.Machine.execInvalidateAll s
  | .maintDone => Sys2Proof.Machine.execMaintDone s
  | .contribStaged => Sys2Proof.Machine.execContribStaged s
  | .keySwitch => Sys2Proof.Machine.execKeySwitch s
  | .batchBegin => Sys2Proof.Machine.execBatchBegin s
  | .contribReduced t => Sys2Proof.Machine.execContribReduced t s
  | .drainDeliver t => Sys2Proof.Machine.execDrainDeliver t s
  | .chunkRelease => Sys2Proof.Machine.execChunkRelease s
  | .leaseRead t => Sys2Proof.Machine.execLeaseRead t s
  | .leaseWriteback t => Sys2Proof.Machine.execLeaseWriteback t s
  | .tubAbortFail tub => Sys2Proof.Machine.execTubAbortFail tub s
  | .tubAbortRelease tub => Sys2Proof.Machine.execTubAbortRelease tub s
  | .straggler tub => Sys2Proof.Machine.execStraggler tub s
  | .numq tub => Sys2Proof.Machine.execNumq tub s
  | .hwmDrain t => Sys2Proof.Machine.execHwmDrain t s
  | .forcedDrain t => Sys2Proof.Machine.execForcedDrain t s
  | .idleDrain t => Sys2Proof.Machine.execIdleDrain t s
  | .drainRoundEnd t => Sys2Proof.Machine.execDrainRoundEnd t s
  | .writeAgeUrgent t => Sys2Proof.Machine.execWriteAgeUrgent t s
  | .readEscalate t bg => Sys2Proof.Machine.execReadEscalate t bg s
  | .columnCommandIssue t at_ => Sys2Proof.Machine.execColumnCommandIssue t at_ s
  | .rowCommandIssue t at_ => Sys2Proof.Machine.execRowCommandIssue t at_ s
  | .rowIdleClose t bank at_ => Sys2Proof.Machine.execRowIdleClose t bank at_ s
  | .powerDownEntry t rank at_ => Sys2Proof.Machine.execPowerDownEntry t rank at_ s
  | .powerDownExit t rank at_ => Sys2Proof.Machine.execPowerDownExit t rank at_ s
  | .lineReadReturn t flipData flipMeta ecc0 ecc1 => Sys2Proof.Machine.execLineReadReturn t flipData flipMeta ecc0 ecc1 s
  | .rebuildDone p => Sys2Proof.Machine.execRebuildDone p s
  | .stainConversion p => Sys2Proof.Machine.execStainConversion p s
  | .reconstructWrite p => Sys2Proof.Machine.execReconstructWrite p s
  | .refreshDue t target at_ => Sys2Proof.Machine.execRefreshDue t target at_ s
  | .refreshRepay t rank at_ => Sys2Proof.Machine.execRefreshRepay t rank at_ s
  | .rfmRequest t bank at_ => Sys2Proof.Machine.execRfmRequest t bank at_ s
  | .tempPoll r => Sys2Proof.Machine.execTempPoll r s
  | .parityReport t hit onRefresh at_ => Sys2Proof.Machine.execParityReport t hit onRefresh at_ s
  | .tileFreeze t => Sys2Proof.Machine.execTileFreeze t s
  | .frzReturn t => Sys2Proof.Machine.execFrzReturn t s
  | .frzKeepOut t => Sys2Proof.Machine.execFrzKeepOut t s
  | .frzReturnAll t => Sys2Proof.Machine.execFrzReturnAll t s
  | .schedCtrlWrite t v => Sys2Proof.Machine.execSchedCtrlWrite t v s
  | .regWindowEnd => Sys2Proof.Machine.execRegWindowEnd s
  | .takeOut t => Sys2Proof.Machine.execTakeOut t s
  | .takeOutLift t slot => Sys2Proof.Machine.execTakeOutLift t slot s
  | .svcReturn t => Sys2Proof.Machine.execSvcReturn t s
  | .svcReturnAll t => Sys2Proof.Machine.execSvcReturnAll t s
  | .takeOutDrainDone t => Sys2Proof.Machine.execTakeOutDrainDone t s
  | .liftReady t => Sys2Proof.Machine.execLiftReady t s
  | .markScanDone t => Sys2Proof.Machine.execMarkScanDone t s
  | .walkBolt p => Sys2Proof.Machine.execWalkBolt p s
  | .channelReturned p => Sys2Proof.Machine.execChannelReturned p s
  | .rinseEntry t => Sys2Proof.Machine.execRinseEntry t s
  | .rinseBoltDone p => Sys2Proof.Machine.execRinseBoltDone p s
  | .patchMoveStart t => Sys2Proof.Machine.execPatchMoveStart t s
  | .patchColumn t => Sys2Proof.Machine.execPatchColumn t s
  | .rowPatched t => Sys2Proof.Machine.execRowPatched t s
  | .wearWindowEnd => Sys2Proof.Machine.execWearWindowEnd s
  | .retirePop => Sys2Proof.Machine.execRetirePop s
  | .retrain t => Sys2Proof.Machine.execRetrain t s
  | .loopNearEnd t => Sys2Proof.Machine.execLoopNearEnd t s
  | .loopFarEnd t => Sys2Proof.Machine.execLoopFarEnd t s
  | .loopStop t => Sys2Proof.Machine.execLoopStop t s
  | .retrainDone t r => Sys2Proof.Machine.execRetrainDone t r s
  | .loopbackBurstEnd t errs at_ => Sys2Proof.Machine.execLoopbackBurstEnd t errs at_ s
  | .zqCalibration t => Sys2Proof.Machine.execZqCalibration t s
  | .readTracking t drift pin => Sys2Proof.Machine.execReadTracking t drift pin s
  | .energySample => Sys2Proof.Machine.execEnergySample s
  | .energyWindowEnd => Sys2Proof.Machine.execEnergyWindowEnd s
  | .pmbusReadDone slot r => Sys2Proof.Machine.execPmbusReadDone slot r s
  | .rateChangeRegion locked => Sys2Proof.Machine.execRateChangeRegion locked s
  | .droopStart => Sys2Proof.Machine.execDroopStart s
  | .droopEnd => Sys2Proof.Machine.execDroopEnd s
  | .rearm => Sys2Proof.Machine.execRearm s
  | .purseGrantWrite w => Sys2Proof.Machine.execPurseGrantWrite w s
  | .opWrite k v => Sys2Proof.Machine.execOpWrite k v s
  | .reqMessage m => Sys2Proof.Machine.execReqMessage m s
  | .reqSeqSkip src => Sys2Proof.Machine.execReqSeqSkip src s
  | .rspMessage m => Sys2Proof.Machine.execRspMessage m s
  | .remoteTimeout => Sys2Proof.Machine.execRemoteTimeout s
  | .hello link modules inst mgr rev => Sys2Proof.Machine.execHello link modules inst mgr rev s
  | .image off words => Sys2Proof.Machine.execImage off words s
  | .verdict src reason => Sys2Proof.Machine.execVerdict src reason s
  | .apply => Sys2Proof.Machine.execApply s
  | .applied src => Sys2Proof.Machine.execApplied src s
  | .regWrite off v => Sys2Proof.Machine.execRegWrite off v s
  | .regAck src off taken => Sys2Proof.Machine.execRegAck src off taken s
  | .heartbeatSend => Sys2Proof.Machine.execHeartbeatSend s
  | .heartbeat seq present toggled => Sys2Proof.Machine.execHeartbeat seq present toggled s
  | .hbAck src seq ready fatal => Sys2Proof.Machine.execHbAck src seq ready fatal s
  | .report src phase point a => Sys2Proof.Machine.execReport src phase point a s
  | .absentSet inst cause => Sys2Proof.Machine.execAbsentSet inst cause s
  | .absentClear inst => Sys2Proof.Machine.execAbsentClear inst s
  | .leave src => Sys2Proof.Machine.execLeave src s
  | .bcastTimeout inst => Sys2Proof.Machine.execBcastTimeout inst s
  | .managerLost => Sys2Proof.Machine.execManagerLost s
  | .linkModuleDown module event => Sys2Proof.Machine.execLinkModuleDown module event s
  | .linkDown loss => Sys2Proof.Machine.execLinkDown loss s
  | .join inst => Sys2Proof.Machine.execJoin inst s
  | .evict inst => Sys2Proof.Machine.execEvict inst s
  | .resetAssert => Sys2Proof.Machine.execResetAssert s
  | .resetDeassert instId mgrSel => Sys2Proof.Machine.execResetDeassert instId mgrSel s
  | .memReset asserted => Sys2Proof.Machine.execMemReset asserted s
  | .imgDataWrite v => Sys2Proof.Machine.execImgDataWrite v s
  | .go => Sys2Proof.Machine.execGo s
  | .patternVerify => Sys2Proof.Machine.execPatternVerify s
  | .patternApply => Sys2Proof.Machine.execPatternApply s
  | .coldStart o => Sys2Proof.Machine.execColdStart o s
  | .warmStart o => Sys2Proof.Machine.execWarmStart o s
  | .orderlyEntry => Sys2Proof.Machine.execOrderlyEntry s
  | .disorderlyEntry => Sys2Proof.Machine.execDisorderlyEntry s
  | .blankClear => Sys2Proof.Machine.execBlankClear s
  | .blankQuery bolt => Sys2Proof.Machine.execBlankQuery bolt s
  | .lintRecordWrite => Sys2Proof.Machine.execLintRecordWrite s
  | .lintTailWrite v => Sys2Proof.Machine.execLintTailWrite v s
  | .tallyClear mask => Sys2Proof.Machine.execTallyClear mask s
  | .tallyFreeze b => Sys2Proof.Machine.execTallyFreeze b s
  | .irqClear n w => Sys2Proof.Machine.execIrqClear n w s
  | .irqSet n v => Sys2Proof.Machine.execIrqSet n v s
  | .rcRead a r => Sys2Proof.Machine.execRcRead a r s
  | .splitLoRead a off => Sys2Proof.Machine.execSplitLoRead a off s
  | .splitLoWrite a off v => Sys2Proof.Machine.execSplitLoWrite a off v s
  | .splitHiWrite a off v => Sys2Proof.Machine.execSplitHiWrite a off v s
  | .registerWrite off w => Sys2Proof.Machine.execRegisterWrite off w s
  | .wsBypass => Sys2Proof.Machine.execWsBypass s
  | .wsExtest => Sys2Proof.Machine.execWsExtest s
  | .wsIntest => Sys2Proof.Machine.execWsIntest s
  | .memTest => Sys2Proof.Machine.execMemTest s
  | .fuseRead => Sys2Proof.Machine.execFuseRead s
  | .fuseProg which v => Sys2Proof.Machine.execFuseProg which v s
  | .wrapperReset => Sys2Proof.Machine.execWrapperReset s
  | .ycpErr write addr wdata par => Sys2Proof.Machine.execYcpErr write addr wdata par s
  | .splitHiRead a off => Sys2Proof.Machine.execSplitHiRead a off s
  | .tallySat n => Sys2Proof.Machine.execTallySat n s
  | .blankClearDone => Sys2Proof.Machine.execBlankClearDone s
  | .messageRelay link m => Sys2Proof.Machine.execMessageRelay link m s
  | .badAttr h aop => Sys2Proof.Machine.execBadAttr h aop s
  | .tubAmendKindReserved h => Sys2Proof.Machine.execTubAmendKindReserved h s

end Sys2Proof.Machine
end

