-- ==== Sys2Proof/WellFormed.lean ====
section
/-!
DEFINITION. Which commands are well formed: those that the world outside the instance, or a unit inside it, can make. A
header of a port is well formed whatever it carries, since the instance answers every header (R119, R121).
-/
namespace Sys2Proof

def isFarTile (t : Fin 320) : Bool := decide (256 ≤ t.val)

/-- Bank coordinates of a tile (R22). -/
def bankFits (t : Fin 320) (bank : BitVec 6) : Bool := decide (bank.toNat < if isFarTile t then 48 else 32)

/-- Registers are 32 bits wide, on offsets that 4 divides (R27). -/
def wordOffset (off : BitVec 24) : Bool := off.toNat % 4 = 0

def noRepeat {α : Type} [DecidableEq α] : List α → Bool
  | [] => true
  | a :: l => !l.contains a && noRepeat l

/-- One reading pair for each near tile at most (R321). -/
def Readings.wellFormed (r : Readings) : Bool := noRepeat (r.near.map fun e => e.1)

/-- Test vectors of the phases BLANK, GEN, CHK, XOR and PATH (R543). -/
def testVectors : Fin 5 → Nat
  | 0 => 6 | 1 => 8 | 2 => 336 | 3 => 17 | 4 => 4

/-- The unit takes part in the phase, and the phase has the vector (R353, R543). -/
def TestFail.wellFormed (f : TestFail) : Bool :=
  decide (f.vector.toNat < testVectors f.phase) && match f.unit with
  | .tile _ => f.phase = 1 || f.phase = 2 || f.phase = 4
  | .press _ => f.phase = 1 || f.phase = 2
  | .panel _ => f.phase = 3
  | .blank => f.phase = 0

/-- Pins of a hem: data, metadata and command pins near, data and metadata pins far (R426, R427). -/
def hemPins (t : Fin 320) : Nat := if isFarTile t then 68 else 292

def Trial.wellFormed (x : Trial) (t : Fin 320) : Bool :=
  match x.pin with
  | some p => decide (p.val < hemPins t)
  | none => true

/-- A hem is trained once, and a unit fails a phase once (R353, R414). -/
def StartOutcome.wellFormed (o : StartOutcome) : Bool :=
  o.temps.wellFormed && noRepeat (o.train.map HemTrial.tile) && o.train.all (fun x => x.trial.wellFormed x.tile) && o.test.all TestFail.wellFormed &&
    noRepeat (o.test.map fun f => (f.unit, f.phase)) &&
    o.ledger.all fun f => bankFits f.tile f.bank && (isFarTile f.tile || (f.ecc0 = .none && f.ecc1 = .none))

/-- Data beats of a REQ message of a type and length (R111, R464). -/
def reqBeatCount (ty : TypeCode) (len : BitVec 7) : Nat :=
  if ty = 1 ∨ ty = 2 ∨ ty = 8 then (len.toNat + 16) / 16 else 1

/-- A message body is whole (R463, R467). -/
def MsgBody.wellFormed : MsgBody → Bool
  | .req _ _ _ ty _ len _ _ _ beats => decide (ty.toNat < 12) && decide (beats.length = reqBeatCount ty len)
  | .rsp _ _ _ data => decide (data.length ≤ 8)
  | .image off ws => off % 224 = 0 && decide (ws.length = 56)
  | .regWrite off _ | .regAck off _ => wordOffset off
  | _ => true

/-- A message goes to another instance. -/
def Msg.wellFormed (m : Msg) : Bool := m.src != m.dst && m.body.wellFormed

def MsgBody.isReq : MsgBody → Bool
  | .req .. => true
  | _ => false
def MsgBody.isRsp : MsgBody → Bool
  | .rsp .. => true
  | _ => false

/-- A tub line holds an accumulator (R195). -/
def Upset.wellFormed : Upset → Bool
  | .tub _ _ n _ _ => n != 0
  | _ => true

/-- Bolts are those of the instance (R77). -/
def Occurrence.wellFormed (x : Occurrence) : Bool := decide (x.bolt.toNat < 62914560)

/-- The command is well formed. -/
def Instr.wellFormed : Instr → Bool
  | .tileGrant _ (some u) => u.wellFormed
  | .rowIdleClose t bank _ => bankFits t bank
  | .powerDownEntry t rank _ | .powerDownExit t rank _ => !isFarTile t || rank = 0
  | .lineReadReturn t _ _ e0 e1 => isFarTile t || (e0 = .none && e1 = .none)
  | .refreshDue t target _ => decide (target.toNat < if isFarTile t then 48 else 2)
  | .refreshRepay t _ _ => !isFarTile t
  | .rfmRequest t bank _ => isFarTile t && bankFits t bank
  | .tempPoll r => r.wellFormed
  | .parityReport t hit _ _ => hit.source != 0 && (!isFarTile t || hit.flips == ⟨0, 0, 0, 0⟩)
  | .retrainDone t r => r.wellFormed t
  | .coldStart o | .warmStart o => o.wellFormed
  | .reqMessage m => m.wellFormed && m.body.isReq
  | .rspMessage m => m.wellFormed && m.body.isRsp
  | .messageRelay _ m => m.wellFormed
  | .hello (.own _) modules _ _ _ => modules != 0
  | .image off words => off.toNat % 224 = 0 && decide (words.length = 56)
  | .rcRead _ r => wordOffset r.off
  | .irqClear _ w => w.met.all Occurrence.wellFormed
  | .regWrite off _ | .regAck _ off _ | .splitLoRead _ off | .splitHiRead _ off
  | .splitLoWrite _ off _ | .splitHiWrite _ off _ | .registerWrite off _ => wordOffset off
  | _ => true

end Sys2Proof
end

