-- ==== Sys2Proof/Certificates/Slice0/Obligations.lean ====
section
/-!
DEFINITION. The statements for the provers, with the words they are written in (Sys2Proof.Claims).
-/

namespace Sys2Proof.Claims

open Sys2Proof.Machine

/-- The command answers a next state of which `P` holds. -/
abbrev Ends (c : Instr) (s : State) (P : State → Prop) : Prop := ∃ t, exec c s = .next t ∧ P t

/-- The command answers a next state that differs from `s` in the instance alone, and `P` holds of its instance: the
memory, the fuses and the commands that wait stay. -/
abbrev EndsDev (c : Instr) (s : State) (P : Dev → Prop) : Prop := ∃ d, exec c s = .next { s with dev := d } ∧ P d

/-- Kind, AOP and header of the commands that present a header on a request port (R111, R114, R236). -/
def request : Instr → Option (Kind × Nat × Header)
  | .read h => some (.read, 0, h)
  | .write h => some (.write, 0, h)
  | .writebolt h => some (.writebolt, 0, h)
  | .zero h => some (.zero, 0, h)
  | .prefetch h => some (.prefetch, 0, h)
  | .clean h => some (.clean, 0, h)
  | .flush h => some (.flush, 0, h)
  | .atomicAdd h => some (.atomic, 0, atomicHeader h 0)
  | .atomicMax h => some (.atomic, 1, atomicHeader h 1)
  | .atomicMin h => some (.atomic, 2, atomicHeader h 2)
  | .atomicSwap h => some (.atomic, 3, atomicHeader h 3)
  | .atomicCas h => some (.atomic, 4, atomicHeader h 4)
  | .contrib h => some (.contrib, 0, h)
  | .tubOpen h => some (.tubOpen, 0, h)
  | .tubAmendSet h => some (.tubAmend, 0, amendHeader h 0)
  | .tubAmendAdd h => some (.tubAmend, 0, amendHeader h 1)
  | .tubAmendSub h => some (.tubAmend, 0, amendHeader h 2)
  | .tubAmendKindReserved h => some (.tubAmend, 0, amendHeader h 3)
  | .tubDrain h => some (.tubDrain, 0, h)
  | .reservedType h _ => some (.reserved, 0, h)
  | .badAttr h aop => some (.atomic, 5 + aop.val, atomicHeader h (5 + aop.val))
  | _ => none

def sectorsOf (h : Header) : Nat := h.len.toNat + 1
/-- Data beats that a header still owes (R109, R111). -/
def owedBy (k : Kind) (h : Header) : Nat := k.reqBeats (sectorsOf h) - 1
def checkOf (k : Kind) (a : Nat) (h : Header) : Option Rsp := frontCheck k a h.addr (sectorsOf h) h.attr

/-- The port takes beats, owes none, and has no transaction with the header's tag. -/
abbrev portFree (d : Dev) (h : Header) : Prop :=
  reqReady d h.port.val = true ∧ (getPort d h.port.val).owing = none ∧ tagOut d h.port.val h.tag = false

/-- The transaction that an accepted header begins (R126). -/
def begun (k : Kind) (a : Nat) (h : Header) : Txn :=
  ⟨.port h.port.val h.tag, h.port.val, k, a, h.addr, sectorsOf h, k.hint (hintOf h.hint), h.attr, [(h.be, h.data)],
    owedBy k h, checkOf k a h, false, 0, false, 0, 0, [], 0, [], false, false, none⟩

/-- What an accepted header does to the instance beside its mark's error bit: the transaction is begun, it waits at the
regulator, and the port is owed its data beats. -/
abbrev accepted (d t : Dev) (k : Kind) (a : Nat) (h : Header) : Prop :=
  let n := h.port.val
  getTxn t d.nextTxn = some (begun k a h) ∧ t.nextTxn = d.nextTxn + 1 ∧
  (∀ i, i ≠ d.nextTxn → getTxn t i = getTxn d i) ∧
  getMaster t n = { getMaster d n with queue := (getMaster d n).queue ++ [d.nextTxn] } ∧
  (∀ m, m ≠ n → getMaster t m = getMaster d m) ∧
  getPort t n = { getPort d n with blocked := false,
                                   owing := if owedBy k h = 0 then none else some (.txn d.nextTxn (owedBy k h)) } ∧
  (∀ m, m ≠ n → getPort t m = getPort d m) ∧
  t.tiles = d.tiles ∧ t.blank = d.blank ∧ t.mangle = d.mangle ∧ t.pins = d.pins ∧ t.boot = d.boot ∧ t.energy = d.energy

end Sys2Proof.Claims

open Sys2Proof Sys2Proof.Machine Sys2Proof.Claims

/-! ## The block -/

/-- A step runs the command at the front of the queue, on the state with the queue's rest. -/
def Obligations.StepRunsFrontCommand : Prop :=
  ∀ (c : Instr) (s : State) (rest : List Instr),
    step { s with pending := c :: rest } = exec c { s with pending := rest }

/-- A command answers a next state and leaves the waiting commands alone, but for a WARM start that R480 does not allow
to follow: that one alone is a fault. R480 says only that its behaviour is undefined; that the model stops there is the
model's choice (log entry 48). No command is refused. -/
def Obligations.OnlyTheUndefinedWarmStartStops : Prop :=
  ∀ (c : Instr) (s : State),
    (∃ t, exec c s = .next t ∧ t.pending = s.pending) ∨
    (∃ o, c = .warmStart o ∧ mayStart s.dev true = true ∧ s.dev.boot.warmOk = false ∧ exec c s = .fault .warmUndefined)

/-- With no command waiting a step is one TCLK (the model's choice, log entry 2): nothing happens while the logic is held
in reset or the core clock does not run; otherwise the cycle count advances by one. What such steps do to a warm entry under way
stands in WarmEntriesReachSelfRefresh. -/
def Obligations.EmptyQueueIsOneCycle : Prop :=
  ∀ s : State, s.pending = [] →
    ((s.dev.pins.rstAsserted = true ∨ s.dev.pins.pllCore = false) → step s = .next s) ∧
    (s.dev.pins.rstAsserted = false → s.dev.pins.pllCore = true →
      ∃ t, step s = .next t ∧ t.dev.cycle = s.dev.cycle + 1 ∧ t.fuses = s.fuses ∧ t.pending = [])

/-- The memory keeps its canonical form in every step: keys strictly rising, each with defined contents. -/
def Obligations.EveryStepKeepsMemoryCanonical : Prop :=
  ∀ s t : State, Memory.wf s.dram = true → step s = .next t → Memory.wf t.dram = true

/-- Reset: no command waits, no line is defined, every register holds its reset value, no port is ready, nothing is
outstanding, dl_ready and dl_sr_done are 0 (R478, R537). The fuses are the model's choice (log entry 4). -/
def Obligations.ResetState : Prop :=
  State.reset.pending = [] ∧ Memory.wf State.reset.dram = true ∧ (∀ k, memGet State.reset.dram k = none) ∧
  (∀ off, rget State.reset.dev off = regReset off) ∧ State.reset.dev.txns = [] ∧ (∀ n, getPort State.reset.dev n = Reset.port) ∧
  (∀ n, reqReady State.reset.dev n = false) ∧ State.reset.dev.pins.ready = false ∧ State.reset.dev.pins.srDone = false ∧
  State.reset.dev.pins.rstAsserted = true

/-- Over any run, fuses only rise: MIN_SEQ never falls, a revoked key slot stays revoked, a blown DEBUG stays blown, and
no bit of a key slot's fuses or of the identity clears. No rollback of the pattern's sequence floor is possible. -/
def Obligations.FusesOnlyRiseOverRuns : Prop :=
  ∀ (n : Nat) (s t : State), core.run n s = .next t →
    s.fuses.minSeq ≤ t.fuses.minSeq ∧ s.fuses.revoke &&& t.fuses.revoke = s.fuses.revoke ∧
    (s.fuses.debug = true → t.fuses.debug = true) ∧ s.fuses.uid &&& t.fuses.uid = s.fuses.uid ∧
    t.fuses.keys.length = s.fuses.keys.length ∧
    (∀ k, (s.fuses.keys.getD k 0) &&& (t.fuses.keys.getD k 0) = s.fuses.keys.getD k 0)

namespace Sys2Proof.Claims

/-- The commands that may change the memory of lines: a column command, a read that returns (the parity line of a DELTA
that waited for it), a freeze, a start, and what ends or abandons the instance. -/
def touchesMemory : Instr → Bool
  | .columnCommandIssue _ _ | .lineReadReturn _ _ _ _ _ | .tileFreeze _ | .resetAssert | .memReset true | .coldStart _
  | .warmStart _ | .disorderlyEntry | .wsExtest | .wsIntest | .memTest | .fuseProg _ _ => true
  | .registerWrite off _ | .splitLoWrite _ off _ | .splitHiWrite _ off _ => off = 0x1018
  | .ycpErr w a _ _ => w && a.toNat * 4 = 0x1018
  | _ => false

end Sys2Proof.Claims

/-- No other command changes a line of memory, and none but FUSE_PROG changes a fuse: no register writes one (R485). -/
def Obligations.OnlyNamedCommandsTouchMemoryAndFuses : Prop :=
  ∀ (c : Instr) (s t : State), exec c s = .next t →
    (touchesMemory c = false → t.dram = s.dram) ∧ ((∀ w v, c ≠ .fuseProg w v) → t.fuses = s.fuses)

/-! ## Words for the panels and the registers -/

namespace Sys2Proof.Claims

/-- Nothing waits in a slice that a settled panel takes up by itself. -/
abbrev idleSlice (s : Slice) : Prop :=
  s.held = [] ∧ s.stalled = none ∧ s.deferred = [] ∧ ∀ m ∈ s.miss, m.state ≠ .zero ∧ m.state ≠ .whole
/-- Nothing waits in a panel: its slices, its gathered bolt operations, its jobs. -/
abbrev idlePanel (d : Dev) (p : Nat) : Prop :=
  (getPanel d p).boltOps = [] ∧ (getPanel d p).jobs = [] ∧ ∀ m, m < 16 → idleSlice (slice d (tileAt d p m))
/-- Every panel is idle. -/
abbrev allIdle (d : Dev) : Prop := ∀ p, p < 20 → idlePanel d p
/-- Inputs of a tile that belong to masked ports (R143). -/
def maskedInputs (d : Dev) (t : Nat) : List (Nat × List Part) := (slice d t).arb.filter fun e => e.1 < 16 && masked d e.1
/-- The arbiter has decided its next grant: the head of an input (R306, R311); of the masked ports' requests no other is left there
(R143). -/
abbrev isGranted (d : Dev) (t m : Nat) (p : Part) (c : Bool) : Prop :=
  (slice d t).decided = some (m, c) ∧ (mgetD [] (slice d t).arb m).head? = some p ∧
  (maskedInputs d t = [] ∨ maskedInputs d t = [(m, [p])])
/-- Every part of every transaction has reached its arbiter input. -/
abbrev allSent (d : Dev) : Prop := ∀ e ∈ d.txns, e.2.unsent = []
/-- The next grant of a tile, decided before, works on a line that stands in way w with a good check (R166, R311). -/
abbrev lineHit (d : Dev) (t m w : Nat) (p : Part) (c : Bool) (x : Txn) : Prop :=
  idleSlice (slice d t) ∧ idlePanel d (panelOf d t) ∧ accepts d t = true ∧ allSent d ∧ isGranted d t m p c ∧
  p.loc.tile = t ∧ lineBusy (slice d t) p.loc p.bolt = false ∧ findWay (slice d t) p.loc = some w ∧
  (wayOf d p.loc w).poison = false ∧ (wayOf d p.loc w).crc = entryCrc (wayOf d p.loc w).data ∧ getTxn d p.txn = some x
/-- It is a READ. -/
abbrev readHit (d : Dev) (t m w : Nat) (p : Part) (c : Bool) (h : Hint) (x : Txn) : Prop := lineHit d t m w p c x ∧ p.op = .read h
/-- The next grant of a tile, decided before, is the sixteenth of a bolt operation, and nothing else waits in the panel (R170,
R350). -/
abbrev lastMember (d : Dev) (t m : Nat) (p : Part) (c : Bool) (o : BoltOp) : Prop :=
  (∀ k, k < 16 → idleSlice (slice d (tileAt d (panelOf d t) k)) ∧ (slice d (tileAt d (panelOf d t) k)).claims = []) ∧
  idleSlice (slice d t) ∧ (getPanel d (panelOf d t)).boltOps = [o] ∧ (getPanel d (panelOf d t)).jobs = [] ∧ accepts d t = true ∧
  allSent d ∧ isGranted d t m p c ∧ p.loc.tile = t ∧ (∀ l ∈ partLocs p, lineMoving (slice d t) l = false) ∧
  o.txn = p.txn ∧ o.bolt = p.bolt ∧ o.stripe.panel = panelOf d t ∧ stripeBolt d o.stripe = o.bolt ∧ o.granted.length = 15 ∧
  d.blank.errs = []
/-- The host driver's access to an offset is served (R533). -/
abbrev hostServed (d : Dev) (off : Nat) : Prop := d.pins.rstPin = false ∧ served d off = true
/-- The staged requests, but for how many of their beats stand in a lane input queue. -/
abbrev queued (d : Dev) : List Staged := d.mangle.queue.map fun e => { e with sent := 0 }
/-- A 32-bit count at a register offset has advanced by n, or stays at all-ones. -/
abbrev counted (d t : Dev) (off n : Nat) : Prop := (rget t off).toNat = min ((rget d off).toNat + n) 0xFFFFFFFF
/-- The event's pending bit is 1 (R514). -/
abbrev isPending (d : Dev) (e : Nat) : Prop := (rget d (irqPend ((e - 0x100) / 32))).getLsbD ((e - 0x100) % 32) = true

end Sys2Proof.Claims

/-! ## Request ports -/

/-- A header that the front end finds correct begins a transaction that waits at the regulator, for each request type;
the port is owed the data beats of R111. A header that fails a check of the port front end is marked with its
answer, begins its transaction all the same, and sets its error bit: BAD_TYPE (3) for a reserved TYPE, BAD_ATTR (4)
for a reserved AOP, BAD_LEN (5) for a length (R119, R121, R126); a bit that is set raises PORT_PROTOCOL (R148), also where it
was 1 already, which is the model's choice (log entry 66). Flow `through` does what `hold` does, and its
port's requests then go on (log entry 5). -/
def Obligations.HeadersBeginTransactions : Prop :=
  (∀ (c : Instr) (k : Kind) (a : Nat) (h : Header) (s : State),
      request c = some (k, a, h) → h.flow = .hold → portFree s.dev h → checkOf k a h = none →
      EndsDev c s fun t => accepted s.dev t k a h ∧ t.regs = s.dev.regs) ∧
  (∀ (c : Instr) (k : Kind) (a : Nat) (h : Header) (s : State),
      request c = some (k, a, h) → h.flow = .hold → portFree s.dev h → checkOf k a h ≠ none →
      EndsDev c s fun t => accepted s.dev t k a h ∧
        (checkOf k a h = some .denied ∨ checkOf k a h = some .length) ∧
        (rget t (0x2040 + 4 * h.port.val)).getLsbD
          (if checkOf k a h = some .length then 5 else if k = .reserved then 3 else 4) = true ∧
        (rget t (irqPend 4)).getLsbD 3 = true) ∧
  (∀ (c c' : Instr) (k : Kind) (a : Nat) (h : Header) (s : State) (d : Dev),
      request c = some (k, a, h) → request c' = some (k, a, { h with flow := .hold }) → portFree s.dev h →
      exec c' s = .next { s with dev := d } → exec c s = .next { s with dev := flowOn d h.port.val h.flow }
)

/-- R139: dl_qp{n}_req_ready is 0 while dl_ready is 0, and while dl_req_mask[n] is 1; no beat transfers then. -/
def Obligations.ReadyIsLowWhileNotReadyOrMasked : Prop :=
  (∀ (d : Dev) (n : Nat), (d.pins.ready = false ∨ d.pins.mask.getLsbD n = true) → reqReady d n = false) ∧
  (∀ (c : Instr) (k : Kind) (a : Nat) (h : Header) (s : State), request c = some (k, a, h) →
    reqReady s.dev h.port.val = false → exec c s = .next s) ∧
  (∀ (p : Fin 16) (tag : BitVec 8) (be : BeatEn) (v : BeatData) (f : Flow) (s : State), reqReady s.dev p.val = false →
    exec (.dataBeat p tag be v f) s = .next s)

/-- A header whose tag is outstanding on its port begins no transaction and sets TAG_REUSE; its data beats are absorbed
(R127). A header that comes while beats are owed leaves the previous request short: it will be answered LENGTH,
DATA_SHORT is set, and the header begins its own transaction (R130). DATA_BEAT: a beat that is owed joins its
transaction (R109); one that is owed to a discarded header is absorbed (R127); one that is not owed sets DATA_EXTRA
and does nothing else (R130). With Flow `through` the port's requests go on once the last beat has come (log entry
5). -/
def Obligations.BeatsGoToTheirRequests : Prop :=
  (∀ (c : Instr) (k : Kind) (a : Nat) (h : Header) (s : State),
      request c = some (k, a, h) → reqReady s.dev h.port.val = true → (getPort s.dev h.port.val).owing = none →
      tagOut s.dev h.port.val h.tag = true →
      EndsDev c s fun t =>
        t.txns = s.dev.txns ∧ t.nextTxn = s.dev.nextTxn ∧ t.reg = s.dev.reg ∧ t.tiles = s.dev.tiles ∧
        (getPort t h.port.val).owing = (if owedBy k h = 0 then none else some (.discarded h.tag (owedBy k h))) ∧
        (rget t (0x2040 + 4 * h.port.val)).getLsbD 0 = true) ∧
  (∀ (c : Instr) (k : Kind) (a : Nat) (h : Header) (id j : Nat) (x : Txn) (s : State),
      request c = some (k, a, h) → h.flow = .hold → reqReady s.dev h.port.val = true →
      (getPort s.dev h.port.val).owing = some (.txn id j) → getTxn s.dev id = some x → id ≠ s.dev.nextTxn →
      tagOut s.dev h.port.val h.tag = false →
      EndsDev c s fun t =>
        getTxn t id = some { x with owed := 0, mark := x.mark.or (some .length) } ∧
        getTxn t s.dev.nextTxn = some (begun k a h) ∧ (rget t (0x2040 + 4 * h.port.val)).getLsbD 1 = true) ∧
  (∀ (p : Fin 16) (tag : BitVec 8) (be : BeatEn) (v : BeatData) (s : State), reqReady s.dev p.val = true →
      (∀ id k x, (getPort s.dev p.val).owing = some (.txn id k) → 1 ≤ k → getTxn s.dev id = some x →
        EndsDev (.dataBeat p tag be v .hold) s fun t =>
          getTxn t id = some { x with beats := x.beats ++ [(be, v)], owed := x.owed - 1 } ∧
          (∀ i, i ≠ id → getTxn t i = getTxn s.dev i) ∧
          (getPort t p.val).owing = (if k = 1 then none else some (.txn id (k - 1))) ∧ t.regs = s.dev.regs) ∧
      (∀ id k d, (getPort s.dev p.val).owing = some (.txn id k) →
        exec (.dataBeat p tag be v .hold) s = .next { s with dev := d } →
        exec (.dataBeat p tag be v .through) s = .next { s with dev := if k ≤ 1 then flowOn d p.val .through else d }) ∧
      (∀ g k f, (getPort s.dev p.val).owing = some (.discarded g k) → 1 ≤ k →
        EndsDev (.dataBeat p tag be v f) s fun t =>
          (getPort t p.val).owing = (if k = 1 then none else some (.discarded g (k - 1))) ∧ t.txns = s.dev.txns ∧
          t.regs = s.dev.regs) ∧
      (∀ f, (getPort s.dev p.val).owing = none →
        EndsDev (.dataBeat p tag be v f) s fun t =>
          t.txns = s.dev.txns ∧ t.ports = s.dev.ports ∧ (rget t (0x2040 + 4 * p.val)).getLsbD 2 = true))

namespace Sys2Proof.Claims

/-- The parts of a memory request that stays here, one for each line, or for each member of a bolt, at the tiles that the fold gives
(R54, R84). -/
def partsOf (d : Dev) (id : Nat) (x : Txn) (r ia : Nat) : List Part :=
  if x.kind = .zero ∨ x.kind = .writebolt then (boltParts d id x r ia).2 else lineParts d id x r ia
/-- The bolt operations of a ZERO or a WRITEBOLT that a panel gathers (R170, R350). -/
def gatheredBy (d : Dev) (id : Nat) (x : Txn) (r ia p : Nat) : List BoltOp :=
  if x.kind = .zero ∨ x.kind = .writebolt then (boltParts d id x r ia).1.filter (fun o => o.stripe.panel = p) else []

end Sys2Proof.Claims

/-- REQUEST_ADMIT of a marked memory request: it takes a credit unless it holds one, is charged one unit of 32 B, and its
answer is complete in the port's buffer with one reserved beat; memory, Press, Blank map and tubs stay (R119, R128, R286). Of an
unmarked one that the fold keeps here: it takes its credit, its reserved beats and its charge, 32 B for a ZERO or an ATOMIC and
32 B for each sector otherwise; its parts carry the master's effective priority and go to the arbiter inputs of their tiles, four to
an input, and the rest wait for room there (R54, R63, R84, R291); one without a part is answered OKAY (R113, R117). -/
def Obligations.MarkedRequestIsAdmittedAndAnswered : Prop :=
  (∀ (n : Fin 16) (id : Nat) (rest : List Nat) (x : Txn) (code : Rsp) (tag : BitVec 8) (s : State),
    (getMaster s.dev n.val).queue = id :: rest → getTxn s.dev id = some x → x.src = .port n.val tag → x.master = n.val →
    x.owed = 0 → x.mark = some code → (code = .denied ∨ code = .length) → x.kind.isTub = false → x.silent = false →
    s.dev.pins.mask.getLsbD n.val = false →
    (x.hasCredit = true ∨ creditOk s.dev n.val = true) → (getPort s.dev n.val).reserved + 1 ≤ 512 →
    EndsDev (.requestAdmit ⟨n.val, by omega⟩) s fun t =>
      (getMaster t n.val).queue = rest ∧
      (getMaster t n.val).held = (getMaster s.dev n.val).held + (if x.hasCredit then 0 else 1) ∧
      (getMaster t n.val).charge = min ((getMaster s.dev n.val).charge + 1) 0xFFFFFFFF ∧
      (getPort t n.val).done = (getPort s.dev n.val).done ++ [(id, 1, ⟨tag, code, [0], [0]⟩)] ∧
      (getPort t n.val).reserved = (getPort s.dev n.val).reserved + 1 ∧
      t.tiles = s.dev.tiles ∧ t.blank = s.dev.blank ∧ t.mangle = s.dev.mangle) ∧
  (∀ (n : Fin 16) (id : Nat) (rest : List Nat) (x : Txn) (tag : BitVec 8) (r ia : Nat) (s : State),
    (getMaster s.dev n.val).queue = id :: rest → getTxn s.dev id = some x → x.src = .port n.val tag → x.master = n.val →
    x.owed = 0 → x.mark = none → x.kind.isTub = false → x.silent = false → 1 ≤ x.sectors →
    s.dev.pins.mask.getLsbD n.val = false → (x.hasCredit = true ∨ creditOk s.dev n.val = true) →
    (getPort s.dev n.val).reserved + max 1 (x.kind.rspBeats x.sectors) ≤ 512 →
    foldCheck s.dev n.val x.kind x.addr x.sectors = .local r ia →
    (∀ e ∈ s.dev.txns, e.2.master = n.val → e.2.unsent = []) → (∀ k, mgetD [] (slice s.dev k).arb n.val = []) →
    let y := { x with prio := effPrio s.dev n.val }
    let parts := partsOf s.dev id y r ia
    let units := if x.kind = .zero ∨ x.kind = .atomic ∨ x.kind = .reserved then 1 else x.sectors
    EndsDev (.requestAdmit ⟨n.val, by omega⟩) s fun t =>
      (getMaster t n.val).queue = rest ∧
      (getMaster t n.val).held = (getMaster s.dev n.val).held + (if x.hasCredit then 0 else 1) ∧
      (getMaster t n.val).charge = min ((getMaster s.dev n.val).charge + units) 0xFFFFFFFF ∧
      (getPort t n.val).reserved = (getPort s.dev n.val).reserved + max 1 (x.kind.rspBeats x.sectors) ∧
      (getPort t n.val).done = (getPort s.dev n.val).done ++
        (if parts = [] then [(id, max 1 (x.kind.rspBeats x.sectors), ⟨tag, .okay, [0], [0]⟩)] else []) ∧
      (parts ≠ [] → ∃ z, getTxn t id = some z ∧ z.left = parts.length ∧ z.admitted = true ∧
        ∀ k, k < 320 → z.unsent.filter (fun p => p.loc.tile = k) = (parts.filter fun p => p.loc.tile = k).drop 4) ∧
      (∀ k, k < 320 → mgetD [] (slice t k).arb n.val = (parts.filter fun p => p.loc.tile = k).take 4 ∧
        (slice t k).sets = (slice s.dev k).sets ∧ chan t k = chan s.dev k) ∧
      (∀ p, p < 20 → (getPanel t p).boltOps = (getPanel s.dev p).boltOps ++ gatheredBy s.dev id y r ia p) ∧
      t.blank = s.dev.blank ∧ t.mangle = s.dev.mangle)

/-- R79: a request that fails a check of the fold unit has no effect on memory, on the Press or on the Blank map, and
neither of its bolts is accessed. -/
def Obligations.RequestThatFailsTheFoldHasNoEffect : Prop :=
  ∀ (m : Fin 24) (id : Nat) (rest : List Nat) (x : Txn) (s : State),
    (getMaster s.dev m.val).queue = id :: rest → getTxn s.dev id = some x → x.mark = none → x.kind.isTub = false →
    (∀ g c, x.src ≠ .m16 g c) → x.src ≠ .unit →
    ((∃ c, foldCheck s.dev x.master x.kind x.addr x.sectors = .answer c) ∨
      (∃ n, foldCheck s.dev x.master x.kind x.addr x.sectors = .deny n)) →
    EndsDev (.requestAdmit m) s fun t => t.tiles = s.dev.tiles ∧ t.blank = s.dev.blank ∧ t.mend = s.dev.mend ∧
      t.panels = s.dev.panels ∧ t.jobs = s.dev.jobs

/-- CREDIT_RETURN: the oldest completion of a master returns its credit (R280). RESPONSE_LEAVE: the oldest complete
response of a port is driven, its reserved beats are free and its transaction is over (R129). dl_req_mask: a rising
bit masks its master at once (R143); for an internal master nothing else happens (R142); a falling bit unmasks it,
and ready stays 0 until the port is quiet (R145). A request of the port that no tile has granted is discarded then: it
leaves every arbiter input, and a silent completion frees its tag, its reserved beats and, with CREDIT_RETURN, its credit;
one that a tile has granted completes there, and its response is not driven either (R143, R312). -/
def Obligations.CreditsResponsesAndMasks : Prop :=
  ((∀ (m : Fin 24) (x : Due) (rest : List Due) (s : State), (getMaster s.dev m.val).due = x :: rest →
      EndsDev (.creditReturn m) s fun t =>
        getMaster t m.val = { getMaster s.dev m.val with due := rest, held := (getMaster s.dev m.val).held - 1 } ∧
        (∀ k, k ≠ m.val → getMaster t k = getMaster s.dev k) ∧ t.txns = s.dev.txns ∧ t.tiles = s.dev.tiles) ∧
    (∀ (p : Fin 16) (id r : Nat) (b : RspBurst) (rest : List (Nat × Nat × RspBurst)) (s : State),
      (getPort s.dev p.val).done = (id, r, b) :: rest →
      EndsDev (.responseLeave p) s fun t =>
        getPort t p.val = { getPort s.dev p.val with done := rest, bus := some b, reserved := (getPort s.dev p.val).reserved - r } ∧
        getTxn t id = none ∧ (∀ i, i ≠ id → getTxn t i = getTxn s.dev i) ∧ t.regs = s.dev.regs ∧ t.tiles = s.dev.tiles)) ∧
  ((∀ (m : Fin 24) (s : State),
      EndsDev (.reqMaskSet m) s fun t => t.pins = { s.dev.pins with mask := s.dev.pins.mask ||| BitVec.ofNat 24 (2 ^ m.val) } ∧
        (16 ≤ m.val → t = { s.dev with pins := t.pins })) ∧
    (∀ (m : Fin 24) (s : State),
      EndsDev (.reqMaskClear m) s fun t => t.pins = { s.dev.pins with mask := s.dev.pins.mask &&& ~~~BitVec.ofNat 24 (2 ^ m.val) } ∧
        t.txns = s.dev.txns ∧ (m.val < 16 → isQuiet s.dev m.val = false → s.dev.pins.mask.getLsbD m.val = true → reqReady t m.val = false))) ∧
  (∀ (m : Fin 16) (id : Nat) (tag : BitVec 8) (x : Txn) (s : State), s.dev.pins.mask.getLsbD m.val = false →
    s.dev.txns = [(id, x)] → x.src = .port m.val tag → x.master = m.val → x.admitted = true → x.fwd = none →
    grantedParts s.dev id = 0 → s.dev.mangle.queue = [] → s.dev.mangle.opening = [] → s.dev.mangle.input = [] →
    (getPort s.dev m.val).done = [] → allIdle s.dev →
    EndsDev (.reqMaskSet ⟨m.val, by omega⟩) s fun t =>
      getTxn t id = none ∧ (getMaster t m.val).due = (getMaster s.dev m.val).due ++ [⟨x.at_, false, 0⟩] ∧
      (getPort t m.val).done = [] ∧ (getPort t m.val).bus = (getPort s.dev m.val).bus ∧
      (getPort t m.val).reserved = (getPort s.dev m.val).reserved - x.reserved ∧
      ∀ k, k < 320 → ∀ e ∈ (slice t k).arb, ∀ p ∈ e.2, p.txn ≠ id) ∧
  (∀ (t : Fin 320) (m w : Nat) (p : Part) (c : Bool) (h : Hint) (n : Fin 16) (tag : BitVec 8) (x : Txn) (s : State),
    s.dev.pins.mask.getLsbD n.val = true → readHit s.dev t.val m w p c h x → x.left = 1 → x.src = .port n.val tag →
    EndsDev (.tileGrant t none) s fun d =>
      getTxn d p.txn = none ∧ (getPort d n.val).done = (getPort s.dev n.val).done ∧
      (getPort d n.val).bus = (getPort s.dev n.val).bus ∧
      (getPort d n.val).reserved = (getPort s.dev n.val).reserved - x.reserved ∧
      (getMaster d x.master).due = (getMaster s.dev x.master).due ++ [⟨x.at_, false, 0⟩])

/-! ## The fold -/

/-- R103: the fold is a bijection in every order. Each row group has one place in the region (panel, bank coordinate,
usable row), and inverting R84 at that place gives the row group back. -/
def Obligations.FoldIsInvertible : Prop :=
  ∀ (order : Fin 4) (r : Fin 3) (g : Nat), g < npOf r.val * nbOf (r.val != 0) * nwOf (r.val != 0) →
    let f := foldGroup order.val (npOf r.val) (nbOf (r.val != 0)) (nwOf (r.val != 0)) g
    f.1 < npOf r.val ∧ f.2.1 < nbOf (r.val != 0) ∧ f.2.2 < nwOf (r.val != 0) ∧
    unfoldGroup order.val (npOf r.val) (nbOf (r.val != 0)) (nwOf (r.val != 0)) f.1 f.2.1 f.2.2 = g

/-- A request goes on to memory only where no bolt it touches is denied to its master: not in the spill region, not in a
lift slot, not by a window (R78, R96 to R101). -/
def Obligations.NoAccessPastADenial : Prop :=
  ∀ (d : Dev) (m : Nat) (k : Kind) (a : BitVec 34) (n r ia : Nat), 1 ≤ n → foldCheck d m k a n = .local r ia →
    denies d m k (boltRange ia n).1 = none ∧ denies d m k (boltRange ia n).2 = none ∧
    regionOf ia = some r ∧ regionOf ((byteAddr a + n * 32 - 1) % 2 ^ 37) = some r ∧ slotOf a = d.boot.inst.toNat

/-! ## Arbiter and Press -/

/-- QUOTA_WINDOW_END: every tile's count restarts, and the new QUOTA and QWIN apply; a QUOTA above 0 masks nothing yet
(R308). A grant that a tile issues in the first TCLK of the window was decided on the window's own count, in the last TCLK before it;
one that is held stands (R311, R312). REG_WINDOW_END: FACTOR is
the deliverable capacity over the sum of the guarantees, at most 1024/1024; charges restart; a new FACTOR and a
missed guarantee are raised (R287, R292, R297, R304). -/
def Obligations.WindowsRestartTheirCounts : Prop :=
  (∀ s : State, s.dev.boot.done = true →
      EndsDev .quotaWindowEnd s fun t =>
        (∀ k, k < 320 → (slice t k).quota = 0 ∧ (slice t k).decided = (slice s.dev k).atWindow) ∧
        ((∀ k, k < 320 → maskedInputs s.dev k = []) → ∀ k,
          (k < 320 → { slice t k with quotaRaised := false } =
            { slice s.dev k with quota := 0, quotaRaised := false, decided := (slice s.dev k).atWindow }) ∧
          chan t k = chan s.dev k ∧ svc t k = svc s.dev k) ∧
        t.reg.quota = rbits s.dev 0x3000 7 0 ∧
        t.reg.qwin = (if rbits s.dev 0x3000 15 8 = 0 then 256 else rbits s.dev 0x3000 15 8) ∧
        (rbits s.dev 0x3000 7 0 ≠ 0 → (∀ k, k < 320 → (slice t k).quotaRaised = false) ∧
          ((∀ k, k < 320 → maskedInputs s.dev k = []) → t.regs = s.dev.regs))) ∧
  (∀ s : State, s.dev.boot.applied = true →
      EndsDev .regWindowEnd s fun d =>
        d.reg.factor = (if guarSum s.dev = 0 then 1024 else min 1024 (deliverable s.dev * 1024 / guarSum s.dev)) ∧
        d.reg.deliver = deliverable s.dev ∧ d.reg.guarSum = guarSum s.dev ∧
        d.reg.window = max 1 (rbits s.dev 0x2100 7 0) ∧
        (∀ m, m < 24 → (getMaster d m).charge = 0 ∧ (getMaster d m).held = (getMaster s.dev m).held ∧
          (getMaster d m).queue = (getMaster s.dev m).queue) ∧
        (d.reg.factor ≠ s.dev.reg.factor → isPending d Ev.GUARANTEE_SCALED) ∧
        (∀ m, m < 24 → missed s.dev m = true → isPending d Ev.GUARANTEE_MISSED ∧ (rget d 0x2130).getLsbD 31 = true) ∧
        d.tiles = s.dev.tiles ∧ d.txns = s.dev.txns)

/-- TILE_GRANT of a tile with no grant decided decides one: the arbiter's choice, which it issues in a later TCLK, and beside it the
choice that holds where a new quota window begins there (R306, R311). A decided grant that the slice does not accept is held, a new
window or not (R312). TILE_GRANT of a READ that hits: the head leaves its input, and its line goes to the transaction; the way keeps its
data and its DIRTY bit unless the hint is LASTUSE (R166, R306, R312). With its last line the response is complete in the port's
buffer, OKAY or POISON, with the data of every line, and its credit goes back (R123, R128). PRESS_FILL_RETURN for a READ with
hint STREAM: the fill's line goes to the transaction, poisoned where the fill is; the miss entry is free and nothing is
allocated (R162, R166). -/
def Obligations.ReadsAreServed : Prop :=
  (∀ (t : Fin 320) (m : Nat) (p : Part) (c : Bool) (s : State),
      idleSlice (slice s.dev t.val) → (slice s.dev t.val).decided = none → choose s.dev t.val = some (m, p, c) →
      maskedInputs s.dev t.val = [] →
      EndsDev (.tileGrant t none) s fun d =>
        (slice d t.val).decided = some (m, c) ∧
        (slice d t.val).atWindow = ((chooseIf (nextSpent s.dev) s.dev t.val).map fun e => (e.1, e.2.2)) ∧ (slice d t.val).arb = (slice s.dev t.val).arb ∧ d.txns = s.dev.txns ∧
        (slice d t.val).quota = (slice s.dev t.val).quota ∧ (slice d t.val).rr = (slice s.dev t.val).rr ∧
        chan d t.val = chan s.dev t.val) ∧
  (∀ (t : Fin 320) (m : Nat) (p : Part) (c : Bool) (s : State),
      idleSlice (slice s.dev t.val) → isGranted s.dev t.val m p c → accepts s.dev t.val = false →
      EndsDev (.tileGrant t none) s fun d =>
        (slice d t.val).decided = some (m, c) ∧ (slice d t.val).atWindow = some (m, c) ∧
        (slice d t.val).arb = (slice s.dev t.val).arb ∧ (slice d t.val).sets = (slice s.dev t.val).sets ∧ d.txns = s.dev.txns) ∧
  (∀ (t : Fin 320) (m w : Nat) (p : Part) (c : Bool) (h : Hint) (x : Txn) (s : State),
      readHit s.dev t.val m w p c h x → 2 ≤ x.left →
      EndsDev (.tileGrant t none) s fun d =>
        mgetD [] (slice d t.val).arb m = (mgetD [] (slice s.dev t.val).arb m).tail ∧
        getTxn d p.txn = some { x with left := x.left - 1, lines := minsert x.lines p.idx ((wayOf s.dev p.loc w).data, false) } ∧
        (∀ i, i ≠ p.txn → getTxn d i = getTxn s.dev i) ∧
        (effHint s.dev p h ≠ .lastuse → (wayOf d p.loc w).data = (wayOf s.dev p.loc w).data ∧
          (wayOf d p.loc w).dirty = (wayOf s.dev p.loc w).dirty) ∧
        (effHint s.dev p h = .lastuse → wayOf d p.loc w = Reset.way) ∧ chan d t.val = chan s.dev t.val) ∧
  (∀ (t : Fin 320) (m w : Nat) (p : Part) (c : Bool) (h : Hint) (n : Fin 16) (tag : BitVec 8) (x : Txn) (s : State),
      readHit s.dev t.val m w p c h x → x.left = 1 → x.src = .port n.val tag → x.silent = false →
      s.dev.pins.mask.getLsbD n.val = false →
      let y := { x with left := 0, lines := minsert x.lines p.idx ((wayOf s.dev p.loc w).data, false) }
      let code : Rsp := if x.poisoned then .poison else .okay
      let a := answerData y code
      EndsDev (.tileGrant t none) s fun d =>
        (getPort d n.val).done = (getPort s.dev n.val).done ++ [(p.txn, x.reserved, ⟨tag, code, a.1, a.2⟩)] ∧
        (getMaster d x.master).due = (getMaster s.dev x.master).due ++ [⟨x.at_, true, 0⟩] ∧
        getTxn d p.txn = some { y with unsent := [] } ∧ (∀ i, i ≠ p.txn → getTxn d i = getTxn s.dev i) ∧
        chan d t.val = chan s.dev t.val) ∧
  (∀ (t : Fin 320) (m : Miss) (rest : List Miss) (p : Part) (v : LineData) (bad : Bool) (x : Txn) (s : State),
      idleSlice (slice s.dev t.val) → idlePanel s.dev (panelOf s.dev t.val) → (slice s.dev t.val).miss = m :: rest →
      m.state = .arrived v bad → m.waiters = [p] → m.loc.tile = t.val → p.loc = m.loc → p.op = .read .stream →
      (∀ o ∈ (slice s.dev t.val).outbox, o.loc ≠ m.loc) → findWay (slice s.dev t.val) m.loc = none → getTxn s.dev p.txn = some x → 2 ≤ x.left →
      EndsDev (.pressFillReturn t) s fun d =>
        (slice d t.val).miss = rest.filter (fun e => e.loc ≠ m.loc) ∧ (slice d t.val).sets = (slice s.dev t.val).sets ∧
        getTxn d p.txn = some { x with left := x.left - 1, poisoned := x.poisoned || bad,
                                       lines := minsert x.lines p.idx (if bad then 0 else v, bad) } ∧
        chan d t.val = chan s.dev t.val)

namespace Sys2Proof.Claims

/-- The tiles of a panel hold its sixteen places, all of its region (R87). -/
abbrev seated (d : Dev) (p : Nat) : Prop := ∀ m, m < 16 →
  tileAt d p m < 320 ∧ panelOf d (tileAt d p m) = p ∧ memberOf d (tileAt d p m) = m ∧ isFar (tileAt d p m) = panelFar p
/-- What member m of a blank bolt takes at one line position with the first dirty line of the bolt: that line, or zeros (R172). -/
def fillLine (d : Dev) (st : Stripe) (o : OutLine) (h m : Nat) : DLine :=
  let mine : Bool := h = st.half && m = memberOf d o.loc.tile
  writeBackLine (stripeDataLoc d { st with half := h } m) (if mine then o.data else 0) (mine && o.poison)
/-- Member m's lines of the zero fill, in their order: its data line of each line position, and its parity line of each where it is
the parity member (R172, R336, R349). -/
def fillOf (d : Dev) (st : Stripe) (o : OutLine) (m : Nat) : List (Loc × DLine) :=
  [0, 1].flatMap fun h => (stripeDataLoc d { st with half := h } m, fillLine d st o h m) ::
    if m = st.parityMember then [(stripeParityLoc d { st with half := h }, xorLines ((List.range 16).map (fillLine d st o h)))] else []

end Sys2Proof.Claims

/-- A dirty line that waits at its slice enters the Hamper of its channel as one DATA entry, coded at its location, or as a
stain where it is poisoned (R164, R171, R345). Its way is then free where it was a victim, and clean where a sweep that
does not invalidate sent it (R179). The first one of a blank bolt triggers the zero fill: every member's Hamper takes FULL entries of
its two data lines, the parity member's of the two parity lines too, zero but for that line, and the bolt is valid (R172, R349). -/
def Obligations.DirtyLineEntersTheHamper : Prop :=
  (∀ (t : Fin 320) (o : OutLine) (st : Stripe) (w : Nat) (s : State),
    idleSlice (slice s.dev t.val) → idlePanel s.dev (panelOf s.dev t.val) → mayCreate s.dev t.val = true →
    (slice s.dev t.val).outbox = [o] → o.loc.tile = t.val → o.waiter = none → roleOf s.dev o.loc = .data st →
    isValid s.dev o.bolt = true → outMembers s.dev st = [] → hamRoom (chan s.dev t.val) 1 = true →
    findWay (slice s.dev t.val) o.loc = some w →
    let e : HEntry := ⟨(chan s.dev t.val).nextId, .data, o.loc.bank, redirect s.dev o.loc, o.loc.col, o.loc.row, o.bolt,
      writeBackLine o.loc o.data o.poison, false, none, false, false, false, false, false⟩
    (o.victim = true → EndsDev (.victimToHamper t) s fun d =>
      (chan d t.val).ham = (chan s.dev t.val).ham ++ [e] ∧ (slice d t.val).outbox = [] ∧ wayOf d o.loc w = Reset.way) ∧
    (o.victim = false → s.dev.maint ≠ 2 → EndsDev (.dirtyWriteback t) s fun d =>
      (chan d t.val).ham = (chan s.dev t.val).ham ++ [e] ∧ (slice d t.val).outbox = [] ∧
      wayOf d o.loc w = { wayOf s.dev o.loc w with dirty := false })) ∧
  (∀ (t : Fin 320) (o : OutLine) (st : Stripe) (w : Nat) (c : Instr) (s : State),
    idleSlice (slice s.dev t.val) → idlePanel s.dev (panelOf s.dev t.val) → mayCreate s.dev t.val = true →
    (slice s.dev t.val).outbox = [o] → o.loc.tile = t.val → o.waiter = none → roleOf s.dev o.loc = .data st →
    seated s.dev st.panel → isFar t.val = panelFar st.panel → o.loc.col < 32 → stripeBolt s.dev st = o.bolt →
    isValid s.dev o.bolt = false → mget s.dev.blank.errs (mapWord o.bolt) = none → outMembers s.dev st = [] →
    (svc s.dev (tileAt s.dev st.panel st.parityMember)).state ≠ .lifting → boltRoom s.dev st = true →
    findWay (slice s.dev t.val) o.loc = some w →
    (c = .victimToHamper t ∧ o.victim = true) ∨ (c = .dirtyWriteback t ∧ o.victim = false ∧ s.dev.maint ≠ 2) →
    EndsDev c s fun d =>
      isValid d o.bolt = true ∧ (∀ b, b ≠ o.bolt → isValid d b = isValid s.dev b) ∧ (slice d t.val).outbox = [] ∧
      wayOf d o.loc w = (if o.victim then Reset.way else { wayOf s.dev o.loc w with dirty := false }) ∧
      ∀ m, m < 16 → let k := tileAt s.dev st.panel m
        ∃ es, (chan d k).ham = (chan s.dev k).ham ++ es ∧ (∀ e ∈ es, e.kind = .full ∧ e.bolt = o.bolt) ∧
          es.map (fun e => ((⟨k, e.bank, e.orow, e.col⟩ : Loc), e.line)) = fillOf s.dev st o m)

/-- A write of DLP_MAINT starts its operation while none runs, INVALIDATE_ALL only while dl_ready is 0; otherwise it is
IGNORED and the operation that runs goes on (R179, R181). MAINT_DONE: BUSY falls once no swept line waits (R180). -/
def Obligations.MaintenanceRunsOnce : Prop :=
  (∀ (c : Instr) (op : Nat) (s : State),
      ((c = .cleanAll ∧ op = 1) ∨ (c = .flushAll ∧ op = 2) ∨ (c = .invalidateAll ∧ op = 3)) → hostServed s.dev 0x6020 →
      (s.dev.maint = 0 → (op = 3 → s.dev.pins.ready = false) →
        EndsDev c s fun t => t.maint = op ∧ t.ycp.rsp = some (0, 0) ∧ t.pins = s.dev.pins ∧ t.cycle = s.dev.cycle) ∧
      ((s.dev.maint ≠ 0 ∨ (op = 3 ∧ s.dev.pins.ready = true)) →
        EndsDev c s fun t => t.maint = s.dev.maint ∧ t.ycp.rsp = some (1, 0) ∧ t.tiles = s.dev.tiles)) ∧
  (∀ s : State, s.dev.maint ≠ 0 →
      (maintIdle s.dev = true → exec .maintDone s = .next { s with dev := { s.dev with maint := 0 } }) ∧
      (maintIdle s.dev = false → exec .maintDone s = .next s))

/-- R174 on the word of n bits at byte `off` of a line: every operation returns the old word; the new word is the sum
modulo 2^n, the larger or the smaller as signed integers, the operand, or the operand where the old word equals the
compare value; MAX and MIN write when the word differs, CAS when the comparison holds, ADD and SWAP always. A WRITE
takes exactly the enabled bytes of a line (R112). TILE_GRANT of a WRITE that hits merges its bytes into the way, which is dirty then,
and its part is done; of an ATOMIC that hits, the way takes the new word where it is written, and the answer is the old one (R166,
R173, R176). A ZERO that its sixteen members have granted leaves its bolt's bit of the Blank map 0, a WRITEBOLT 1 (R170, R350). -/
def Obligations.LinesTakeWordsAndBytes : Prop :=
  (∀ (aop : Fin 5) (wide : Bool) (off : Nat) (opnd cmp : BitVec 64) (x : LineData),
      let n := if wide then 64 else 32
      off * 8 + n ≤ 512 →
      let old := x.toNat / 2 ^ (8 * off) % 2 ^ n
      let v := opnd.toNat % 2 ^ n
      let r := atomicLine aop.val wide off opnd cmp x
      let new := r.2.1.toNat / 2 ^ (8 * off) % 2 ^ n
      r.1 = BitVec.ofNat 64 old ∧
      (aop = 0 → new = (old + v) % 2 ^ n ∧ r.2.2 = true) ∧
      (aop = 1 → signed n new = max (signed n old) (signed n v) ∧ r.2.2 = decide (new ≠ old)) ∧
      (aop = 2 → signed n new = min (signed n old) (signed n v) ∧ r.2.2 = decide (new ≠ old)) ∧
      (aop = 3 → new = v ∧ r.2.2 = true) ∧
      (aop = 4 → new = (if old = cmp.toNat % 2 ^ n then v else old) ∧ r.2.2 = decide (old = cmp.toNat % 2 ^ n))) ∧
  (∀ (old new : LineData) (be : BitVec 64) (i : Nat), i < 64 →
      (mergeLine old new be).extractLsb' (8 * i) 8 =
        if be.getLsbD i then new.extractLsb' (8 * i) 8 else old.extractLsb' (8 * i) 8) ∧
  (∀ (t : Fin 320) (m w : Nat) (p : Part) (c : Bool) (h : Hint) (be : BitVec 64) (v : LineData) (x : Txn) (s : State),
      lineHit s.dev t.val m w p c x → p.op = .write h be v →
      let old := wayOf s.dev p.loc w
      let new := mergeLine old.data v be
      (2 ≤ x.left → EndsDev (.tileGrant t none) s fun d =>
        mgetD [] (slice d t.val).arb m = (mgetD [] (slice s.dev t.val).arb m).tail ∧
        wayOf d p.loc w = { old with data := new, crc := entryCrc new, dirty := true,
                                     keep := old.keep || decide (effHint s.dev p h = .keep) } ∧
        (∀ k, k ≠ w → wayOf d p.loc k = wayOf s.dev p.loc k) ∧ getTxn d p.txn = some { x with left := x.left - 1 } ∧
        (∀ i, i ≠ p.txn → getTxn d i = getTxn s.dev i) ∧ chan d t.val = chan s.dev t.val ∧ d.blank = s.dev.blank) ∧
      (∀ (n : Fin 16) (tag : BitVec 8), x.left = 1 → x.kind = .write → x.src = .port n.val tag → x.silent = false →
        s.dev.pins.mask.getLsbD n.val = false → EndsDev (.tileGrant t none) s fun d =>
          (wayOf d p.loc w).data = new ∧ (wayOf d p.loc w).dirty = true ∧
          (getPort d n.val).done = (getPort s.dev n.val).done ++
            [(p.txn, x.reserved, ⟨tag, if x.poisoned then .poison else .okay, [0], [0]⟩)] ∧
          (getMaster d x.master).due = (getMaster s.dev x.master).due ++ [⟨x.at_, true, 0⟩])) ∧
  (∀ (t : Fin 320) (m w aop off : Nat) (p : Part) (c wide : Bool) (opnd cmp : BitVec 64) (n : Fin 16) (tag : BitVec 8) (x : Txn)
      (s : State),
      lineHit s.dev t.val m w p c x → p.op = .atomic aop wide off opnd cmp → x.left = 1 → x.kind = .atomic →
      x.src = .port n.val tag → x.silent = false → x.poisoned = false → s.dev.pins.mask.getLsbD n.val = false →
      let old := wayOf s.dev p.loc w
      let r := atomicLine aop wide off opnd cmp old.data
      let a := answerData { x with lines := minsert x.lines p.idx (r.1.setWidth 512, false) } .okay
      EndsDev (.tileGrant t none) s fun d =>
        (wayOf d p.loc w).data = (if r.2.2 then r.2.1 else old.data) ∧ (wayOf d p.loc w).dirty = (old.dirty || r.2.2) ∧
        (wayOf d p.loc w).keep = old.keep ∧ (∀ k, k ≠ w → wayOf d p.loc k = wayOf s.dev p.loc k) ∧
        (getPort d n.val).done = (getPort s.dev n.val).done ++ [(p.txn, x.reserved, ⟨tag, .okay, a.1, a.2⟩)] ∧
        (getMaster d x.master).due = (getMaster s.dev x.master).due ++ [⟨x.at_, true, 0⟩] ∧ chan d t.val = chan s.dev t.val) ∧
  (∀ (t : Fin 320) (m : Nat) (p : Part) (c : Bool) (o : BoltOp) (x : Txn) (s : State), lastMember s.dev t.val m p c o →
      p.op = .zeroBolt → o.zero = true → getTxn s.dev p.txn = some x → 17 ≤ x.left →
      EndsDev (.tileGrant t none) s fun d =>
        d.blank.valid = blankDel s.dev.blank.valid p.bolt ∧ (getPanel d (panelOf s.dev t.val)).boltOps = [] ∧
        getTxn d p.txn = some { x with left := x.left - 16 }) ∧
  (∀ (t : Fin 320) (m : Nat) (p : Part) (c : Bool) (h : Hint) (a b : LineData) (o : BoltOp) (s : State),
      lastMember s.dev t.val m p c o → p.op = .writeBolt h a b → o.zero = false → o.hint = h →
      boltRoom s.dev o.stripe = true → (∀ k, k < 16 → mayCreate s.dev (tileAt s.dev (panelOf s.dev t.val) k) = true) →
      (h = .stream ∨ ∀ k, k < 16 → (slice s.dev (tileAt s.dev (panelOf s.dev t.val) k)).sets = []) →
      EndsDev (.tileGrant t none) s fun d =>
        d.blank.valid = blankAdd s.dev.blank.valid p.bolt p.bolt ∧ (getPanel d (panelOf s.dev t.val)).boltOps = [])

/-! ## The Mangle -/

/-- KEY_SWITCH decides for the next key with work, once the current key has none, and beats that have not entered a lane
pipeline return to their key's queue (R214, R218). BATCH_BEGIN enters the key; the batch begins with the first beat that
enters, and lasts BATCH_MAX, at least 64 (R214, R218); a key whose queue holds drains alone becomes current without a batch, which
is the model's choice (log entry 16). DRAIN_DELIVER: the drain is answered OKAY with the rounded elements of
its range; RESULT_OVF joins the tub's flags where a result overflows; the entries stay (R208, R213, R237). -/
def Obligations.KeysSwitchAndDrainsDeliver : Prop :=
  ((∀ (k : Nat) (s : State), s.dev.mangle.next = none → nextKey s.dev = some k → readyKey s.dev s.dev.mangle.key = false →
      EndsDev .keySwitch s fun t =>
        t.mangle = { s.dev.mangle with next := some k, queue := s.dev.mangle.queue.map fun e => { e with sent := e.entered } } ∧
        t.tiles = s.dev.tiles ∧
        rget t 0x800C = BitVec.ofNat 32 (min ((rget s.dev 0x800C).toNat + 1) 0xFFFFFFFF)) ∧
    (∀ (k : Nat) (s : State), s.dev.mangle.next = some k →
      EndsDev .batchBegin s fun t => t.mangle.key = k ∧ t.mangle.next = none ∧
        ((∀ q ∈ s.dev.mangle.queue, q.key = k → q.drain = true ∧ q.sent ≤ q.entered) → t.mangle.batch = none)) ∧
    (∀ (k : Nat) (q : Staged) (s : State), s.dev.mangle.next = some k → s.dev.mangle.queue = [q] → q.key = k → k ≠ s.dev.mangle.key →
      q.drain = false → q.needs = [] → q.sent = q.entered → q.entered < q.entries →
      EndsDev .batchBegin s fun t => t.mangle.batch = some (s.dev.cycle, max 64 (rbits s.dev 0x8000 15 0)) ∧
        ∃ r, t.mangle.queue = [r] ∧ r.txn = q.txn ∧ r.entered = q.entered + 1)) ∧
  (∀ (t : Fin 256) (q : Staged) (x : Txn) (inc : Incarnation) (n : Nat) (tag : BitVec 8) (s : State),
      headAt s.dev t.val true = some q → getTxn s.dev q.txn = some x → getInc s.dev q.gen = some inc → inc.failed = false →
      x.kind = .tubDrain → x.src = .port n tag → x.silent = false → x.poisoned = false → s.dev.pins.mask.getLsbD n = false →
      (∀ f ∈ s.dev.mangle.flaws, f.gen ≠ q.gen) →
      let r := drainSectors inc.op inc.fmt inc.mode inc.wb inc.accs (tubSector x.addr) x.sectors
      let a := answerData { x with lines := drainLines x r.1 } .okay
      EndsDev (.drainDeliver t) s fun d =>
        getInc d q.gen = some { inc with flags := inc.flags ||| (if r.2 then fResult else 0) } ∧
        queued d = (queued s.dev).filter (fun e => e.txn ≠ q.txn) ∧
        (getPort d n).done = (getPort s.dev n).done ++ [(q.txn, x.reserved, ⟨tag, .okay, a.1, a.2⟩)] ∧ d.tiles = s.dev.tiles)

/-- CONTRIB_STAGED: a CONTRIB to an OPEN resident tub that passes the checks of R230 takes one staging entry for each of
its data beats, in its key's queue, and its sectors count towards completion. CONTRIB_REDUCED: those of its elements that no
switch has had written before (R214) go into its tub's entries, its flags become set, it leaves staging and is answered OKAY
(R198, R213, R215). -/
def Obligations.ContributionsAreStagedAndReduced : Prop :=
  (∀ (id : Nat) (x : Txn) (inc : Incarnation) (s : State),
      let i := tubIdOf x.addr
      let t := getTub s.dev i
      s.dev.mangle.input = [id] → getTxn s.dev id = some x → x.kind = .contrib → x.mark = none → t.state = .open_ →
      t.tag = x.attr → rangeOk t (tubSector x.addr) x.sectors = true → getInc s.dev t.gen = some inc → inc.spill = [] →
      stagingUsed s.dev + beatsOf x.sectors ≤ 8192 →
      EndsDev .contribStaged s fun d =>
        d.mangle.input = [] ∧
        queued d = queued s.dev ++ [⟨id, t.gen, keyIndex inc.op inc.fmt inc.mode, inc.home, beatsOf x.sectors,
          s.dev.cycle, false, [], 0, 0, 0⟩] ∧
        getTub d i = { t with sectorsIn := min (t.sectorsIn + x.sectors) (2 ^ 40 - 1) } ∧
        getTxn d id = some x ∧ d.tiles = s.dev.tiles) ∧
  (∀ (t : Fin 256) (q : Staged) (x : Txn) (inc : Incarnation) (n : Nat) (tag : BitVec 8) (s : State),
      headAt s.dev t.val false = some q → getTxn s.dev q.txn = some x → getInc s.dev q.gen = some inc → inc.failed = false →
      x.kind = .contrib → x.src = .port n tag → x.silent = false → x.poisoned = false → s.dev.pins.mask.getLsbD n = false →
      (∀ f ∈ s.dev.mangle.flaws, f.gen ≠ q.gen) →
      let lo := beatCut inc.fmt x.sectors q.written
      let r := accumulate inc.op inc.fmt inc.mode inc.wb inc.accs
        (((elements inc.fmt (tubSector x.addr) x.sectors (sectorData x.beats)).drop lo).take (beatCut inc.fmt x.sectors q.entries - lo))
      EndsDev (.contribReduced t) s fun d =>
        getInc d q.gen = some { inc with accs := r.1, flags := inc.flags ||| r.2 } ∧
        queued d = (queued s.dev).filter (fun e => e.txn ≠ q.txn) ∧
        (getPort d n).done = (getPort s.dev n).done ++ [(q.txn, x.reserved, ⟨tag, .okay, [0], [0]⟩)] ∧ d.tiles = s.dev.tiles)

/-- Under EXACT the result of a tub does not depend on the order of its contributions: two runs over the same contributions
to an entry that end with OVERFLOW clear hold the same A, state and flags, and so drain the same bits (R204). -/
def Obligations.ExactSumIsOrderIndependent : Prop :=
  ∀ (fmt : Nat) (wb : Int) (vs ws : List Val), vs.Perm ws →
    let run (l : List Val) : Acc × NumFlags :=
      l.foldl (fun a v => let r := applyAcc 0 fmt wb a.1 v; (r.1, a.2 ||| r.2)) (initAcc 0 1, 0)
    (run vs).2 &&& fOverflow = 0 → (run ws).2 &&& fOverflow = 0 →
    run vs = run ws ∧ drainElem fmt (drainVal fmt wb (run vs).1) = drainElem fmt (drainVal fmt wb (run ws).1)

/-- R200: under SUM with MODE ARRIVAL an INT8 or INT32 tub accumulates modulo 2^32, with no flag, in any order. -/
def Obligations.IntegerSumWrapsInAnyOrder : Prop :=
  ∀ (fmt : Nat) (wb : Int) (vs ws : List Int), isInt fmt = true → vs.Perm ws →
    let val (v : Int) : Val := .num (decide (v < 0)) v.natAbs 0
    let run (l : List Int) : Acc × NumFlags :=
      l.foldl (fun a v => let r := applyAcc 0 fmt wb a.1 (val v); (r.1, a.2 ||| r.2)) (initAcc 0 0, 0)
    run vs = (.w32 (BitVec.ofInt 32 vs.sum), 0) ∧ run vs = run ws

/-- What stands at Mangle control's input is decided (R226). A TUB_OPEN with a reserved OP or FMT is answered DENIED, one without
EXPECT or SIZE, or of a footprint that no slice holds, LENGTH; one to a tub that is not FREE joins it where tag, key, size class and WB
agree, and is DENIED where they do not; one to a FREE tub opens it at its home tile where chunks are free, opens it spilled where only
the spill region has room, and otherwise leaves it REFUSED (R229, R232, R233), with its EXPECT too, which is the model's choice (log
entry 74). A TUB_AMEND to an OPEN or SPILLED tub sets its EXPECT
and restarts its age; a FREE tub or another tag is DENIED, a FAILED tub POISON, a REFUSED tub OKAY without effect (R230, R236).
TUB_AMEND: SET, ADD and SUB give the new EXPECT where the value is not 0 and the result lies in 1 to 16,777,215; a
reserved KIND gives none (R230, R236). DLG_TUB_ABORT: FAIL makes an OPEN or SPILLED tub FAILED and has no effect in
any other state; RELEASE makes the tub FREE from any state (R245). STRAGGLER is raised once when the age of a tub
that is not FREE has passed its limit, with its first capture (R247). NUMQ shows the state, EXPECT and the sectors
of a tub, sampled and complete in the step of its write (R223, R249; that it is at once is the model's choice, log entry 29). -/
def Obligations.TubsAreAmendedAbortedAndWatched : Prop :=
  (∀ (old dw0 : Nat), old < 2 ^ 24 →
      let v := dw0 % 2 ^ 24
      let kind := dw0 / 2 ^ 30 % 4
      (kind = 0 → amendExpect old dw0 = if v = 0 then none else some v) ∧
      (kind = 1 → amendExpect old dw0 = if v = 0 ∨ 16777215 < old + v then none else some (old + v)) ∧
      (kind = 2 → amendExpect old dw0 = if v = 0 ∨ old ≤ v then none else some (old - v)) ∧
      (kind = 3 → amendExpect old dw0 = none)) ∧
  (∀ (tub : BitVec 16) (s : State), hostServed s.dev 0x8128 →
      ((getTub s.dev tub.toNat).state = .open_ ∨ (getTub s.dev tub.toNat).state = .spilled →
        EndsDev (.tubAbortFail tub) s fun t => getTub t tub.toNat = { getTub s.dev tub.toNat with state := .failed } ∧
          (∀ i, i ≠ tub.toNat → getTub t i = getTub s.dev i) ∧ isPending t Ev.TUB_FAILED ∧ t.ycp.rsp = some (0, 0)) ∧
      ((getTub s.dev tub.toNat).state ≠ .open_ → (getTub s.dev tub.toNat).state ≠ .spilled →
        EndsDev (.tubAbortFail tub) s fun t => t.mangle = s.dev.mangle ∧ t.ycp.rsp = some (0, 0)) ∧
      (EndsDev (.tubAbortRelease tub) s fun t => getTub t tub.toNat = Reset.tub ∧
          (∀ i, i ≠ tub.toNat → getTub t i = getTub s.dev i) ∧ t.ycp.rsp = some (0, 0))) ∧
  ((∀ (tub : BitVec 16) (s : State), (getTub s.dev tub.toNat).state ≠ .free → isAged s.dev (getTub s.dev tub.toNat) = true →
      (getTub s.dev tub.toNat).aged = false →
      EndsDev (.straggler tub) s fun t => getTub t tub.toNat = { getTub s.dev tub.toNat with aged := true } ∧
        isPending t Ev.STRAGGLER ∧ (rget t 0x8120).getLsbD 31 = true ∧
        ((rget s.dev 0x8120).getLsbD 31 = false → rbits t 0x8120 15 0 = tub.toNat)) ∧
    (∀ (tub : BitVec 16) (s : State), hostServed s.dev 0x8020 → (getTub s.dev tub.toNat).expect < 2 ^ 24 →
      EndsDev (.numq tub) s fun t => rbits t 0x8130 31 29 = (getTub s.dev tub.toNat).state.code ∧
        rbits t 0x8134 23 0 = (getTub s.dev tub.toNat).expect ∧
        (rget t 0x8138).toNat = (getTub s.dev tub.toNat).sectorsIn % 2 ^ 32 ∧
        (rget t 0x8024).getLsbD 31 = true ∧ t.mangle = s.dev.mangle ∧ t.ycp.rsp = some (0, 0))) ∧
  (∀ (id : Nat) (x : Txn) (n : Nat) (tag : BitVec 8) (s : State), s.dev.mangle.input = [id] → getTxn s.dev id = some x →
    x.mark = none → x.src = .port n tag → x.silent = false → x.poisoned = false → s.dev.pins.mask.getLsbD n = false →
    let dw (k : Nat) : Nat := (descWord x.beats k).toNat
    let i := tubIdOf x.addr
    let t := getTub s.dev i
    let told (c : Rsp) (d : Dev) : Prop := d.mangle.input = [] ∧
      (getPort d n).done = (getPort s.dev n).done ++ [(id, x.reserved, ⟨tag, c, [0], [0]⟩)]
    let only (c : Rsp) : Prop := EndsDev .contribStaged s fun d => told c d ∧ d.mangle.tubs = s.dev.mangle.tubs
    (x.kind = .tubOpen →
      let op := dw 1 / 16 % 4
      let fmt := dw 1 / 256 % 16
      let mode := if op = 0 then dw 1 / 64 % 2 else 0
      let size := dw 1 % 4
      let expect := dw 0 % 2 ^ 24
      let wb := signed 9 (dw 1 / 65536 % 512)
      let chunks := tubChunks op fmt mode size
      let fits : Prop := keyIndex t.op t.fmt t.mode = keyIndex op fmt mode ∧ t.size = size ∧ (usesWb op mode fmt = true → t.wb = wb)
      let enabled : Bool := (rget s.dev 0x8100).getLsbD 16
      let header (st : TubState) (g : Nat) : Tub :=
        { restartAge s.dev ⟨st, x.attr, op, fmt, mode, wb, size, expect, 0, dw 2 % 65536, 0, 0, false, 0⟩ with gen := g }
      (op = 3 ∨ 12 ≤ fmt → only .denied) ∧
      (op < 3 → fmt < 12 → expect = 0 ∨ size = 0 ∨ tubWays s.dev * 1024 < footprint op fmt mode size → only .length) ∧
      (op < 3 → fmt < 12 → expect ≠ 0 → size ≠ 0 → footprint op fmt mode size ≤ tubWays s.dev * 1024 →
        (t.state ≠ .free → t.tag ≠ x.attr ∨ ¬fits → only .denied) ∧
        (t.state ≠ .free → t.tag = x.attr → fits → only (if t.state = .refused then .refused else .okay)) ∧
        (∀ home, t.state = .free → enabled = true → residentHome s.dev i chunks = some home →
          EndsDev .contribStaged s fun d => told .okay d ∧ getTub d i = header .open_ s.dev.mangle.gen ∧
            (∀ k, k ≠ i → getTub d k = getTub s.dev k) ∧
            mgetD 0 d.mangle.taken home = mgetD 0 s.dev.mangle.taken home + chunks ∧
            ∃ y, getInc d s.dev.mangle.gen = some y ∧ y.home = home ∧ y.spill = []) ∧
        (t.state = .free → enabled = true → residentHome s.dev i chunks = none → chunks ≤ spillFree s.dev →
          EndsDev .contribStaged s fun d => getTub d i = header .spilled s.dev.mangle.gen ∧
            (∀ k, k ≠ i → getTub d k = getTub s.dev k) ∧ (getPort d n).done = (getPort s.dev n).done ∧
            d.mangle.opening = s.dev.mangle.opening ++ [(id, chunks)] ∧ isPending d Ev.TUB_SPILL) ∧
        (t.state = .free → enabled = false ∨ (residentHome s.dev i chunks = none ∧ spillFree s.dev < chunks) →
          EndsDev .contribStaged s fun d => told .refused d ∧ getTub d i = header .refused 0 ∧
            (∀ k, k ≠ i → getTub d k = getTub s.dev k) ∧ isPending d Ev.TUB_REFUSED ∧ counted s.dev d 0x8118 1))) ∧
    (x.kind = .tubAmend →
      (t.state = .free ∨ t.tag ≠ x.attr → only .denied) ∧
      (t.state ≠ .free → t.tag = x.attr → amendExpect t.expect (dw 0) = none → only .length) ∧
      (∀ e, t.tag = x.attr → amendExpect t.expect (dw 0) = some e →
        (t.state = .refused → only .okay) ∧ (t.state = .failed → only .poison) ∧
        (t.state = .open_ ∨ t.state = .spilled → EndsDev .contribStaged s fun d => told .okay d ∧
          getTub d i = restartAge s.dev { t with expect := e } ∧ ∀ k, k ≠ i → getTub d k = getTub s.dev k))))

/-- CHUNK_RELEASE frees the resident chunks of a freed tub whose requests have completed (R239). LEASE_READ makes M16 read
a wanted chunk of a spilled tub, 4 KiB, into a free lease chunk (R240). LEASE_WRITEBACK makes M16 write back the only idle
lease chunk, with one WRITEBOLT of two bolts, once no lease chunk is free (R241); one that nothing will read again, because its tub
has failed or is freed with no request left on it, is free at once without a write-back, which is the model's choice (log entry 16). -/
def Obligations.ChunksAreReleasedAndLeased : Prop :=
  (∀ (g : Nat) (x : Incarnation) (s : State),
    s.dev.mangle.incs.find? (fun e => e.2.freed && !(s.dev.mangle.queue.any fun q => q.gen = e.1) && !m16Busy s.dev e.1) =
      some (g, x) → x.spill = [] →
    EndsDev .chunkRelease s fun d => getInc d g = none ∧
      mgetD 0 d.mangle.taken x.home = mgetD 0 s.dev.mangle.taken x.home - x.chunks ∧
      (∀ h, h ≠ x.home → mgetD 0 d.mangle.taken h = mgetD 0 s.dev.mangle.taken h) ∧ d.tiles = s.dev.tiles) ∧
  (∀ (t : Fin 256) (g c : Nat) (x : Incarnation) (s : State), wanted s.dev t.val = some (g, c) → getInc s.dev g = some x →
    (mgetD [] s.dev.mangle.leases t.val).length < 16 →
    EndsDev (.leaseRead t) s fun d =>
      mgetD [] d.mangle.leases t.val = mgetD [] s.dev.mangle.leases t.val ++ [⟨g, c, s.dev.cycle, 0⟩] ∧
      (∃ y, getTxn d s.dev.nextTxn = some y ∧ y.kind = .read ∧ y.master = 16 ∧ y.sectors = 128 ∧ y.src = .m16 g c ∧
        y.addr = chunkAddr s.dev (x.spill.getD c 0)) ∧
      (getMaster d 16).queue = (getMaster s.dev 16).queue ++ [s.dev.nextTxn]) ∧
  (∀ (t : Fin 256) (l : Lease) (x : Incarnation) (s : State), (wanted s.dev t.val).isSome = true →
    16 ≤ (mgetD [] s.dev.mangle.leases t.val).length →
    (mgetD [] s.dev.mangle.leases t.val).filter (leaseIdle s.dev t.val) = [l] → getInc s.dev l.gen = some x →
    isSpent s.dev l = false →
    EndsDev (.leaseWriteback t) s fun d =>
      mgetD [] d.mangle.leases t.val =
        (mgetD [] s.dev.mangle.leases t.val).map (fun e => if e = l then { e with phase := 2 } else e) ∧
      (∃ y, getTxn d s.dev.nextTxn = some y ∧ y.kind = .writebolt ∧ y.master = 16 ∧ y.sectors = 128 ∧
        y.hint = .none ∧ y.addr = chunkAddr s.dev (x.spill.getD l.chunk 0)) ∧
      (getMaster d 16).queue = (getMaster s.dev 16).queue ++ [s.dev.nextTxn]) ∧
  (∀ (t : Fin 256) (l : Lease) (s : State), (wanted s.dev t.val).isSome = true →
    16 ≤ (mgetD [] s.dev.mangle.leases t.val).length →
    (mgetD [] s.dev.mangle.leases t.val).filter (leaseIdle s.dev t.val) = [l] → isSpent s.dev l = true →
    EndsDev (.leaseWriteback t) s fun d =>
      mgetD [] d.mangle.leases t.val = (mgetD [] s.dev.mangle.leases t.val).erase l ∧ d.txns = s.dev.txns ∧
      d.mangle.queue = s.dev.mangle.queue ∧ d.reg = s.dev.reg)

/-! ## Words for the channels -/

namespace Sys2Proof.Claims

/-- Entries that a round may take, in the order of R261: urgent ones, those of an open row, the others; each oldest first. -/
def roundOrder (c : Chan) : List HEntry :=
  let es := c.ham.filter (roundable c)
  let isOpen (e : HEntry) : Bool := (getBank c e.bank).openRow = some e.row
  es.filter HEntry.urgent ++ (es.filter fun e => !e.urgent && isOpen e) ++ es.filter fun e => !e.urgent && !isOpen e

/-- The channel is in a mode, with a round of at most 16 entries of a list; its Hamper is as it was. -/
abbrev inRound (d t : Dev) (n : Nat) (m : Mode) (es : List HEntry) : Prop :=
  (chan t n).mode = m ∧ (chan t n).round = (es.take 16).map HEntry.id ∧ (chan t n).ham = (chan d n).ham

/-- The panel runs one job and has nothing else waiting. -/
abbrev oneJob (d : Dev) (p id : Nat) : Prop :=
  (getPanel d p).boltOps = [] ∧ (getPanel d p).jobs = [id] ∧ ∀ m, m < 16 → idleSlice (slice d (tileAt d p m))

/-- Transaction n is M17's request for an access of a line (R58). -/
abbrev asked (d : Dev) (n : Nat) (u : UnitOp) (l : Loc) : Prop :=
  ∃ y p, getTxn d n = some y ∧ y.src = .unit ∧ y.master = 17 ∧ y.unsent = [p] ∧ p.loc = l ∧ p.op = .unit u
/-- It is one for the FULL write of a line for a job (R58, R250, R372). -/
abbrev askedPut (d : Dev) (n : Nat) (l : Loc) (x : DLine) (job : Nat) : Prop := asked d n (.put .full x false (some job)) l

/-- The channel holds nothing, and no write of its last ones stands in an alert window. -/
abbrev bareChan (c : Chan) : Prop :=
  c.rq = [] ∧ c.bg = none ∧ c.ham = [] ∧ c.fly = [] ∧ c.awaiting = [] ∧ c.recent = [] ∧ c.resv = []

/-- What a line of a channel holds: nothing that is defined where its bolt's word of the Blank map was lost (R351). -/
def lineOf (s : State) (t bank orow row col : Nat) : Option DLine :=
  if isLost s.dev (lineBolt s.dev ⟨t, bank, orow, col⟩) (lineKey t bank row col) then none
  else memGet s.dram (lineKey t bank row col)

/-- M21's TRAIN section of the tile has not been written (R496). -/
abbrev trainWaits (d : Dev) (t : Nat) : Bool := (svc d t).led.any fun j => j.off = 0x40
/-- M21 asks for the writes of the TRAIN section where it waits, and for nothing otherwise. -/
abbrev resumesTrain (d u : Dev) (t : Nat) : Prop :=
  (trainWaits d t = true → trainWaits u t = true ∧ (getMaster u 21).queue.length = (getMaster d 21).queue.length + 63) ∧
  (trainWaits d t = false → (svc u t).led = (svc d t).led ∧ (getMaster u 21).queue = (getMaster d 21).queue)

/-- The host driver's write was taken (OKAY) or had no effect (IGNORED), R530. -/
abbrev okay (t : Dev) : Prop := t.ycp.rsp = some (0, 0)
abbrev ignored (t : Dev) : Prop := t.ycp.rsp = some (1, 0)

end Sys2Proof.Claims

/-! ## The channel scheduler -/

/-- A drain starts in READ mode, where its condition holds and none that ranks above it: HWM at the high mark, FORCED
with an urgent entry, IDLE with no read waiting (R259). Its round is at most 16 entries in the order of R261, FORCED
urgent ones only. At the end of a round the channel takes the next round of its drain, a FORCED or IDLE drain goes on as an HWM drain
at the high mark and an IDLE drain as a FORCED one with an urgent entry, or the drain ends in READ mode: HWM at the low mark, FORCED
with no urgent entry left, IDLE with the Hamper empty or a read waiting (R259, R261). That a round takes the older alone of two
entries of one line is the model's choice (log entry 81). Rounds are
stated of a channel whose entries need no reservation. WRITE_AGE_URGENT makes the oldest entry that is not urgent
urgent (R260). READ_ESCALATE makes the oldest read entry that has not aged, one that waits for a rebuild slot among them, or the BG
entry, count as priority 7, and counts it where that raises its priority (R262, R367). -/
def Obligations.DrainsTakeTheirRounds : Prop :=
  (∀ (t : Fin 320) (s : State),
      let c := chan s.dev t.val
      let order := roundOrder c
      issues s.dev t.val = true → (∀ e ∈ c.ham, roundable c e = true → e.kind = .full) → order ≠ [] →
      (c.mode = .read → hwm s.dev t.val ≤ c.ham.length →
        EndsDev (.hwmDrain t) s fun d => inRound s.dev d t.val .hwm order) ∧
      (c.mode = .read → c.ham.length < hwm s.dev t.val → order.filter HEntry.urgent ≠ [] →
        EndsDev (.forcedDrain t) s fun d => inRound s.dev d t.val .forced (order.filter HEntry.urgent)) ∧
      (c.mode = .read → c.ham.length < hwm s.dev t.val → hasUrgent c = false → readIdle s.dev t.val = true →
        EndsDev (.idleDrain t) s fun d => inRound s.dev d t.val .idle order) ∧
      (c.round = [] → (c.mode = .hwm ∧ lwm s.dev t.val < c.ham.length) ∨
          ((c.mode = .forced ∨ c.mode = .idle) ∧ hwm s.dev t.val ≤ c.ham.length) →
        EndsDev (.drainRoundEnd t) s fun d => inRound s.dev d t.val .hwm order) ∧
      (c.round = [] → c.mode = .forced ∨ c.mode = .idle → c.ham.length < hwm s.dev t.val → order.filter HEntry.urgent ≠ [] →
        EndsDev (.drainRoundEnd t) s fun d => inRound s.dev d t.val .forced (order.filter HEntry.urgent)) ∧
      (c.round = [] → c.mode = .idle → c.ham.length < hwm s.dev t.val → hasUrgent c = false → readIdle s.dev t.val = true →
        EndsDev (.drainRoundEnd t) s fun d => inRound s.dev d t.val .idle order)) ∧
  (∀ (t : Fin 320) (s : State),
      let c := chan s.dev t.val
      issues s.dev t.val = true → c.round = [] →
      (c.mode = .hwm ∧ c.ham.length ≤ lwm s.dev t.val) ∨
        (c.mode = .forced ∧ c.ham.length < hwm s.dev t.val ∧ hasUrgent c = false) ∨
        (c.mode = .idle ∧ c.ham.length < hwm s.dev t.val ∧ hasUrgent c = false ∧
          (c.ham = [] ∨ readIdle s.dev t.val = false)) →
      EndsDev (.drainRoundEnd t) s fun d => inRound s.dev d t.val .read []) ∧
  ((∀ (t : Fin 320) (pre post : List HEntry) (x : HEntry) (s : State), (chan s.dev t.val).ham = pre ++ x :: post →
      (∀ e ∈ pre, e.urgent = true) → x.urgent = false → ((pre ++ x :: post).map HEntry.id).Nodup →
      EndsDev (.writeAgeUrgent t) s fun d =>
        chan d t.val = { chan s.dev t.val with ham := pre ++ { x with urgent := true } :: post } ∧ d.regs = s.dev.regs) ∧
    (∀ (t : Fin 320) (pre post : List REntry) (x : REntry) (s : State), (chan s.dev t.val).rq = pre ++ x :: post →
      (∀ e ∈ pre, e.aged = true) → x.aged = false → ((pre ++ x :: post).map REntry.id).Nodup →
      (∀ w ∈ slotWaiters s.dev t.val, w.aged = true ∨ x.id < w.born) →
      EndsDev (.readEscalate t false) s fun d =>
        chan d t.val = { chan s.dev t.val with rq := pre ++ { x with aged := true } :: post } ∧
        (if readPrio s.dev t.val x = 7 then d.regs = s.dev.regs else counted s.dev d (tileOff t.val 0x01C) 1)) ∧
    (∀ (t : Fin 320) (w : SlotWait) (j : Job) (s : State), slotWaiters s.dev t.val = [w] → w.aged = false →
      getJob s.dev w.job = some j → (∀ e ∈ (chan s.dev t.val).rq, e.aged = true ∨ w.born ≤ e.id) →
      EndsDev (.readEscalate t false) s fun d =>
        getJob d w.job = some { j with aged := true } ∧ d.tiles = s.dev.tiles ∧
        (if w.prio = 7 then d.regs = s.dev.regs else counted s.dev d (tileOff t.val 0x01C) 1)) ∧
    (∀ (t : Fin 320) (x : REntry) (s : State), (chan s.dev t.val).bg = some x → x.aged = false →
      EndsDev (.readEscalate t true) s fun d =>
        chan d t.val = { chan s.dev t.val with bg := some { x with aged := true } } ∧
        (if readPrio s.dev t.val x = 7 then d.regs = s.dev.regs else counted s.dev d (tileOff t.val 0x01C) 1)))

/-- A read command sends what its line holds on its way back and leaves memory alone; a line of a bolt whose Blank word was
lost holds nothing that is defined (R351). It takes the next column of its entry, which leaves its queue, or the background slot with
its last column (R250, R263). A round first reads the old lines of its DATA and DELTA entries, which stay in the Hamper until their
writes (R255, R261). A write command of a round writes
its entry's line, a DELTA the old parity line XOR the delta, and no other line of memory; the entry leaves the Hamper
(R250, R255, R261, R263). -/
def Obligations.ColumnCommandsTouchOneLine : Prop :=
  (∀ (t : Fin 320) (at_ col : Nat) (e : REntry) (s : State), (chan s.dev t.val).mode = .read → (chan s.dev t.val).tasks = [] →
    (rankedReads s.dev t.val).find? (fun e => colOk s.dev t.val e.bank (nextRow (chan s.dev t.val) e) false at_) = some e →
    nextCol (chan s.dev t.val) e = some col →
    EndsDev (.columnCommandIssue t at_) s fun d =>
      (∃ f, (chan d t.val).fly = (chan s.dev t.val).fly ++ [f] ∧
        f.owner = (match e.kind, e.owner with
          | .bg, .job j n => .job j (n + 32 * (col % 2))
          | _, o => o) ∧
        f.bank = e.bank ∧ f.row = e.rowOf col ∧ f.col = col ∧ f.last = decide (e.cols.length = 1) ∧
        f.content = lineOf s t.val e.bank e.orow (e.rowOf col) col) ∧
      (chan d t.val).rq = (chan s.dev t.val).rq.filter (fun x => x.id ≠ e.id) ∧
      (e.kind = .bg → (chan s.dev t.val).bg = some e →
        (chan d t.val).bg = if e.cols.length ≤ 1 then none else some { e with cols := e.cols.erase col }) ∧
      (chan d t.val).ham = (chan s.dev t.val).ham ∧ ∀ k, slice d k = slice s.dev k) ∧
  (∀ (t : Fin 320) (at_ : Nat) (e : HEntry) (rest : List HEntry) (s : State), (chan s.dev t.val).mode ≠ .read →
    (chan s.dev t.val).tasks = [] → roundReads (chan s.dev t.val) = e :: rest → colOk s.dev t.val e.bank e.row false at_ = true →
    EndsDev (.columnCommandIssue t at_) s fun d =>
      (∃ f, (chan d t.val).fly = (chan s.dev t.val).fly ++ [f] ∧ f.owner = .drain t.val e.id ∧ f.bank = e.bank ∧ f.row = e.row ∧
        f.col = e.col ∧ f.content = lineOf s t.val e.bank e.orow e.row e.col) ∧
      (chan d t.val).ham = updWhere (fun x => x.id = e.id) (fun x => { x with drained := true }) (chan s.dev t.val).ham ∧
      (chan d t.val).round = (chan s.dev t.val).round ∧ (chan d t.val).rq = (chan s.dev t.val).rq ∧
      ∀ k, slice d k = slice s.dev k) ∧
  (∀ (t : Fin 320) (at_ : Nat) (e : HEntry) (rest : List HEntry) (x : DLine) (s : State),
    (chan s.dev t.val).mode ≠ .read → (chan s.dev t.val).tasks = [] → roundReads (chan s.dev t.val) = [] → roundAll (chan s.dev t.val) = e :: rest →
    colOk s.dev t.val e.bank e.row true at_ = true → writtenLine e = some x →
    Ends (.columnCommandIssue t at_) s fun u =>
      memGet u.dram (lineKey t.val e.bank e.row e.col) = some x ∧
      (∀ k, k ≠ lineKey t.val e.bank e.row e.col → memGet u.dram k = memGet s.dram k) ∧
      u.fuses = s.fuses ∧ u.pending = s.pending ∧
      (e.verify = false → idlePanel s.dev (panelOf s.dev t.val) →
        (chan u.dev t.val).ham = (chan s.dev t.val).ham.filter (fun y => y.id ≠ e.id) ∧
        (chan u.dev t.val).rq = (chan s.dev t.val).rq))

/-- Row commands: an activate opens the row of the first read entry in a closed bank (R263); an idle row is closed (R265);
a trained rank with nothing to do, which owes no refresh, enters power-down, and leaves it for an entry or a refresh, an
owed one too (R269, R270, R327, R481). -/
def Obligations.RowCommandsMoveBanksAndRanks : Prop :=
  (∀ (t : Fin 320) (at_ : Nat) (e : REntry) (es : List REntry) (s : State), refreshStep s.dev t.val at_ = none →
    (chan s.dev t.val).mode = .read → rankedReads s.dev t.val = e :: es →
    (getBank (chan s.dev t.val) e.bank).openRow = none → actOk s.dev t.val e.bank at_ = true →
    EndsDev (.rowCommandIssue t at_) s fun d =>
      (getBank (chan d t.val) e.bank).openRow = some (nextRow (chan s.dev t.val) e) ∧ (getBank (chan d t.val) e.bank).actAt = some at_ ∧
      (∀ b, b ≠ e.bank → getBank (chan d t.val) b = getBank (chan s.dev t.val) b) ∧
      (chan d t.val).rq = (chan s.dev t.val).rq ∧ (chan d t.val).ham = (chan s.dev t.val).ham) ∧
  (∀ (t : Fin 320) (bank : BitVec 6) (at_ r : Nat) (s : State), (getBank (chan s.dev t.val) bank.toNat).openRow = some r →
    rbits s.dev (tileOff t.val 0x008) 15 8 ≠ 0 → rowWanted (chan s.dev t.val) bank.toNat r = false →
    issues s.dev t.val = true → openTo s.dev t.val at_ = true → preOk s.dev t.val bank.toNat at_ = true →
    EndsDev (.rowIdleClose t bank at_) s fun d =>
      (getBank (chan d t.val) bank.toNat).openRow = none ∧ (getBank (chan d t.val) bank.toNat).preAt = some at_ ∧
      (∀ b, b ≠ bank.toNat → getBank (chan d t.val) b = getBank (chan s.dev t.val) b) ∧ d.regs = s.dev.regs) ∧
  (∀ (t : Fin 320) (r : Fin 2) (at_ : Nat) (s : State), (ranksOf t.val).contains r.val = true →
    rbits s.dev (tileOff t.val 0x00C) 15 0 ≠ 0 → rankWanted s.dev t.val r.val = false →
    refreshPending (chan s.dev t.val) t.val r.val = false → issues s.dev t.val = true → openTo s.dev t.val at_ = true →
    isFrozen s.dev t.val = false → scheduleRuns s.dev t.val r.val = true → s.dev.pins.ck = true →
    owed (chan s.dev t.val) r.val = 0 → (∀ b ∈ banksOf t.val r.val, (getBank (chan s.dev t.val) b).openRow = none ∧ (getBank (chan s.dev t.val) b).busyTo ≤ at_) →
    rankUp (getRank (chan s.dev t.val) r.val) (timing s.dev t.val) at_ = true →
    slotFree (chan s.dev t.val) true (safeRank s.dev t.val r.val) at_ = true →
    EndsDev (.powerDownEntry t r at_) s fun d =>
      getRank (chan d t.val) r.val = { getRank (chan s.dev t.val) r.val with down := true, downAt := at_ } ∧
      d.regs = s.dev.regs) ∧
  (∀ (t : Fin 320) (r : Fin 2) (at_ : Nat) (s : State), (getRank (chan s.dev t.val) r.val).down = true →
    (refreshPending (chan s.dev t.val) t.val r.val = true ∨ repays s.dev t.val r.val = true ∨
      (rankWanted s.dev t.val r.val = true ∧ issues s.dev t.val = true)) →
    (getRank (chan s.dev t.val) r.val).downAt + (timing s.dev t.val).pd ≤ at_ →
    slotFree (chan s.dev t.val) true (safeRank s.dev t.val r.val) at_ = true →
    EndsDev (.powerDownExit t r at_) s fun d =>
      getRank (chan d t.val) r.val = { getRank (chan s.dev t.val) r.val with down := false, upAt := some at_ } ∧
      d.regs = s.dev.regs)

/-- LINE_READ_RETURN of a fill: a valid line that reads GOOD reaches its miss entry with its data; a stain reaches it as
poison and is counted (R337, R339, R344). -/
def Obligations.LineReturnsToItsMiss : Prop :=
  ∀ (t : Fin 320) (f : Fly) (rest : List Fly) (x : DLine) (st : Stripe) (s : State),
    let l : Loc := ⟨t.val, f.bank, f.orow, f.col⟩
    (chan s.dev t.val).fly = f :: rest → (chan s.dev t.val).alert = none → f.owner = .miss l → f.master = none →
    f.content = some x → roleOf s.dev l = .data st → isValid s.dev (stripeBolt s.dev st) = true →
    mget s.dev.lastUse (lineKey l.tile l.bank l.row l.col) = none → idlePanel s.dev (panelOf s.dev t.val) →
    (svc s.dev t.val).state ≠ .lifting → (checkLine l x false = .good → EndsDev (.lineReadReturn t 0 0 .none .none) s fun d =>
      (chan d t.val).fly = rest ∧ d.regs = s.dev.regs ∧
      (slice d t.val).miss = updWhere (fun m => m.loc = l) (fun m => { m with state := .arrived x.data false })
        (slice s.dev t.val).miss) ∧
    (checkLine l x false = .stain → EndsDev (.lineReadReturn t 0 0 .none .none) s fun d =>
      (chan d t.val).fly = rest ∧ counted s.dev d (tileOff t.val 0x20C) 1 ∧
      (slice d t.val).miss = updWhere (fun m => m.loc = l) (fun m => { m with state := .arrived 0 true })
        (slice s.dev t.val).miss)

/-! ## Integrity -/

/-- The line check: a coded line is GOOD at its location, a stain is a STAIN there, an uncorrected error of the stack
fails it, and one flipped bit anywhere in the data or in the code of a GOOD line fails it (R335, R337, R341). -/
def Obligations.OneFlippedBitFailsTheLine : Prop :=
  ∀ (l : Loc) (x : LineData),
    checkLine l (coded l x) false = .good ∧ checkLine l (stainAt l) false = .stain ∧
    (∀ y, checkLine l y true = .fail) ∧
    (∀ i, i < 512 → checkLine l ⟨x ^^^ BitVec.twoPow 512 i, (coded l x).code⟩ false = .fail) ∧
    (∀ i, i < 32 → checkLine l ⟨x, (coded l x).code ^^^ BitVec.twoPow 32 i⟩ false = .fail)

/-- Data and metadata of a missing line are the XOR of the fifteen others and the parity line, in any order (R336, R340). -/
def Obligations.ParityRebuildsTheMissingLine : Prop :=
  ∀ (pre post others : List DLine) (x : DLine), others.Perm (pre ++ post ++ [xorLines (pre ++ x :: post)]) →
    xorLines others = x

/-- REBUILD_DONE: a rebuilt line that checks GOOD reaches its miss entry, and REBUILT is counted and raised (R340, R342).
STAIN_CONVERSION: M17 asks to write the line that failed as a stain, and the parity line of what the bolt then holds (R341).
RECONSTRUCT_WRITE: it asks to write the parity line of the new line and the fifteen others (R370). The job holds on until
its writes are FULL entries (R372): such a write, granted by its tile, becomes one, and the job ends with the last (R58, R250). Its
credit goes back with the entry, which is the model's reading of R280's completion (log entry 61). -/
def Obligations.DarnEndsItsJobs : Prop :=
  (∀ (p : Fin 20) (id : Nat) (st : Stripe) (m prio : Nat) (k : EKind) (lo : Loc) (got : SMap (DLine × Check)) (sl : List Nat) (bn : Nat) (ag : Bool) (s : State),
    let l := stripeDataLoc s.dev st m
    let x := xorLines (got.map fun e => e.2.1)
    oneJob s.dev p.val id → st.panel = p.val → getJob s.dev id = some ⟨st, .rebuild m (.miss lo) false k, prio, [], [], got, 0, sl, bn, ag⟩ →
    got ≠ [] → (∀ e ∈ got, e.2.2 ≠ .fail) → isValid s.dev (stripeBolt s.dev st) = true → checkLine l x false = .good →
    mget s.dev.lastUse (lineKey lo.tile lo.bank lo.row lo.col) = none →
    EndsDev (.rebuildDone p) s fun d =>
      getJob d id = none ∧ counted s.dev d (tileOff l.tile 0x204) 1 ∧ isPending d Ev.REBUILT ∧
      (slice d lo.tile).miss = updWhere (fun e => e.loc = lo) (fun e => { e with state := .arrived x.data false })
        (slice s.dev lo.tile).miss) ∧
  (∀ (p : Fin 20) (id : Nat) (st : Stripe) (m prio : Nat) (got : SMap (DLine × Check)) (sl : List Nat) (bn : Nat) (ag : Bool) (s : State),
    let l := stripeDataLoc s.dev st m
    let pl := stripeParityLoc s.dev st
    let line (i : Nat) : DLine := if i = m then stainAt l else (mgetD (⟨0, 0⟩, .fail) got i).1
    oneJob s.dev p.val id → st.panel = p.val → getJob s.dev id = some ⟨st, .convert m .nobody none, prio, [], [], got, 0, sl, bn, ag⟩ →
    m < 16 → (∀ i, i < 16 → i ≠ m → (mgetD (⟨0, 0⟩, .fail) got i).2 ≠ .fail) →
    (∀ e, mget got m = some e → e.2 = .fail) → isValid s.dev (stripeBolt s.dev st) = true → outMembers s.dev st = [] →
    deltasPending s.dev st none = false →
    EndsDev (.stainConversion p) s fun d =>
      getJob d id = some ⟨st, .convert m .nobody none, prio, [], [], got, 2, sl, bn, ag⟩ ∧
      counted s.dev d (tileOff l.tile 0x208) 1 ∧ isPending d Ev.LINE_STAINED ∧
      (getMaster d 17).queue = (getMaster s.dev 17).queue ++ [s.dev.nextTxn, s.dev.nextTxn + 1] ∧
      askedPut d s.dev.nextTxn l (stainAt l) id ∧
      askedPut d (s.dev.nextTxn + 1) pl (xorLines ((List.range 16).map line)) id) ∧
  (∀ (p : Fin 20) (id : Nat) (st : Stripe) (m prio : Nat) (x : DLine) (got : SMap (DLine × Check)) (sl : List Nat) (bn : Nat) (ag : Bool) (s : State),
    let pl := stripeParityLoc s.dev st
    oneJob s.dev p.val id → st.panel = p.val → getJob s.dev id = some ⟨st, .reconstruct m x, prio, [], [], got, 0, sl, bn, ag⟩ →
    got ≠ [] → (∀ e ∈ got, e.2.2 ≠ .fail) → isValid s.dev (stripeBolt s.dev st) = true →
    EndsDev (.reconstructWrite p) s fun d =>
      getJob d id = some ⟨st, .reconstruct m x, prio, [], [], got, 1, sl, bn, ag⟩ ∧
      (getMaster d 17).queue = (getMaster s.dev 17).queue ++ [s.dev.nextTxn] ∧
      askedPut d s.dev.nextTxn pl (xorLines (x :: got.map fun e => e.2.1)) id) ∧
  (∀ (t : Fin 320) (n prio k id bolt : Nat) (c : Bool) (l : Loc) (x y : DLine) (st : Stripe) (u : Txn) (j : Job) (s : State),
    oneJob s.dev (panelOf s.dev t.val) id → idleSlice (slice s.dev t.val) → getJob s.dev id = some j →
    j.stripe.panel = panelOf s.dev t.val →
    j.kind = .reconstruct k y → j.puts = 1 → accepts s.dev t.val = true → allSent s.dev →
    isGranted s.dev t.val 17 ⟨n, 0, 17, prio, .unit (.put .full x false (some id)), l, bolt⟩ c → getTxn s.dev n = some u →
    l.tile = t.val → roleOf s.dev l = .parity st → countsOut s.dev t.val (stripeBolt s.dev st) = false →
    unitMay s.dev t.val = true → hamRoom (chan s.dev t.val) 1 = true →
    EndsDev (.tileGrant t none) s fun d =>
      (∃ e, (chan d t.val).ham = (chan s.dev t.val).ham ++ [e] ∧ e.kind = .full ∧ e.bank = l.bank ∧ e.orow = l.row ∧
        e.col = l.col ∧ e.line = x) ∧
      getTxn d n = none ∧ getJob d id = none ∧ (getMaster d 17).due = (getMaster s.dev 17).due ++ [⟨u.at_, true, 0⟩])

/-! ## Refresh and temperature -/

/-- The due points of a schedule are those of R319: n × I + phase × I / 256, rounded down, and the next one is the first that
has not passed; that interval 0 starts at hem cycle 0 is the model's choice (log entry 82). A refresh that falls due on a near rank is postponed while a read waits and the rank owes fewer than its
limit (R325), and is forced at the limit; it is due at once where no read of the rank waits, under another policy, and on a
tile out of service, where the registers stay as they are, which is the model's choice (R325, R326, log entry 82): it is issued then if its rank is ready, and waits otherwise (R268). A far channel's rotates
over its banks (R315). A refresh owed is repaid once no read waits and its rank is ready (R327). An RFM request waits for its
bank (R318). Stated outside the bursts of R330; while a stack is not initialised it requests nothing (R481). -/
def Obligations.RefreshFollowsItsDebt : Prop :=
  (∀ (d : Dev) (t rank x : Nat) (half : Bool),
    let i := max 1 (interval d t half)
    let o := phase d t rank * i / 256
    let y := pointFrom d t rank x half
    x ≤ y ∧ o ≤ y ∧ (y - o) % i = 0 ∧ (y = o ∨ y < x + i)) ∧
  (∀ (t : Fin 320) (k : BitVec 6) (at_ : Nat) (s : State), t.val < 256 → k.toNat < 2 →
    scheduleRuns s.dev t.val k.toNat = true → at_ = nextDue s.dev t.val k.toNat → patternRuns s.dev t.val = false →
    (rbits s.dev 0x4000 3 2 = 1 → inService s.dev t.val = true → owed (chan s.dev t.val) k.toNat < owedLimit s.dev →
      readWaits s.dev t.val k.toNat = true →
      EndsDev (.refreshDue t k at_) s fun d =>
        owed (chan d t.val) k.toNat = owed (chan s.dev t.val) k.toNat + 1 ∧ d.regs = s.dev.regs ∧
        (chan d t.val).dueRef = (chan s.dev t.val).dueRef ∧ mget (chan d t.val).base k.toNat = some at_) ∧
    (rbits s.dev 0x4000 3 2 = 1 → inService s.dev t.val = true → owedLimit s.dev ≤ owed (chan s.dev t.val) k.toNat →
      EndsDev (.refreshDue t k at_) s fun d =>
        owed (chan d t.val) k.toNat = owed (chan s.dev t.val) k.toNat ∧ isPending d Ev.REFRESH_FORCED ∧
        counted s.dev d (tileOff t.val 0x188) 1) ∧
    ((rbits s.dev 0x4000 3 2 ≠ 1 ∨ inService s.dev t.val = false ∨
        (owed (chan s.dev t.val) k.toNat < owedLimit s.dev ∧ readWaits s.dev t.val k.toNat = false)) →
      EndsDev (.refreshDue t k at_) s fun d =>
        owed (chan d t.val) k.toNat = owed (chan s.dev t.val) k.toNat ∧ d.regs = s.dev.regs ∧
        mget (chan d t.val).base k.toNat = some at_ ∧
        if (chan s.dev t.val).dueRef = [] ∧ refreshReady s.dev t.val k.toNat at_ = true then
          (getRank (chan d t.val) k.toNat).busyTo = at_ + (timing s.dev t.val).rfc ∧ (chan d t.val).dueRef = []
        else (chan d t.val).dueRef = (chan s.dev t.val).dueRef ++ [k.toNat])) ∧
  (∀ (t : Fin 320) (k : BitVec 6) (at_ : Nat) (s : State), 256 ≤ t.val → k.toNat = (chan s.dev t.val).rotor → k.toNat < 48 →
    scheduleRuns s.dev t.val 0 = true → at_ = nextDue s.dev t.val 0 → patternRuns s.dev t.val = false →
    (chan s.dev t.val).dueRef = [] → refreshReady s.dev t.val k.toNat at_ = true →
    EndsDev (.refreshDue t k at_) s fun d =>
      (chan d t.val).rotor = (k.toNat + 1) % 48 ∧ mget (chan d t.val).base 0 = some at_ ∧
      (getBank (chan d t.val) k.toNat).busyTo = at_ + (timing s.dev t.val).rfc ∧
      (∀ b, b ≠ k.toNat → getBank (chan d t.val) b = getBank (chan s.dev t.val) b)) ∧
  (∀ (t : Fin 320) (k : Fin 2) (at_ n : Nat) (s : State), t.val < 256 → owed (chan s.dev t.val) k.val = n + 1 →
    readWaits s.dev t.val k.val = false → (chan s.dev t.val).dueRef.contains k.val = false →
    inBurst s.dev t.val = false →
    EndsDev (.refreshRepay t k at_) s fun d =>
      if refreshReady s.dev t.val k.val at_ then
        owed (chan d t.val) k.val = n ∧ (getRank (chan d t.val) k.val).busyTo = at_ + (timing s.dev t.val).rfc
      else owed (chan d t.val) k.val = n + 1) ∧
  (∀ (t : Fin 320) (b : BitVec 6) (at_ : Nat) (s : State), 256 ≤ t.val → b.toNat < 48 → (chan s.dev t.val).rfm = [] →
    (scheduleRuns s.dev t.val 0 = false → exec (.rfmRequest t b at_) s = .next s) ∧
    (scheduleRuns s.dev t.val 0 = true → s.dev.pins.ck = true → patternRuns s.dev t.val = false →
      EndsDev (.rfmRequest t b at_) s fun d =>
        if refreshReady s.dev t.val b.toNat at_ then
          (chan d t.val).rfm = [] ∧ (getBank (chan d t.val) b.toNat).busyTo = at_ + (timing s.dev t.val).rfc ∧
            counted s.dev d (tileOff t.val 0x18C) 1
        else (chan d t.val).rfm = [(b.toNat, at_)] ∧ d.regs = s.dev.regs))

namespace Sys2Proof.Claims

/-- What a poll brings of one layer of a near tile: its sensor's reading, as MRR of MR4 returns it (R321, R410). -/
def layerReading (r : Readings) (d : Dev) (t k : Nat) : Option (BitVec 8) :=
  let v := match r.near.find? (fun e => e.1.val = t) with | some e => e.2 | none => (none, none)
  tempOf (mrrLine (layerTemp (layerOf d t k) (if k = 0 then v.1 else v.2)) 4)

/-- A reading is the hottest valid one of a list, none where none is valid. -/
abbrev isHottest (v : Option (BitVec 8)) (l : List (Option (BitVec 8))) : Prop :=
  (v = none → ∀ x ∈ l, x = none) ∧ (∀ x, v = some x → some x ∈ l ∧ ∀ y, some y ∈ l → y.toInt ≤ x.toInt)

/-- The doubled state after a poll, from what it was (R323). -/
abbrev doubledAfter (d : Dev) (g : Nat) (was : Bool) (n : RegionHeat) : Prop :=
  let dbl := signed 8 (rbits d (0xC010 + 4 * g) 7 0)
  (dbl ≤ n.temp.toInt → n.doubled = true) ∧
  (n.temp.toInt < dbl - rbits d 0xC000 11 8 → n.temp.toInt < dbl → n.doubled = false) ∧
  (dbl - rbits d 0xC000 11 8 ≤ n.temp.toInt → n.temp.toInt < dbl → n.doubled = was)

/-- The throttle step and its hold after a poll (R331). -/
abbrev steppedTo (d : Dev) (g : Nat) (h n : RegionHeat) : Prop :=
  let t := n.temp.toInt
  let thr := signed 8 (rbits d (0xC010 + 4 * g) 15 8)
  let width : Int := max 1 (rbits d (0xC010 + 4 * g) 27 24)
  let c : Nat := if n.lost ∨ signed 8 (rbits d (0xC010 + 4 * g) 23 16) ≤ t then 7
    else if thr < t then min 7 (-((thr - t) / width)).toNat else 0
  (h.step < c → n.step = c ∧ n.hold = 0) ∧ (h.step = c → n.step = h.step ∧ n.hold = 0) ∧
  (c < h.step → rbits d 0xC020 7 0 ≤ h.hold + 1 → n.step = h.step - 1 ∧ n.hold = 0) ∧
  (c < h.step → h.hold + 1 < rbits d 0xC020 7 0 → n.step = h.step ∧ n.hold = h.hold + 1) ∧
  (n.lost = true → h.step ≤ 7 → n.step = 7)

/-- The readings of the layers of the near tiles in service. -/
def nearReadings (r : Readings) (d : Dev) : List (Option (BitVec 8)) :=
  ((List.range 256).filter (inService d)).flatMap fun t => [layerReading r d t 0, layerReading r d t 1]

end Sys2Proof.Claims

/-- TEMP_POLL: a valid reading of a region becomes its temperature and ends LOST; without one the missed poll counts towards
TEMP_LOST, which makes it LOST, and so does a region with no tile in service (R321, R322). The reading of the near region is the
hottest valid one of the layers of its tiles in service, that of a far region its stack's (R321). The region is doubled from a poll at
DBL_TEMP or more on, until one below it by more than the hysteresis, and treated as doubled while it is LOST; a reading that ends LOST
counts as if the region had been doubled (R322, R323). The refresh interval is then half of that at the rate of its hems, rounded down,
and the next due points are those of the halved schedule (R316, R323, R324). The throttle step rises at once to the value of the
temperature, and falls by 1 once STEP_HOLD polls have asked for less; it is 7 at CRIT_TEMP and while the region is LOST (R322,
R331). Each change raises its event. -/
def Obligations.TempPollUpdatesItsRegion : Prop :=
  (∀ (d : Dev) (t : Nat), interval d t true = interval d t false / 2 ∧
    (256 ≤ t → let slow := if regionOfTile t = 1 then d.pins.far0Slow else d.pins.far1Slow
      interval d t false = if slow then rbits d 0xC008 15 0 * 3 / 4 else rbits d 0xC008 15 0) ∧
    (t < 256 → safeRank d t 0 = false → safeRank d t 1 = false →
      interval d t false = if d.pins.nearSlow then rbits d 0xC004 15 0 * 4 / 5 else rbits d 0xC004 15 0)) ∧
  ∀ (r : Readings) (g : Fin 3) (s : State),
    let h := getHeat s.dev g.val
    let alive := (regionTiles g.val).any (inService s.dev)
    s.dev.boot.trainDone = true → pollDue s.dev = true → allIdle s.dev →
    EndsDev (.tempPoll r) s fun d =>
      let n := getHeat d g.val
      ∃ v : Option (BitVec 8),
        (g = 0 → isHottest v (nearReadings r s.dev)) ∧
        (g = 1 → v = if alive then stackTemp r.far0 else none) ∧ (g = 2 → v = if alive then stackTemp r.far1 else none) ∧
        (∀ x, v = some x → n.temp = x ∧ n.lost = false ∧ n.misses = 0) ∧
        (v = none → n.temp = h.temp ∧ n.misses = min (h.misses + 1) 16 ∧
          n.lost = (h.lost || !alive || decide (max 1 (rbits s.dev 0xC000 19 16) ≤ h.misses + 1))) ∧
        doubledAfter s.dev g.val (h.doubled || (v.isSome && h.lost)) n ∧ steppedTo s.dev g.val h n ∧
        (n.lost = true → h.lost = false → isPending d Ev.TEMP_LOST) ∧
        (inForce n ≠ inForce h → isPending d Ev.REFRESH_DOUBLED) ∧ (n.step ≠ h.step → isPending d Ev.THROTTLE_STEP) ∧
        (signed 8 (rbits s.dev (0xC010 + 4 * g.val) 23 16) ≤ n.temp.toInt → h.crit = false → isPending d Ev.THERMAL_CRITICAL) ∧
        (inForce n = true → ∀ t k, regionOfTile t = g.val → ∃ x, nextDue d t k = pointFrom d t k x true) ∧
        (∀ k, k < 320 → slice d k = slice s.dev k)

/-! ## Service of a channel -/

/-- A bus fails where an odd number of bits of one of its edges, the parity bit among them, differs from what the hem drove
(R406); in SAFE mode edge 0 alone is checked (R408). A mode register write that a failing column bus lost is discarded (R407).
PARITY_REPORT of a near tile in whose fourth NCLK before it a bus failed, or of a far tile, stops the hem of a tile
in service, and is counted unless it goes on a pulse that has not ended, once where both layers of a tile report together, which is the
model's choice (log entry 78); without such a failure, or without a running clock, nothing happens (R271, R406, R407). TILE_FREEZE of a channel that holds nothing
makes it OUT with REASON FROZEN, with the snapshot of the report's source, and raises its two events (R273).
DLT_FRZ_RELEASE of a frozen tile: RETURN starts its return, KEEP_OUT keeps it out and drops the snapshot, RETURN_ALL
marks every bolt of its panel first, and each has M21 write a TRAIN section that a retraining has left waiting; on any other tile the
write is IGNORED (R275, R276, R496). -/
def Obligations.ParityReportThenFreeze : Prop :=
  (∀ (c : Chan) (t n : Nat) (safe : Bool) (f : BusFlips), t < 256 →
    (busFails safe (busAt c t n) f).1 = (isOdd f.row0 || (!safe && isOdd f.row1)) ∧
    (busFails safe (busAt c t n) f).2 = (isOdd f.col0 || (!safe && isOdd f.col1))) ∧
  ((∀ (t : Fin 320) (src : BitVec 2) (f : BusFlips) (onRef : Bool) (at_ n : Nat) (row col : Bool) (s : State), src ≠ 0 →
      s.dev.pins.ck = true → (svc s.dev t.val).state ≠ .out →
      (256 ≤ t.val ∧ n = at_ ∧ row = false ∧ col = false ∨ t.val < 256 ∧ failingCycle s.dev t.val src f at_ = some (n, row, col)) →
      EndsDev (.parityReport t ⟨src, f⟩ onRef at_) s fun d =>
        (chan d t.val).alert = some (match (chan s.dev t.val).alert with
          | some a => { a with source := a.source ||| src, bad := a.bad ++ if col then [(n, src)] else [] }
          | none => ⟨src, at_, if col then [(n, src)] else []⟩) ∧
        counted s.dev d (tileOff t.val 0x310) (if isNewPulse (chan s.dev t.val) t.val src at_ then 1 else 0) ∧
        svc d t.val = svc s.dev t.val ∧ ∀ k, slice d k = slice s.dev k) ∧
    (∀ (t : Fin 320) (src : BitVec 2) (f : BusFlips) (at_ n : Nat) (row col : Bool) (s : State),
      isSafe (layerOf s.dev t.val 0) = false → isSafe (layerOf s.dev t.val 1) = false →
      failingCycle s.dev t.val src f at_ = some (n, row, col) →
      n = at_ - 4 ∧ (row, col) = busFails false (busAt (chan s.dev t.val) t.val n) f ∧ (row = true ∨ col = true)) ∧
    (∀ (t : Fin 320) (src : BitVec 2) (f : BusFlips) (onRef : Bool) (at_ n : Nat) (row : Bool) (e : ModeWrite) (reg old : Nat) (s : State),
      t.val < 256 → s.dev.pins.ck = true → failingCycle s.dev t.val src f at_ = some (n, row, true) →
      (chan s.dev t.val).mrws = [e] → e.at_ = n → e.rank < 2 → src.getLsbD e.rank = true → 
      e.undo = .mr reg old → (reg = 2 ∨ (reg = 6 ∧ row = false)) →
      EndsDev (.parityReport t ⟨src, f⟩ onRef at_) s fun d =>
        mrOf (layerOf d t.val e.rank) reg = BitVec.ofNat 16 old ∧ (chan d t.val).mrws = []) ∧
    (∀ (t : Fin 320) (src : BitVec 2) (f : BusFlips) (onRef : Bool) (at_ : Nat) (s : State), s.dev.pins.ck = false →
      exec (.parityReport t ⟨src, f⟩ onRef at_) s = .next s) ∧
    (∀ (t : Fin 320) (src : BitVec 2) (f : BusFlips) (onRef : Bool) (at_ : Nat) (s : State), t.val < 256 →
      isOdd f.row0 = false → isOdd f.row1 = false → isOdd f.col0 = false → isOdd f.col1 = false →
      exec (.parityReport t ⟨src, f⟩ onRef at_) s = .next s) ∧
    (∀ (t : Fin 320) (a : Alert) (s : State), (chan s.dev t.val).alert = some a → bareChan (chan s.dev t.val) →
      (svc s.dev t.val).state = .in_ → (svc s.dev t.val).move = none → (svc s.dev t.val).slot = none →
      idlePanel s.dev (panelOf s.dev t.val) →
      EndsDev (.tileFreeze t) s fun d =>
        (svc d t.val).state = .out ∧ (svc d t.val).reason = .frozen ∧ (chan d t.val).alert = none ∧
        (∃ x, (svc d t.val).snap = some x ∧ x.source = a.source ∧ x.winWrites = 0 ∧ x.entries = []) ∧
        isPending d Ev.TILE_FROZEN ∧ isPending d Ev.CHANNEL_OUT)) ∧
  (∀ (t : Fin 320) (s : State), hostServed s.dev (tileOff t.val 0x04C) →
      ((svc s.dev t.val).state = .out → (svc s.dev t.val).reason = .frozen →
        (EndsDev (.frzReturn t) s fun d =>
          (svc d t.val).state = .returning ∧ (svc d t.val).snap = none ∧ okay d ∧ resumesTrain s.dev d t.val) ∧
        (EndsDev (.frzKeepOut t) s fun d =>
          svc d t.val = { svc s.dev t.val with reason := .keepOut, snap := none, led := (svc d t.val).led } ∧ okay d ∧
          d.regs = s.dev.regs ∧ resumesTrain s.dev d t.val) ∧
        (EndsDev (.frzReturnAll t) s fun d =>
          (svc d t.val).state = .out ∧ (svc d t.val).reason = .marking ∧ (svc d t.val).snap = none ∧ okay d ∧
          resumesTrain s.dev d t.val ∧
          ∀ b, boltPanel d b = panelOf s.dev t.val → mendHas d b = true)) ∧
      (¬((svc s.dev t.val).state = .out ∧ (svc s.dev t.val).reason = .frozen) →
        ∀ c, c = .frzReturn t ∨ c = .frzKeepOut t ∨ c = .frzReturnAll t →
          EndsDev c s fun d => d.tiles = s.dev.tiles ∧ d.mend = s.dev.mend ∧ ignored d))

/-- DLD_SVC_CMD: an accepted TAKE_OUT drains the channel, TAKE_OUT_LIFT takes its lift slot first, RETURN and RETURN_ALL
start the return; any other is IGNORED, and DLD_SVC_RESULT says why (R363, R380). A take-out whose channel is empty
is OUT and HELD (R364); a tile whose panel has been marked starts its return (R376); a lift copy whose last lift bolt has
been written is ready, and the channel then drains (R380). -/
def Obligations.ServiceCommandsAreCheckedAndComplete : Prop :=
  (∀ (t : BitVec 9) (n : BitVec 2) (s : State), hostServed s.dev 0xB000 →
      (svcErr s.dev 1 t.toNat 0 = 0 → EndsDev (.takeOut t) s fun d =>
        svc d t.toNat = { svc s.dev t.toNat with draining := true } ∧ okay d ∧
        rget d 0xB004 = BitVec.ofNat 32 (2 ^ 31 + 2 ^ 25 + t.toNat)) ∧
      (svcErr s.dev 2 t.toNat n.toNat = 0 → findLift s.dev t.toNat = none → EndsDev (.takeOutLift t n) s fun d =>
        svc d t.toNat = { svc s.dev t.toNat with state := .lifting, slot := some n.toNat } ∧
        getLift d n.toNat = ⟨1, t.toNat, 0, []⟩ ∧ okay d) ∧
      (svcErr s.dev 3 t.toNat 0 = 0 → EndsDev (.svcReturn t) s fun d =>
        (svc d t.toNat).state = .returning ∧ okay d ∧
        (getPanel d (panelOf s.dev t.toNat)).walkTile.isSome = true) ∧
      (svcErr s.dev 4 t.toNat 0 = 0 → EndsDev (.svcReturnAll t) s fun d =>
        (svc d t.toNat).state = .out ∧ (svc d t.toNat).reason = .marking ∧ okay d ∧
        ∀ b, boltPanel d b = panelOf s.dev t.toNat → mendHas d b = true) ∧
      (∀ c a k, (c = .takeOut t ∧ a = 1 ∧ k = 0) ∨ (c = .takeOutLift t n ∧ a = 2 ∧ k = n.toNat) ∨
          (c = .svcReturn t ∧ a = 3 ∧ k = 0) ∨ (c = .svcReturnAll t ∧ a = 4 ∧ k = 0) → svcErr s.dev a t.toNat k ≠ 0 →
        EndsDev c s fun d => d.tiles = s.dev.tiles ∧ d.lifts = s.dev.lifts ∧ ignored d ∧
          rbits d 0xB004 30 28 = svcErr s.dev a t.toNat k)) ∧
  ((∀ (t : Fin 320) (s : State), (svc s.dev t.val).draining = true → channelEmpty s.dev t.val = true →
      (chan s.dev t.val).alert = none → (svc s.dev t.val).slot = none → idlePanel s.dev (panelOf s.dev t.val) →
      EndsDev (.takeOutDrainDone t) s fun d =>
        svc d t.val = { idleHem (svc s.dev t.val) with state := .out, reason := .held, draining := false } ∧
        isPending d Ev.CHANNEL_OUT ∧
        chan d t.val = { chan s.dev t.val with tasks := (chan s.dev t.val).tasks.filter (· = .gap) }) ∧
    (∀ (t : Fin 320) (s : State), (svc s.dev t.val).state = .out → (svc s.dev t.val).reason = .marking →
      EndsDev (.markScanDone t) s fun d => (svc d t.val).state = .returning ∧ d.mend = s.dev.mend) ∧
    (∀ (t : Fin 320) (n : Nat) (s : State), (svc s.dev t.val).state = .lifting → (svc s.dev t.val).draining = false →
      (svc s.dev t.val).slot = some n → findLift s.dev t.val = none → liftBolts t.val ≤ (getLift s.dev n).copied →
      (chan s.dev t.val).alert = none →
      EndsDev (.liftReady t) s fun d =>
        svc d t.val = { svc s.dev t.val with draining := true, hasCopy := true } ∧ d.lifts = s.dev.lifts ∧
        isPending d Ev.LIFT_READY))

namespace Sys2Proof.Claims

/-- What the walk has M17 read of a bolt: the ply of every live member, the parity ply where its member is live, and, where its member
is the returning channel and no other is out, both lines of the paired ply's lift copy, if there is one (R377, R382). -/
def walkAsks (d : Dev) (t id : Nat) (st : Stripe) : List (UnitOp × Loc) :=
  let a := memberOf d t
  let q := st.parityMember
  let out := otherOut d st a
  ((List.range 16).filter fun m => m ≠ a && !out.contains m).map (fun m => (.ply (.job id m), slotLoc d st m)) ++
  (if q ≠ a ∧ out.contains q = false then [(.ply (.job id 16), slotLoc d st 16)] else []) ++
  match (svc d t).slot with
  | some n => if q = a ∧ (svc d t).hasCopy = true ∧ out = [] then
      [a, a + 32].map fun k => (.read (.job id k) true, liftLoc d n (slotLoc d st k)) else []
  | none => []

/-- What a walk has read of a member, 16 the parity, at one line position; a line that has not come counts as a FAIL. -/
def walkRead (j : Job) (h m : Nat) : DLine × Check := mgetD (⟨0, 0⟩, .fail) j.got (m + 32 * h)

/-- The data line of member m at one line position as the walk leaves it, and whether the walk makes it a stain (the table of R377, and
its text on a FAIL). -/
def walkLeaves (d : Dev) (t : Nat) (j : Job) (h m : Nat) : DLine × Bool :=
  let st := { j.stripe with half := h }
  let a := memberOf d t
  let q := st.parityMember
  let out := otherOut d st a
  let live := (List.range 16).filter fun k => k ≠ a && !out.contains k
  let reads := if q = a then live else live ++ [16]
  if m = a then
    if out = [] ∧ q ≠ a ∧ reads.all (fun k => (walkRead j h k).2 ≠ .fail) then
      (xorLines (reads.map fun k => (walkRead j h k).1), false)
    else if out = [] ∧ q = a ∧ (walkRead j 0 a).2 = .good ∧ (walkRead j 1 a).2 = .good then
      (coded (stripeDataLoc d st a) (walkRead j h a).1.data, false)
    else (stainAt (stripeDataLoc d st a), true)
  else if out.contains m then (stainAt (stripeDataLoc d st m), false)
  else if (walkRead j h m).2 = .fail then (stainAt (stripeDataLoc d st m), true)
  else ((walkRead j h m).1, false)

/-- Members whose data lines the walk writes at one line position: the returning channel, and those whose lines it makes stains. -/
def walkWritten (d : Dev) (t : Nat) (j : Job) (h : Nat) : List Nat :=
  memberOf d t :: (List.range 16).filter fun m => m ≠ memberOf d t && (walkLeaves d t j h m).2

/-- The walk's writes at one line position: those data lines, and the parity line, the XOR of the sixteen data lines as they then
stand, where the returning channel or another member live holds it: in the first row of the table only with a FAIL. -/
def walkWrites (d : Dev) (t : Nat) (j : Job) (h : Nat) : List (Loc × DLine) :=
  let st := { j.stripe with half := h }
  let a := memberOf d t
  let q := st.parityMember
  let out := otherOut d st a
  let parity : Bool := if out = [] then q = a || (walkRead j h 16).2 = .fail || (walkWritten d t j h).any (fun m => (walkLeaves d t j h m).2)
    else !out.contains q
  (walkWritten d t j h).map (fun m => (stripeDataLoc d st m, (walkLeaves d t j h m).1)) ++
    if parity then [(stripeParityLoc d st, xorLines ((List.range 16).map fun m => (walkLeaves d t j h m).1))] else []

end Sys2Proof.Claims

/-- WALK_BOLT passes a marked bolt that is blank and clears its mark (R377). Of a valid one it has M17 read the live plies and the parity
ply (steps 1 and 2); once all have returned, it computes the returning channel's plies by the table of R377 and has M17 write them, with
the stains and parity lines that a FAIL asks for, and raises LINE_STAINED (steps 3 and 4); the last of these writes, once its tile has
granted it, is a FULL entry, and clears the mark unless another channel of the panel is out: the walk goes on to the next bolt (step 5,
R385). CHANNEL_RETURNED: with no marked bolt left and its hem
at rest in normal mode, the tile is IN and its panel walks no more (R379, R419); while its retraining or its loopback runs nothing
happens. RINSE_ENTRY has M18 ask for a tile's ply of the bolt that its panel
reads; with nothing in its way the access takes a credit and becomes the tile's BG entry within the same command, which is
the model's choice (log entry 5). RINSE_BOLT_DONE goes on to the next bolt where nothing was wrong (R392 to R394). -/
def Obligations.WalkAndRinseGoBoltByBolt : Prop :=
  ((∀ (p : Fin 20) (t pos : Nat) (s : State), (getPanel s.dev p.val).walkTile = some t → (getPanel s.dev p.val).jobs = [] →
      s.dev.pins.ck = true → (svc s.dev t).hem.use = .idle → inNormal s.dev t = true → nextMarked s.dev p.val (getPanel s.dev p.val).walkPos = some pos →
      isValid s.dev (stripeBolt s.dev (walkStripe p.val pos)) = false →
      otherOut s.dev (walkStripe p.val pos) (memberOf s.dev t) = [] → s.dev.mend.diff.Nodup → s.dev.mend.errs = [] →
      EndsDev (.walkBolt p) s fun d =>
        mendHas d (stripeBolt s.dev (walkStripe p.val pos)) = false ∧ (getPanel d p.val).walkPos = pos + 1 ∧
        (∀ b, b ≠ stripeBolt s.dev (walkStripe p.val pos) → mendHas d b = mendHas s.dev b) ∧ d.tiles = s.dev.tiles) ∧
    (∀ (p : Fin 20) (t pos : Nat) (s : State),
      let st := walkStripe p.val pos
      let asks := walkAsks s.dev t s.dev.nextJob st
      (getPanel s.dev p.val).walkTile = some t → (getPanel s.dev p.val).jobs = [] → s.dev.pins.ck = true →
      (svc s.dev t).hem.use = .idle → inNormal s.dev t = true → nextMarked s.dev p.val (getPanel s.dev p.val).walkPos = some pos →
      isValid s.dev (stripeBolt s.dev st) = true → liftWriting s.dev (stripeBolt s.dev st) = false → boltSettled s.dev st = true →
      ((svc s.dev t).hasCopy = true → (svc s.dev t).slot.isSome = true) → s.dev.mend.errs = [] →
      EndsDev (.walkBolt p) s fun d =>
        (∃ j, getJob d s.dev.nextJob = some j ∧ j.stripe = st ∧ j.kind = .walk t ∧ j.toRead = [] ∧ j.got = [] ∧ j.puts = 0) ∧
        (getPanel d p.val).jobs = [s.dev.nextJob] ∧ (getPanel d p.val).walkPos = pos ∧
        (getMaster d 17).queue = (getMaster s.dev 17).queue ++ (List.range asks.length).map (s.dev.nextTxn + ·) ∧
        (∀ i u l, asks[i]? = some (u, l) → asked d (s.dev.nextTxn + i) u l) ∧ d.mend = s.dev.mend ∧ d.tiles = s.dev.tiles) ∧
    (∀ (p : Fin 20) (t id : Nat) (j : Job) (s : State),
      let puts := walkWrites s.dev t j 0 ++ walkWrites s.dev t j 1
      (getPanel s.dev p.val).walkTile = some t → oneJob s.dev p.val id → getJob s.dev id = some j → j.kind = .walk t →
      j.stripe.panel = p.val → s.dev.pins.ck = true → (svc s.dev t).hem.use = .idle → inNormal s.dev t = true →
      memberOf s.dev t < 16 → isValid s.dev (stripeBolt s.dev j.stripe) = true → jobReady j = true → walkSettled s.dev j = true →
      EndsDev (.walkBolt p) s fun d =>
        getJob d id = some { j with puts := puts.length } ∧
        (getMaster d 17).queue = (getMaster s.dev 17).queue ++ (List.range puts.length).map (s.dev.nextTxn + ·) ∧
        (∀ i l x, puts[i]? = some (l, x) → askedPut d (s.dev.nextTxn + i) l x id) ∧ d.mend = s.dev.mend ∧
        ((∃ h, h < 2 ∧ ∃ m ∈ walkWritten s.dev t j h, (walkLeaves s.dev t j h m).2 = true) → isPending d Ev.LINE_STAINED)) ∧
    (∀ (t : Fin 320) (r n prio id bolt : Nat) (c : Bool) (l : Loc) (x : DLine) (u : Txn) (j : Job) (s : State),
      let b := stripeBolt s.dev j.stripe
      oneJob s.dev (panelOf s.dev t.val) id → idleSlice (slice s.dev t.val) → getJob s.dev id = some j →
      j.stripe.panel = panelOf s.dev t.val → j.kind = .walk r → j.puts = 1 → j.stale = [] → accepts s.dev t.val = true →
      allSent s.dev → isGranted s.dev t.val 17 ⟨n, 0, 17, prio, .unit (.put .full x false (some id)), l, bolt⟩ c →
      getTxn s.dev n = some u → l.tile = t.val → (svc s.dev t.val).state ≠ .out → unitMay s.dev t.val = true →
      hamRoom (chan s.dev t.val) 1 = true → walkFits s.dev t.val id = true → s.dev.mend.errs = [] → s.dev.mend.diff.Nodup →
      EndsDev (.tileGrant t none) s fun d =>
        (∃ e, (chan d t.val).ham = (chan s.dev t.val).ham ++ [e] ∧ e.kind = .full ∧ e.bank = l.bank ∧ e.orow = l.row ∧
          e.col = l.col ∧ e.line = x) ∧
        getTxn d n = none ∧ getJob d id = none ∧
        (getPanel d (panelOf s.dev t.val)).walkPos = (getPanel s.dev (panelOf s.dev t.val)).walkPos + 1 ∧
        (otherOut s.dev j.stripe (memberOf s.dev r) = [] →
          mendHas d b = false ∧ ∀ k, k ≠ b → mendHas d k = mendHas s.dev k) ∧
        (otherOut s.dev j.stripe (memberOf s.dev r) ≠ [] → d.mend = s.dev.mend)) ∧
    (∀ (p : Fin 20) (t : Nat) (s : State), (getPanel s.dev p.val).walkTile = some t → (getPanel s.dev p.val).walkQueue = [] →
      panelOf s.dev t = p.val → nextMarked s.dev p.val (getPanel s.dev p.val).walkPos = none → (svc s.dev t).slot = none →
      hemQuiet s.dev t = true → inNormal s.dev t = true →
      idlePanel s.dev p.val →
      EndsDev (.channelReturned p) s fun d =>
        (svc d t).state = .in_ ∧ (getPanel d p.val).walkTile = none ∧ isPending d Ev.CHANNEL_RETURNED ∧
        ∀ k, k ≠ t → svc d k = svc s.dev k) ∧
    (∀ (p : Fin 20) (t : Nat) (s : State), (getPanel s.dev p.val).walkTile = some t → hemQuiet s.dev t = false →
      exec (.channelReturned p) s = .next s)) ∧
  ((∀ (t : Fin 320) (id slot : Nat) (j : Job) (s : State), rinseRuns s.dev (panelOf s.dev t.val) = true →
      (chan s.dev t.val).bg = none → rateChanging s.dev t.val = false → s.dev.pins.mask.getLsbD 18 = false →
      findJob s.dev (panelOf s.dev t.val) isRinse = some (id, j) → boltSettled s.dev j.stripe = true →
      j.toRead.find? (fun x => x < 32 && j.toRead.contains (x + 32) && (slotLoc s.dev j.stripe x).tile = t.val) = some slot →
      countsOut s.dev t.val (stripeBolt s.dev j.stripe) = false → (getPanel s.dev (panelOf s.dev t.val)).boltOps = [] →
      (∀ m, m < 16 → idleSlice (slice s.dev (tileAt s.dev (panelOf s.dev t.val) m))) → idleSlice (slice s.dev t.val) →
      (∀ k, k < 320 → (slice s.dev k).arb = []) → (slice s.dev t.val).decided = none → accepts s.dev t.val = true →
      allSent s.dev → quotaSpent s.dev t.val = false → (getMaster s.dev 18).queue = [] → creditOk s.dev 18 = true →
      EndsDev (.rinseEntry t) s fun d =>
        (∃ e, (chan d t.val).bg = some e ∧ e.kind = .bg ∧ e.owner = .job id slot ∧ e.master = some 18 ∧
          e.bank = (slotLoc s.dev j.stripe slot).bank) ∧
        getJob d id = some { j with toRead := j.toRead.filter (fun x => x ≠ slot && x ≠ slot + 32),
                                    open_ := j.open_ ++ [slot, slot + 32] } ∧
        (getMaster d 18).held = (getMaster s.dev 18).held + 1) ∧
    (∀ (p : Fin 20) (id : Nat) (j : Job) (s : State), oneJob s.dev p.val id → getJob s.dev id = some j → j.stripe.panel = p.val →
      j.kind = .rinse → jobReady j = true → isValid s.dev (stripeBolt s.dev j.stripe) = true → rinseFix s.dev j 0 = none →
      rinseFix s.dev j 1 = none → rinseFails s.dev j 0 = [] → rinseFails s.dev j 1 = [] →
      EndsDev (.rinseBoltDone p) s fun d =>
        getJob d id = none ∧
        (getPanel d p.val).rinsePos =
          (if panelBolts p.val ≤ (getPanel s.dev p.val).rinsePos + 1 then 0 else (getPanel s.dev p.val).rinsePos + 1) ∧
        (panelBolts p.val ≤ (getPanel s.dev p.val).rinsePos + 1 →
          isPending d Ev.RINSE_PASS ∧ counted s.dev d 0xB014 1) ∧ d.mend = s.dev.mend))

/-! ## Rinse, Patch, wear -/

/-- A row that is due moves to the lowest unused spare of its bank (R387); which due row and which FREE entry a move takes is the model's
choice (log entry 84); its columns are copied one by one, M17 asking for
the FULL write of each (R388); after the last M21 writes the table's new record, and then the entry is ACTIVE (R388, R389).
WEAR_WINDOW_END: every tile's
RATE moves by an eighth of its distance to 16 times the window's fails, truncated, and the count of the window
restarts (R395). RETIRE_POP: a read of DLD_RETIRE gives the oldest report and removes it (R390). -/
def Obligations.PatchMovesARowAndWearIsCounted : Prop :=
  ((∀ (t : Fin 320) (x : Track) (e i : Nat) (s : State), isIn s.dev t.val = true → (svc s.dev t.val).move = none →
      (svc s.dev t.val).tracker.find? (fun x => rowDue s.dev x && !x.told && !isLedgerRow (isFar t.val) x.row) = some x →
      entryOf (svc s.dev t.val) x.bank x.row = none →
      (List.range 16).find? (fun e => (patchOf (svc s.dev t.val) e).state = .free) = some e →
      freeSpare (svc s.dev t.val) (isFar t.val) x.bank = some i →
      EndsDev (.patchMoveStart t) s fun d =>
        (svc d t.val).move = some ⟨e, x.bank, x.row, i, none, 0, none, false⟩ ∧
        patchOf (svc d t.val) e = ⟨.moving, x.bank, x.row, i⟩ ∧ spareUsed (svc d t.val) x.bank i = true ∧
        (∀ k, k ≠ e → patchOf (svc d t.val) k = patchOf (svc s.dev t.val) k) ∧ chan d t.val = chan s.dev t.val) ∧
    (∀ (t : Fin 320) (m : Move) (id : Nat) (j : Job) (l : Loc) (s : State),
      l = ⟨t.val, m.bank, m.row, m.ptr⟩ → isIn s.dev t.val = true → (svc s.dev t.val).move = some m → m.ptr < 32 →
      m.job = some id → getJob s.dev id = some j → j.kind = .patch t.val false l →
      isValid s.dev (stripeBolt s.dev j.stripe) = true → jobReady j = true →
      EndsDev (.patchColumn t) s fun d =>
        (svc d t.val).move = some m ∧ getJob d id = some { j with puts := 1 } ∧
        (getMaster d 17).queue = (getMaster s.dev 17).queue ++ [s.dev.nextTxn] ∧
        askedPut d s.dev.nextTxn l (patchLineOf s.dev j l false) id) ∧
    (∀ (t : Fin 320) (m : Move) (s : State), (svc s.dev t.val).move = some m → 32 ≤ m.ptr → isIn s.dev t.val = true →
      (m.saved = false → EndsDev (.rowPatched t) s fun d =>
        svc d t.val = { svc s.dev t.val with move := some { m with saved := true },
                                             led := (svc s.dev t.val).led ++ [⟨0x1000, 8, 16⟩] } ∧
        (getMaster d 21).queue.length = (getMaster s.dev 21).queue.length + 8) ∧
      (m.saved = true → (∀ j ∈ (svc s.dev t.val).led, j.off ≠ 0x1000) → EndsDev (.rowPatched t) s fun d =>
        (svc d t.val).move = none ∧ patchOf (svc d t.val) m.entry = ⟨.active, m.bank, m.row, m.spare⟩ ∧
        (∀ k, k ≠ m.entry → patchOf (svc d t.val) k = patchOf (svc s.dev t.val) k) ∧ isPending d Ev.ROW_PATCHED))) ∧
  ((∀ s : State, EndsDev .wearWindowEnd s fun d => ∀ t, t < 320 →
      (svc d t).failsInWindow = 0 ∧
      ((svc d t).rate : Int) = min (max 0 ((svc s.dev t).rate + (16 * (svc s.dev t).failsInWindow - (svc s.dev t).rate : Int).tdiv 8)) 0xFFFF ∧
      (svc d t).state = (svc s.dev t).state ∧ chan d t = chan s.dev t ∧ slice d t = slice s.dev t) ∧
    (∀ (w : Retire) (rest : List Retire) (s : State), hostServed s.dev 0xB030 → s.dev.retire = w :: rest →
      EndsDev .retirePop s fun d => d.retire = rest ∧ d.ycp.rsp = some (0, BitVec.ofNat 32 (2 ^ 31 + w.toNat)) ∧
        d.tiles = s.dev.tiles))

/-! ## Hems -/

/-- DLT_HEM_CMD of a tile that is OUT with an idle hem starts a retraining or a loopback; STOP ends a loopback at its
next burst; a command for a tile in service, or for a busy hem, is IGNORED: RESULT shows 2 or 3, and nothing is logged (R415,
R417, R418, R534). That 2 comes before 3, and that one before the hems' clocks run is IGNORED and does nothing, is the model's choice
(log entry 73). A retraining completes with
its new margin and has its TRAIN section written, on a frozen tile once it is released or in step E4 (R275), or fails with RESULT 4 (R415, R416, R496). A loopback burst adds its bit
errors, keeps its first failing pin, and ends a stopped loopback (R417, R418). ZQ_CALIBRATION and READ_TRACKING give the hem
its commands: a gap, and on the first tile of a stack its calibration, which takes the channel for 512 FCLK; tracking reads
of both layers; tracking moves the drift by at most one step and raises HEM_DRIFT past its limit (R424, R425); that DRIFT only grows until a
retraining is the model's reading (log entry 31). -/
def Obligations.HemTasksStartAndEnd : Prop :=
  (∀ (t : Fin 320) (s : State), hostServed s.dev (tileOff t.val 0x300) →
      let h := (svc s.dev t.val).hem
      ((svc s.dev t.val).state = .out → h.use = .idle → rateChanging s.dev t.val = false → s.dev.pins.ck = true →
        (EndsDev (.retrain t) s fun d => (svc d t.val).hem = { h with use := .training } ∧ okay d) ∧
        (EndsDev (.loopNearEnd t) s fun d =>
          (svc d t.val).hem = { h with use := .nearEnd, stop := false, byReturn := false, lbPin := none } ∧ okay d) ∧
        (EndsDev (.loopFarEnd t) s fun d =>
          (svc d t.val).hem = { h with use := .farEnd, stop := false, byReturn := false, lbPin := none } ∧ okay d)) ∧
      (h.use = .nearEnd ∨ h.use = .farEnd → EndsDev (.loopStop t) s fun d =>
        (svc d t.val).hem = { h with stop := true } ∧ okay d ∧ d.regs = s.dev.regs) ∧
      (∀ c, c = .retrain t ∨ c = .loopNearEnd t ∨ c = .loopFarEnd t →
        ((svc s.dev t.val).state ≠ .out → EndsDev c s fun d =>
          (svc d t.val).hem = { h with result := 2 } ∧ ignored d ∧ d.lint = s.dev.lint) ∧
        ((svc s.dev t.val).state = .out → h.use ≠ .idle → EndsDev c s fun d =>
          (svc d t.val).hem = { h with result := 3 } ∧ ignored d ∧ d.lint = s.dev.lint) ∧
        ((svc s.dev t.val).state = .out → h.use = .idle → rateChanging s.dev t.val = false → s.dev.pins.ck = false →
          EndsDev c s fun d => d.tiles = s.dev.tiles ∧ ignored d ∧ d.lint = s.dev.lint))) ∧
  ((∀ (t : Fin 320) (r : Trial) (s : State), (svc s.dev t.val).hem.use = .training → s.dev.pins.ck = true → failStep (trialIds s.dev t.val r) t.val r = none →
      EndsDev (.retrainDone t r) s fun d =>
        (svc d t.val).hem = { (svc s.dev t.val).hem with
          use := .idle, result := 1, drift := 0, driftRaised := false, margin := trialMargin t.val r none,
          values := (svc d t.val).hem.values } ∧
        (isFrozen s.dev t.val = false → (getMaster d 21).queue.length = (getMaster s.dev 21).queue.length + 63) ∧
        (isFrozen s.dev t.val = true → s.dev.boot.warmState ≠ 3 → trainWaits d t.val = true ∧
          (getMaster d 21).queue = (getMaster s.dev 21).queue)) ∧
    (∀ (t : Fin 320) (r : Trial) (k : Nat) (s : State), (svc s.dev t.val).hem.use = .training → s.dev.pins.ck = true →
      failStep (trialIds s.dev t.val r) t.val r = some k →
      EndsDev (.retrainDone t r) s fun d =>
        (svc d t.val).hem = { (svc s.dev t.val).hem with use := .idle, result := 4, margin := trialMargin t.val r (some k) }) ∧
    (∀ (t : Fin 320) (errs : BitVec 32) (pin : Fin 272) (at_ : Nat) (s : State),
      (svc s.dev t.val).hem.use = .nearEnd ∨ (svc s.dev t.val).hem.use = .farEnd → s.dev.pins.ck = true →
      EndsDev (.loopbackBurstEnd t ⟨errs, pin⟩ at_) s fun d =>
        counted s.dev d (tileOff t.val 0x308) errs.toNat ∧
        (svc d t.val).hem.lbPin = (if errs = 0 ∨ lbPinFits t.val pin.val = false then (svc s.dev t.val).hem.lbPin
          else (svc s.dev t.val).hem.lbPin.or (some (BitVec.ofNat 9 pin.val))) ∧
        (svc d t.val).hem.use = (if (svc s.dev t.val).hem.stop then .idle else (svc s.dev t.val).hem.use) ∧
        ((svc s.dev t.val).hem.stop = true →
          (svc d t.val).hem.result = if (svc s.dev t.val).hem.byReturn then 5 else 1)) ∧
    (∀ (t : Fin 320) (s : State), (rget s.dev 0xD020).getLsbD 31 = true → s.dev.boot.trainDone = true →
      EndsDev (.zqCalibration t) s fun d =>
        chan d t.val = { chan s.dev t.val with
          tasks := (chan s.dev t.val).tasks ++ (if isFar t.val && isFirstOfStack s.dev t.val then [.gap, .zq] else [.gap]) } ∧
        (∀ k, k ≠ t.val → chan d k = chan s.dev k) ∧ d.regs = s.dev.regs) ∧
    (∀ (t : Fin 320) (at_ : Nat) (rest : List HemTask) (s : State), (chan s.dev t.val).tasks = .zq :: rest →
      taskOk s.dev t.val at_ .zq = true →
      EndsDev (.columnCommandIssue t at_) s fun d =>
        (chan d t.val).tasks = rest ∧ (chan d t.val).quietTo = at_ + 512 ∧ (chan d t.val).banks = (chan s.dev t.val).banks ∧
        d.regs = s.dev.regs) ∧
    (∀ (t : Fin 320) (v : BitVec 8) (pin : BitVec 9) (s : State), (rget s.dev 0xD020).getLsbD 30 = true →
      s.dev.boot.trainDone = true → (svc s.dev t.val).state ≠ .out → (svc s.dev t.val).hem.use = .idle →
      lbPinFits t.val pin.toNat = true →
      EndsDev (.readTracking t v pin) s fun d =>
        let n := (svc d t.val).hem.drift.toNat
        n = max (svc s.dev t.val).hem.drift.toNat (min v.toNat ((svc s.dev t.val).hem.drift.toNat + 1)) ∧
        (chan d t.val).tasks = (chan s.dev t.val).tasks ++ (if isFar t.val then [.drift, .drift] else [.trk 0, .trk 1]) ∧
        (rbits s.dev 0xD020 23 16 ≠ 0 → rbits s.dev 0xD020 23 16 < n → (svc s.dev t.val).hem.driftRaised = false →
          isPending d Ev.HEM_DRIFT ∧ (svc d t.val).hem.driftRaised = true)))

/-! ## Windows of the regulator and of energy -/

namespace Sys2Proof.Claims

/-- The energy that the closing window accounts: the larger of estimate and measurement while the estimate is diverged and measured,
the estimate otherwise (R450, R451). -/
def closing (d : Dev) : Nat := let u := closeWindow d; accounted u.energy
/-- A message of this instance waits at its sender or stands in the queue of a link. -/
abbrev hasMsg (d : Dev) (m : Msg) : Prop := m ∈ d.link.held ∨ ∃ j q, j < 2 ∧ q ∈ (getLink d j).queue ∧ q.msg = m

end Sys2Proof.Claims

/-- ENERGY_SAMPLE adds what each event count of the last ECLK is worth to its owner, of tiles, masters and links alike, those
of tiles and links to the estimate and to the total, and 1000 times STATIC (R428 to R430). ENERGY_WINDOW_END on a worker: the
divergence test counts its run, which while DIVERGED is 1 REARM alone clears, also where the window is within the margin (the model's
reading of R450 and R451, log entry 31), and raises ESTIMATE_DIVERGED once the run reaches N; a window is accounted at the larger of
estimate and measurement while the estimate is diverged and measured, and at the estimate otherwise (R450, R451); a fresh grant
is taken, less what the closed window spent above its purse; a grant that has not come for STALE windows gives way to the
fallback (R436 to R438). On the manager it shares the package cap over the instances that are present, each by its demand where the cap
meets them all, by its floor and the rest by what its demand is above it where the cap meets the floors, and by its floor alone
otherwise, which raises CAP_SHORT; that every share is rounded down is the model's reading (log entry 33); it sends each worker its purse and demand, and takes its own at once (R437, R453). -/
def Obligations.EnergyIsSampledAndPursed : Prop :=
  (∀ s : State, s.dev.pins.rstAsserted = false → (∀ e ∈ s.dev.energy.counts, e.1 / 16 < 345) →
    EndsDev .energySample s fun d =>
      let pj (e : Nat × Nat) : Nat := e.2 * mgetD 0 s.dev.energy.coefs (coefOf (e.1 / 16) (e.1 % 16))
      let sumOf (p : Nat → Bool) : Nat := ((s.dev.energy.counts.filter fun e => p (e.1 / 16)).map pj).sum
      let inEst (o : Nat) : Bool := decide (o < 320 ∨ o = 344)
      let st := 1000 * mgetD 0 s.dev.energy.coefs 17
      (∀ o, o < 345 → mgetD 0 d.energy.totals o = mgetD 0 s.dev.energy.totals o + sumOf (· = o)) ∧
      mgetD 0 d.energy.totals 345 = mgetD 0 s.dev.energy.totals 345 + st ∧
      mgetD 0 d.energy.totals 346 = mgetD 0 s.dev.energy.totals 346 + sumOf inEst + st ∧
      d.energy.winPj = s.dev.energy.winPj + sumOf inEst + st ∧ d.energy.eclk = s.dev.energy.eclk + 1 ∧
      (purseActs s.dev = false ∨ s.dev.energy.started = false ∨
          (s.dev.energy.exhausted = true ∧ s.dev.energy.midwin = true) →
        d.energy.counts = [] ∧ d.tiles = s.dev.tiles)) ∧
  (∀ s : State, s.dev.energy.started = true → s.dev.pins.rstAsserted = false → isManager s.dev = false →
    EndsDev .energyWindowEnd s fun d =>
      let est := s.dev.energy.winPj / 1000000
      let m := measured s.dev
      let margin := rbits s.dev 0xE0E0 7 0
      let far : Bool := m.2 && decide (margin ≠ 0) && decide (margin * max est m.1 < ((est - m.1) + (m.1 - est)) * 256)
      let run := if far then min 255 (s.dev.energy.run + 1) else if m.2 && !s.dev.energy.diverged then 0 else s.dev.energy.run
      let now : Bool := far && decide (max 1 (rbits s.dev 0xE0E0 15 8) ≤ run)
      let a := if (s.dev.energy.diverged || now) && m.2 then max est m.1 else est
      d.energy.run = run ∧ d.energy.diverged = (s.dev.energy.diverged || now) ∧ d.energy.suspended = !m.2 ∧
      (now = true → s.dev.energy.diverged = false → isPending d Ev.ESTIMATE_DIVERGED) ∧
      d.energy.spent = 0 ∧ d.energy.winPj = 0 ∧ d.energy.exhausted = false ∧ d.energy.estPrev = est ∧ d.energy.aPrev = a ∧
      d.energy.phase = BitVec.ofNat 4 (rbits s.dev 0xE004 3 0) ∧
      (s.dev.energy.fresh = true → d.energy.stale = false ∧ d.energy.fresh = false ∧
        d.energy.pEff = rbits s.dev 0xE0C0 23 0 - min (rbits s.dev 0xE0C0 23 0) (a - s.dev.energy.pEff)) ∧
      (s.dev.energy.fresh = false → s.dev.energy.stale = false →
        max 1 (rbits s.dev 0xE0C8 31 24) ≤ s.dev.energy.staleCnt + 1 →
        isPending d Ev.PURSE_STALE ∧ d.energy.stale = true ∧
        d.energy.pEff = rbits s.dev 0xE0C8 23 0 - min (rbits s.dev 0xE0C8 23 0) (a - s.dev.energy.pEff))) ∧
  (∀ s : State, s.dev.energy.started = true → s.dev.pins.rstAsserted = false → isManager s.dev = true →
    EndsDev .energyWindowEnd s fun d =>
      let u := applyReport s.dev (me s.dev) s.dev.energy.phase.toNat s.dev.energy.point (min (closing s.dev) 0xFFFFFF)
      let cap := rbits s.dev 0xE180 23 0
      let ps := present u
      let sd := (ps.map (demandOf u)).sum
      let sf := (ps.map (floorUj u)).sum
      let above (i : Nat) : Nat := demandOf u i - floorUj u i
      let purse (i : Nat) : Nat :=
        if sd ≤ cap then (if sd = 0 then cap / ps.length else demandOf u i + (cap - sd) * demandOf u i / sd)
        else if sf ≤ cap then
          (if (ps.map above).sum = 0 then floorUj u i else floorUj u i + (cap - sf) * above i / (ps.map above).sum)
        else cap * floorUj u i / sf
      (cap < sd → cap < sf → isPending d Ev.CAP_SHORT) ∧
      (me s.dev ∈ ps → rbits d 0xE0C0 23 0 = min (purse (me s.dev)) 0xFFFFFF ∧
        rbits d 0xE0C4 23 0 = min (demandOf u (me s.dev)) 0xFFFFFF ∧ d.energy.grant = min (purse (me s.dev)) 0xFFFFFF ∧
        d.energy.stale = false) ∧
      (∀ i ∈ ps, i ≠ me s.dev → (pathOk s.dev i 0 || pathOk s.dev i 1) = true →
        hasMsg d ⟨s.dev.boot.inst, BitVec.ofNat 2 i, .regWrite 0xE0C0 (BitVec.ofNat 32 (min (purse i) 0xFFFFFF))⟩ ∧
        hasMsg d ⟨s.dev.boot.inst, BitVec.ofNat 2 i, .regWrite 0xE0C4 (BitVec.ofNat 32 (min (demandOf u i) 0xFFFFFF))⟩))

/-- A rail read that is good gives the next slot of the sweep its power, one that fails counts towards PMBUS_FAULT (R432 to
R435). The
last region of a change of point ends it; a far region that does not lock holds the point off (R446, R447); where the purse was
exhausted while the change ran, the change to FLOOR starts then, and a point chosen in step 5 while it ran is taken up (R439, R443;
that they wait is the model's choice, log entry 24). PMBUS_FAULT is raised whenever a rail becomes STALE, which is the model's reading
of R434's first time (log entry 31). A droop
shows and is counted while its detector is on (R448). Writes of DLW: REARM ends a divergence and its run (R451); a
grant by either agent is fresh (R437); a write of DLW_OPk releases the hold-off of its point (R447), also where its fields are
locked and it is IGNORED, which is the model's reading (log entry 34), and sets its fields before apply only. -/
def Obligations.RailsRatesAndEnergyWrites : Prop :=
  ((∀ (r : Fin 8) (x : PmResult) (s : State), s.dev.pins.rstAsserted = false → (rget s.dev 0xE110).getLsbD 31 = true →
      nextSlotOf s.dev = some r.val → pmFits s.dev r.val x = true →
      (∀ p : Int, railPower s.dev r.val x = some p → 0 ≤ p → p ≤ 0xFFFFFF → EndsDev (.pmbusReadDone r x) s fun d =>
        getRail d r.val = ⟨true, false, 0, p.toNat, (getRail s.dev r.val).sum + p.toNat, (getRail s.dev r.val).count + 1⟩ ∧
        d.energy.pmNext = (r.val + 1) % 8 ∧ d.regs = s.dev.regs) ∧
      (railPower s.dev r.val x = none → EndsDev (.pmbusReadDone r x) s fun d =>
        (getRail d r.val).misses = min 15 ((getRail s.dev r.val).misses + 1) ∧
        (getRail d r.val).power = (getRail s.dev r.val).power ∧
        (max 1 (rbits s.dev 0xE110 27 24) ≤ (getRail d r.val).misses → (getRail d r.val).stale = true ∧
          ((getRail s.dev r.val).stale = false → isPending d Ev.PMBUS_FAULT)))) ∧
    (∀ (r : Fin 3) (locked : Bool) (s : State), s.dev.energy.chg = true → s.dev.energy.changing = [r.val] →
      (∀ t ∈ regionTiles r.val, (svc s.dev t).hem.use = .idle) → allIdle s.dev →
      (s.dev.energy.exhausted = false → s.dev.energy.wish = none → EndsDev (.rateChangeRegion locked) s fun d =>
        d.energy.chg = false ∧ d.energy.changing = [] ∧
        (locked = true ∨ r = 0 → d.energy.point = s.dev.energy.target ∧ isPending d Ev.OPPOINT_CHANGE) ∧
        (locked = false → r ≠ 0 → d.energy.point = s.dev.energy.point ∧ isPending d Ev.RELOCK_FAIL ∧
          (s.dev.energy.target < 4 → d.energy.heldOff.getLsbD s.dev.energy.target = true))) ∧
      (∀ k, s.dev.energy.exhausted = false → s.dev.energy.wish = some k → locked = true ∨ r = 0 →
        s.dev.energy.heldOff.getLsbD k = false → EndsDev (.rateChangeRegion locked) s fun d => d.energy.wish = none ∧
          (d.energy.point = k ∨ d.energy.chg = true ∧ d.energy.target = k)) ∧
      (s.dev.energy.exhausted = true → s.dev.energy.started = true → purseActs s.dev = true → s.dev.energy.midwin = false →
        (locked = true ∨ r = 0) → s.dev.energy.target < floorOf s.dev s.dev.energy.phase.toNat →
        s.dev.energy.heldOff.getLsbD (floorOf s.dev s.dev.energy.phase.toNat) = false →
        EndsDev (.rateChangeRegion locked) s fun d => d.energy.midwin = true ∧
          d.energy.target = floorOf s.dev s.dev.energy.phase.toNat ∧
          (d.energy.chg = true ∨ d.energy.point = floorOf s.dev s.dev.energy.phase.toNat))) ∧
    (∀ s : State, s.dev.pins.rstAsserted = false → rbits s.dev 0xE160 23 16 ≠ 0 → s.dev.pins.droop = false →
      EndsDev .droopStart s fun d =>
        d.pins = { s.dev.pins with droop := true } ∧ isPending d Ev.DROOP ∧ counted s.dev d 0xE164 1) ∧
    (∀ s : State, EndsDev .droopEnd s fun d => d = { s.dev with pins := { s.dev.pins with droop := false } })) ∧
  ((∀ s : State, hostServed s.dev 0xE0E0 → EndsDev .rearm s fun d =>
      d.energy = { s.dev.energy with diverged := false, run := 0 } ∧ okay d ∧ rbits d 0xE0E0 15 0 = rbits s.dev 0xE0E0 15 0) ∧
    (∀ (v : Word) (w : WriteBy) (s : State), hostServed s.dev 0xE0C0 → s.dev.pins.rstAsserted = false →
      (w = .host v ∨ w = .manager v ∨ ∃ h, w = .both h v) →
      EndsDev (.purseGrantWrite w) s fun d =>
        d.energy = { s.dev.energy with fresh := true } ∧ rbits d 0xE0C0 23 0 = bits v 23 0) ∧
    (∀ (k : Fin 4) (v : Word) (s : State), hostServed s.dev (0xE060 + 4 * k.val) →
      EndsDev (.opWrite k v) s fun d =>
        d.energy.heldOff = s.dev.energy.heldOff &&& ~~~(BitVec.ofNat 4 (2 ^ k.val)) ∧
        d.energy.point = s.dev.energy.point ∧
        (s.dev.boot.applied = false → rbits d (0xE060 + 4 * k.val) 24 16 = bits v 24 16 ∧ okay d) ∧
        (s.dev.boot.applied = true → d.regs = s.dev.regs ∧ ignored d)))

/-! ## The die link -/

namespace Sys2Proof.Claims

/-- The manager, or a worker, out of reset. -/
abbrev asManager (d : Dev) : Prop := d.pins.rstAsserted = false ∧ isManager d = true
abbrev asWorker (d : Dev) : Prop := d.pins.rstAsserted = false ∧ isManager d = false
/-- Another instance, by number. -/
abbrev isOther (d : Dev) (i : BitVec 2) : Prop := i ≠ d.boot.inst
/-- The mark of an instance and its cause (R470). -/
abbrev isMarked (d : Dev) (i : BitVec 2) (cause : BitVec 3) : Prop :=
  (getPeer d i.toNat).marked = true ∧ (getPeer d i.toNat).cause = cause

end Sys2Proof.Claims

/-- A request in order from another instance waits at M19's regulator queue under its tag (R464); a number that never came
is skipped once its time is over. A response ends its forwarded request at its port; one that does not come in time is
answered ABSENT, is counted and raised (R465). An intermediate instance relays a message whole on its other link (R460). -/
def Obligations.ForwardedRequestsAreServed : Prop :=
  (∀ (m : Msg) (q : BitVec 16) (ma : Fin 24) (tag : Nat) (ty : TypeCode) (a : BitVec 34) (len : BitVec 7) (h : BitVec 2)
      (attr : BitVec 16) (pr : BitVec 3) (beats : List (BeatEn × BeatData)) (s : State),
    m.body = .req q ma tag ty a len h attr pr beats → s.dev.pins.rstAsserted = false → m.dst = s.dev.boot.inst →
    m.src ≠ s.dev.boot.inst → (getPeer s.dev m.src.toNat).skipped = [] → (getPeer s.dev m.src.toNat).reorder = [] →
    (getPeer s.dev m.src.toNat).seqIn = q → s.dev.pins.ready = true →
    EndsDev (.reqMessage m) s fun d =>
      getPeer d m.src.toNat = { getPeer s.dev m.src.toNat with seqIn := q + 1 } ∧
      (getMaster d 19).queue = (getMaster s.dev 19).queue ++ [s.dev.nextTxn] ∧
      (∃ x, getTxn d s.dev.nextTxn = some x ∧ x.src = .remote m.src tag ∧ x.master = 19 ∧ x.kind = kindOfCode ty.toNat ∧
        x.addr = a ∧ x.sectors = len.toNat + 1 ∧ x.attr = attr ∧ x.beats = beats) ∧ d.regs = s.dev.regs) ∧
  (∀ (i : BitVec 2) (s : State), s.dev.pins.rstAsserted = false → rbits s.dev 0xF004 31 24 ≠ 0 →
    (getPeer s.dev i.toNat).reorder ≠ [] →
    mget (getPeer s.dev i.toNat).reorder ((getPeer s.dev i.toNat).seqIn + 1).toNat = none →
    EndsDev (.reqSeqSkip i) s fun d =>
      getPeer d i.toNat = { getPeer s.dev i.toNat with
        seqIn := (getPeer s.dev i.toNat).seqIn + 1,
        skipped := (getPeer s.dev i.toNat).seqIn.toNat :: (getPeer s.dev i.toNat).skipped }) ∧
  (∀ (m : Msg) (tag : Nat) (c : Rsp) (ps : List Nat) (data : List BeatData) (x : Txn) (n : Nat) (ptag : BitVec 8) (s : State),
    m.body = .rsp tag c ps data → s.dev.pins.rstAsserted = false → m.dst = s.dev.boot.inst →
    (∃ at_, (tag, m.src, at_) ∈ s.dev.link.fwds) → getTxn s.dev tag = some x → x.src = .port n ptag → x.silent = false →
    s.dev.pins.mask.getLsbD n = false →
    EndsDev (.rspMessage m) s fun d =>
      (getPort d n).done = (getPort s.dev n).done ++ [(tag, x.reserved, ⟨ptag, c, if data = [] then [0] else data,
        if data = [] then [0] else ps.map (BitVec.ofNat 8)⟩)] ∧
      d.link.fwds = s.dev.link.fwds.filter (fun e => e.1 ≠ tag) ∧ d.tiles = s.dev.tiles ∧ d.regs = s.dev.regs) ∧
  (∀ (id : Nat) (o : BitVec 2) (at_ : BitVec 64) (rest : List (Nat × BitVec 2 × BitVec 64)) (x : Txn) (n : Nat)
      (ptag : BitVec 8) (s : State), s.dev.link.fwds = (id, o, at_) :: rest → rbits s.dev 0xF004 31 24 ≠ 0 →
    getTxn s.dev id = some x → x.src = .port n ptag → x.silent = false → s.dev.pins.mask.getLsbD n = false →
    EndsDev .remoteTimeout s fun d =>
      (getPort d n).done = (getPort s.dev n).done ++ [(id, x.reserved, ⟨ptag, .absent, [0], [0]⟩)] ∧
      d.link.fwds = rest.filter (fun e => e.1 ≠ id) ∧ counted s.dev d 0xF040 1 ∧ isPending d Ev.REMOTE_TIMEOUT ∧
      d.tiles = s.dev.tiles) ∧
  (∀ (j : Fin 2) (m : Msg) (s : State), m.dst ≠ s.dev.boot.inst → s.dev.pins.rstAsserted = false →
    linkUp s.dev 0 = true → linkUp s.dev 1 = true →
    EndsDev (.messageRelay j m) s fun d =>
      (getLink d (1 - j.val)).queue = (getLink s.dev (1 - j.val)).queue ++
        [⟨m, relayChannel s.dev.boot.inst.toNat j.val m.src.toNat, true⟩] ∧
      getLink d j.val = getLink s.dev j.val ∧ d.regs = s.dev.regs ∧ d.txns = s.dev.txns)

/-- Heartbeats. The manager's interval counts a miss of each worker whose last answer has not come, and marks one at its
limit with cause 1 (R469); an answer with the current number ends the miss. A worker's marks follow the present set, and it
is isolated where its own bit is 0 (R470, R471). One that hears nothing has lost its manager (R472). A report of an instance
that is present moves the manager's history of its phase towards the energy reported, at the nominal rate, by 1 part in
2^ALPHA, rounded down (R452). -/
def Obligations.HeartbeatsKeepThePresentSet : Prop :=
  (∀ (i : BitVec 2) (s : State), asManager s.dev → isOther s.dev i → s.dev.link.fwds = [] →
    (getPeer s.dev i.toNat).beating = true → (getPeer s.dev i.toNat).marked = false →
    EndsDev .heartbeatSend s fun d =>
      let n := if (getPeer s.dev i.toNat).hbWaiting then min 15 ((getPeer s.dev i.toNat).misses + 1) else 0
      d.link.hbSeq = s.dev.link.hbSeq + 1 ∧ (getPeer d i.toNat).misses = n ∧
      (n < max 1 (rbits s.dev 0xF004 23 20) →
        (getPeer d i.toNat).hbWaiting = true ∧ (getPeer d i.toNat).marked = false) ∧
      (max 1 (rbits s.dev 0xF004 23 20) ≤ n → isMarked d i 1 ∧ isPending d Ev.INSTANCE_ABSENT)) ∧
  (∀ (q : BitVec 8) (present : BitVec 4) (tg : Bool) (s : State), asWorker s.dev → s.dev.link.fwds = [] →
    EndsDev (.heartbeat q present tg) s fun d =>
      d.link.mgrLost = false ∧
      (∀ i : BitVec 2, isOther s.dev i → (getPeer d i.toNat).marked = !present.getLsbD i.toNat) ∧
      (present.getLsbD s.dev.boot.inst.toNat = false → d.link.isolated = true ∧
        (s.dev.link.isolated = false → d.pins.ready = false ∧ isPending d Ev.ISOLATED))) ∧
  (∀ (i : BitVec 2) (q : BitVec 8) (r f : Bool) (s : State), asManager s.dev → q = s.dev.link.hbSeq →
    EndsDev (.hbAck i q r f) s fun d =>
      getPeer d i.toNat = { getPeer s.dev i.toNat with hbWaiting := false } ∧
      ∀ k, k ≠ i.toNat → getPeer d k = getPeer s.dev k) ∧
  (∀ s : State, asWorker s.dev → s.dev.link.applyAt = true → s.dev.link.mgrLost = false →
    EndsDev .managerLost s fun d => d.link = { s.dev.link with mgrLost := true } ∧ isPending d Ev.MANAGER_LOST) ∧
  (∀ (i : BitVec 2) (ph : BitVec 4) (pt : BitVec 2) (a : BitVec 24) (s : State), asManager s.dev →
    isAbsent s.dev i.toNat = false →
    EndsDev (.report i ph pt a) s fun d =>
      let h : Int := histAt s.dev i.toNat ph.toNat
      let x : Int := (a.toNat * 256 / max 1 (ratio s.dev pt.toNat) : Nat)
      histAt d i.toNat ph.toNat = (h + (x - h) / 2 ^ rbits s.dev 0xE000 27 24).toNat ∧ d.regs = s.dev.regs)

/-- Marks (R466, R470 to R474): a worker applies ABSENT_SET and ABSENT_CLEAR, and isolates itself where it is the instance
named; the manager marks a worker that leaves (4), that fails the broadcast in time (2), or that is evicted (5). -/
def Obligations.InstancesAreMarked : Prop :=
  ∀ (i : BitVec 2) (s : State), s.dev.link.fwds = [] →
    (asWorker s.dev → isOther s.dev i → ∀ cause,
      EndsDev (.absentSet i cause) s fun d => isMarked d i cause ∧
        ((getPeer s.dev i.toNat).marked = false → isPending d Ev.INSTANCE_ABSENT)) ∧
    (asWorker s.dev → i = s.dev.boot.inst → s.dev.link.isolated = false → ∀ cause,
      EndsDev (.absentSet i cause) s fun d => d.link.isolated = true ∧ d.pins.ready = false ∧ isPending d Ev.ISOLATED) ∧
    (asWorker s.dev → isOther s.dev i → (getPeer s.dev i.toNat).marked = true →
      EndsDev (.absentClear i) s fun d =>
        getPeer d i.toNat = { getPeer s.dev i.toNat with marked := false, cause := 0 } ∧ d.regs = s.dev.regs) ∧
    (asManager s.dev → isOther s.dev i → (getPeer s.dev i.toNat).marked = false →
      (EndsDev (.leave i) s fun d => isMarked d i 4 ∧ isPending d Ev.INSTANCE_ABSENT) ∧
      ((getPeer s.dev i.toNat).bcast = 1 → EndsDev (.bcastTimeout i) s fun d =>
        isMarked d i 2 ∧ (getPeer d i.toNat).bcast = 3 ∧ isPending d Ev.BCAST_FAIL) ∧
      (hostServed s.dev 0xF034 → EndsDev (.evict i) s fun d =>
        isMarked d i 5 ∧ isPending d Ev.INSTANCE_ABSENT ∧ okay d)) ∧
    (hostServed s.dev 0xF034 → isManager s.dev = false →
      EndsDev (.evict i) s fun d => d.link = s.dev.link ∧ ignored d)

/-- Links: a HELLO that agrees brings a link that trains up with its modules, and makes every instance reachable to which a path
is up then; one that names another instance, manager or revision shows MISMATCH, and the link carries nothing (R457, R466); on
a link that does not train it does nothing (R462). A link beyond a neighbour that comes up makes the opposite instance reachable
again (R460, R464, R466). Which links a path needs, and that their HELLO and loss come as commands, is the model's reading
(log entry 27). A module that fails leaves the rest, and one that a retry repairs only counts (R462). Where no path is left an
instance is unreachable, and the manager marks a worker it loses (R466, R470); the link to an instance in reset trains again
(R462). -/
def Obligations.LinksComeAndGo : Prop :=
  (∀ (j : Fin 2) (mods : BitVec 5) (inst mgr : BitVec 2) (rev : BitVec 8) (s : State), s.dev.pins.rstAsserted = false →
    ((getLink s.dev j.val).state ≠ .training → exec (.hello (.own j) mods inst mgr rev) s = .next s) ∧
    ((getLink s.dev j.val).state = .training →
      (inst = s.dev.boot.inst ^^^ BitVec.ofNat 2 (j.val + 1) → mgr = s.dev.boot.mgr → rev = Config.revision →
        EndsDev (.hello (.own j) mods inst mgr rev) s fun d =>
          (getLink d j.val).state = .up ∧ (getLink d j.val).modules = mods ∧
          (∀ i : BitVec 2, isOther s.dev i → (pathOk d i.toNat 0 || pathOk d i.toNat 1) = true →
            (getPeer d i.toNat).unreach = false) ∧
          (mods ≠ 0 → (getPeer d inst.toNat).unreach = false) ∧ d.regs = s.dev.regs) ∧
      (inst ≠ s.dev.boot.inst ^^^ BitVec.ofNat 2 (j.val + 1) ∨ mgr ≠ s.dev.boot.mgr ∨ rev ≠ Config.revision →
        EndsDev (.hello (.own j) mods inst mgr rev) s fun d =>
          (getLink d j.val).state = .mismatch ∧ isPending d Ev.LINK_MISMATCH ∧
          ((∀ i ∈ others s.dev, (getPeer s.dev i).unreach = true ∨ pathOk s.dev i (1 - j.val) = true) →
            ∀ i ∈ others s.dev, (getPeer d i).unreach = (getPeer s.dev i).unreach ∧
              (getPeer d i).marked = (getPeer s.dev i).marked)))) ∧
  (∀ (j : Fin 2) (mods : BitVec 5) (inst mgr : BitVec 2) (rev : BitVec 8) (s : State), s.dev.pins.rstAsserted = false →
    linkUp s.dev j.val = true →
    EndsDev (.hello (.far j) mods inst mgr rev) s fun d =>
      (getPeer d (Nat.xor (me s.dev) 3)).unreach = false ∧
      ((getPeer s.dev (Nat.xor (me s.dev) 3)).unreach = true →
        (getPeer d (Nat.xor (me s.dev) 3)).seqIn = 0 ∧ (getPeer d (Nat.xor (me s.dev) 3)).seqOut = 0) ∧
      d.link.links = s.dev.link.links ∧ d.regs = s.dev.regs) ∧
  (∀ (m : Fin 10) (retries : BitVec 16) (s : State), s.dev.pins.rstAsserted = false →
    (EndsDev (.linkModuleDown m ⟨retries, true⟩) s fun d =>
      counted s.dev d (0xF028 + 4 * (m.val / 5)) retries.toNat ∧ d.link = s.dev.link) ∧
    ((getLink s.dev (m.val / 5)).modules.getLsbD (m.val % 5) = true →
      (getLink s.dev (m.val / 5)).modules ≠ BitVec.ofNat 5 (2 ^ (m.val % 5)) →
      EndsDev (.linkModuleDown m ⟨retries, false⟩) s fun d =>
        getLink d (m.val / 5) = { getLink s.dev (m.val / 5) with
          modules := (getLink s.dev (m.val / 5)).modules &&& ~~~(BitVec.ofNat 5 (2 ^ (m.val % 5))) } ∧
        isPending d Ev.LINK_MODULE_DOWN ∧ counted s.dev d (0xF028 + 4 * (m.val / 5)) retries.toNat ∧
        d.link.peers = s.dev.link.peers)) ∧
  (∀ (i : BitVec 2) (reset : Bool) (s : State), s.dev.pins.rstAsserted = false → isOther s.dev i → s.dev.link.fwds = [] →
    linkUp s.dev 0 = false → linkUp s.dev 1 = false → (getPeer s.dev i.toNat).unreach = false →
    EndsDev (.linkDown ⟨i, reset⟩) s fun d =>
      (getPeer d i.toNat).unreach = true ∧ isAbsent d i.toNat = true ∧
      (isManager s.dev = true → (getPeer s.dev i.toNat).marked = false → isMarked d i 6)) ∧
  (∀ (j : Fin 2) (s : State), s.dev.pins.rstAsserted = false →
    EndsDev (.linkDown ⟨s.dev.boot.inst ^^^ BitVec.ofNat 2 (j.val + 1), true⟩) s fun d =>
      (getLink d j.val).state = .training ∧ (getLink d j.val).modules = 0)

/-- The broadcast. A worker stores an image's words, applies its verified pattern on APPLY, and writes what the manager
sends it (R467, R475). The manager follows each worker: its verdict, its slot, APPLIED (R467, R468); JOIN starts one for a
marked worker that can be reached, which ends once that worker has applied, and is IGNORED otherwise (R474). The values that STEP shows
on a worker, 1 with a whole image and 3 on APPLY, are the model's reading (log entry 37). -/
def Obligations.BroadcastGoesStepByStep : Prop :=
  (∀ (off : BitVec 20) (ws : List Word) (k : Nat) (w : Word) (s : State), asWorker s.dev → s.dev.boot.imgState = 0 →
    ws[k]? = some w → off.toNat / 4 + ws.length ≤ 262144 →
    EndsDev (.image off ws) s fun d =>
      mget d.boot.image (off.toNat / 4 + k) = some w ∧
      (imageComplete d.boot.image = true → d.boot.imgState = 1 ∧ d.boot.step = 1) ∧
      (imageComplete d.boot.image = false → d.boot.imgState = 0)) ∧
  (∀ s : State, asWorker s.dev → s.dev.boot.imgState = 2 →
    EndsDev .apply s fun d =>
      d.boot.applied = true ∧ d.boot.imgState = 4 ∧ d.boot.step = 3 ∧ d.link.applyAt = true ∧ d.lint.open_ = true ∧
      d.energy.started = true) ∧
  (∀ (v : Word) (s : State), asWorker s.dev → hostServed s.dev 0xE0C4 →
    EndsDev (.regWrite 0xE0C4 v) s fun d => rbits d 0xE0C4 23 0 = bits v 23 0 ∧ d.tiles = s.dev.tiles) ∧
  (∀ (i : BitVec 2) (s : State), asManager s.dev → isOther s.dev i → s.dev.link.fwds = [] →
    let p := getPeer s.dev i.toNat
    (p.bcast = 1 →
      (EndsDev (.verdict i none) s fun d =>
        getPeer d i.toNat = { p with verified := true, detour := (getPeer d i.toNat).detour }) ∧
      (∀ r, EndsDev (.verdict i (some r)) s fun d =>
        (getPeer d i.toNat).bcast = 3 ∧ isMarked d i 3 ∧ isPending d Ev.BCAST_FAIL) ∧
      (p.verified = true → p.acked = false → ∀ taken,
        EndsDev (.regAck i 0xC030 taken) s fun d =>
          getPeer d i.toNat = { p with acked := true, detour := (getPeer d i.toNat).detour }) ∧
      (p.acked = true → EndsDev (.applied i) s fun d =>
        (getPeer d i.toNat).bcast = 2 ∧ (getPeer d i.toNat).beating = true ∧ (getPeer d i.toNat).marked = false ∧
        (s.dev.link.joining = some i → (∀ k ∈ others s.dev, k ≠ i.toNat → (getPeer s.dev k).bcast ≠ 1) →
          d.link.bcastBusy = false ∧ d.link.joining = none))) ∧
    (hostServed s.dev 0xF034 → p.marked = true → p.unreach = false → s.dev.link.bcastBusy = false →
      EndsDev (.join i) s fun d =>
        d.link.bcastBusy = true ∧ d.link.joining = some i ∧ (getPeer d i.toNat).bcast = 1 ∧ okay d) ∧
    (hostServed s.dev 0xF034 → p.marked = false ∨ p.unreach = true ∨ s.dev.link.bcastBusy = true →
      EndsDev (.join i) s fun d => d.link = s.dev.link ∧ ignored d))

/-! ## Pattern load -/

/-- The manager's image buffer takes a word at IMG_ADDR, which advances; GO starts verification. Neither acts after apply or on
a worker (R490, R491); GO is ignored too while verification or the broadcast runs (R491), and the buffer is not writable then:
what is verified is what is applied, which is the model's reading (log entry 36). PATTERN_VERIFY shows VERIFIED, or REJECTED
with its reason (R486, R488); that on the manager it comes after its links have trained is the model's reading of R498 (log entry 38), and
so are the values that STEP then shows on a worker, 2 and 0 (log entry 37). PATTERN_APPLY applies on the manager
once every worker is ready (R467, R487). -/
def Obligations.PatternLoadsOnTheManager : Prop :=
  (∀ (v : Word) (s : State), hostServed s.dev 0x100C →
    (s.dev.boot.applied = false → isManager s.dev = true → s.dev.boot.imgState ≠ 1 → s.dev.boot.imgState ≠ 2 →
      EndsDev (.imgDataWrite v) s fun d =>
        mget d.boot.image (rbits s.dev 0x1008 17 0) = some v ∧
        (∀ k, k ≠ rbits s.dev 0x1008 17 0 → mget d.boot.image k = mget s.dev.boot.image k) ∧
        (rget d 0x1008).toNat = (rbits s.dev 0x1008 17 0 + 1) % 262144 ∧ okay d) ∧
    (s.dev.boot.applied = true ∨ isManager s.dev = false ∨ s.dev.boot.imgState = 1 ∨ s.dev.boot.imgState = 2 →
      EndsDev (.imgDataWrite v) s fun d => d.boot = s.dev.boot ∧ ignored d)) ∧
  (∀ s : State, hostServed s.dev 0x1000 →
    (s.dev.boot.applied = false → isManager s.dev = true →
      s.dev.boot.imgState ≠ 1 → s.dev.boot.imgState ≠ 2 → s.dev.link.bcastBusy = false →
      EndsDev .go s fun d =>
        d.boot = { s.dev.boot with imgState := 1, imgReason := 0, imgDetail := 0, step := 1 } ∧ okay d) ∧
    (s.dev.boot.applied = true ∨ isManager s.dev = false ∨ s.dev.boot.imgState = 1 ∨ s.dev.boot.imgState = 2 ∨
        s.dev.link.bcastBusy = true →
      EndsDev .go s fun d => d.boot = s.dev.boot ∧ d.link = s.dev.link ∧ d.pins = s.dev.pins ∧
        (s.dev.boot.applied = true → ignored d))) ∧
  (∀ s : State, s.dev.pins.rstAsserted = false → s.dev.boot.imgState = 1 → s.dev.link.fwds = [] →
    (isManager s.dev = true → linksTrain s.dev = true → exec .patternVerify s = .next s) ∧
    ((isManager s.dev = true → linksTrain s.dev = false) →
      EndsDev .patternVerify s fun d =>
        let r := verifyImage s.fuses s.dev
        d.boot.imgReason = r.1 ∧ d.boot.imgDetail = r.2 ∧ d.boot.applied = s.dev.boot.applied ∧
        (r.1 = 0 → d.boot.imgState = 2 ∧ d.boot.step = 2) ∧
        (r.1 ≠ 0 → d.boot.imgState = 3 ∧ d.boot.step = 0 ∧ isPending d Ev.PATTERN_REJECTED))) ∧
  (∀ s : State, asManager s.dev → s.dev.boot.imgState = 2 → bcastReady s.dev = true →
    EndsDev .patternApply s fun d =>
      d.boot.applied = true ∧ d.boot.imgState = 4 ∧ d.boot.step = 3 ∧ (getPeer d (me s.dev)).bcast = 2 ∧
      d.lint.open_ = true ∧ d.energy.started = true ∧ d.txns = s.dev.txns)

/-- A pattern that verifies has passed every check of R486: (1) MAGIC, FORMAT, FLAGS, KEY_SLOT and the reserved bytes; (2) LENGTH and
RECORDS; (3) the part; (4) SEQ is new enough for the MIN_SEQ fuses; (5) unsigned only where the DEBUG fuse allows; (6) otherwise by a
key whose slot is not revoked and whose digest the slot holds; (7) whose signature verifies over bytes 0 to LENGTH - 1, with an
uncompressed key (R484); (8) every record names a permitted register; (9) every check that a rule assigns to pattern load holds on what
apply would set (R482, R483, R485, R486). -/
def Obligations.AcceptedImagePassedEveryCheck : Prop :=
  ∀ (f : Fuses) (d : Dev) (x : Nat), verifyImage f d = (0, x) →
    let h := imageBytesOf d.boot.image 256
    let n := imgField h 8 4
    let slot := imgField h 24 2
    let bs := imageBytesOf d.boot.image (n + 256)
    let sig := bs.drop n
    let key := sig.take 97
    let big (o : Nat) : Nat := Sha.beNat ((sig.drop o).take 48)
    (imgField h 0 4 = 0x4E525450 ∧ imgField h 4 2 = 1 ∧ imgField h 6 2 ≤ 1 ∧ slot ≤ 3 ∧
      (∀ i b, (26 ≤ i ∧ i ≤ 111) ∨ (144 ≤ i ∧ i ≤ 255) → h[i]? = some b → b = 0)) ∧
    (n % 8 = 0 ∧ 256 ≤ n ∧ n ≤ 1048320 ∧ imgField h 12 4 = (n - 256) / 8) ∧
    imgField h 16 4 = partId ∧ f.minSeq ≤ imgField h 20 4 ∧
    (imgField h 6 2 = 1 → f.debug = true) ∧
    (imgField h 6 2 ≠ 1 →
      (f.revoke.getLsbD (imgField bs 24 2) = false ∧
        f.keys.getD (imgField bs 24 2) 0 = BitVec.ofNat 384 (Sha.beNat (Sha.sha384 key))) ∧
      key.head? = some 4 ∧
      Ecdsa.verify (Sha.beNat (Sha.sha384 (bs.take n))) (big 1) (big 49) (big 100) (big 148) = true) ∧
    (∀ r ∈ imageRecords d.boot.image (imgField h 12 4), permitted r.1 = true) ∧
    firstBad (writeRecords (resetRwl d) (imageRecords d.boot.image (imgField h 12 4))) = none

/-! ## Resets, starts, warm entries, the wrapper -/

/-- RESET_ASSERT: the logic is as at reset, dl_ready is 0, nothing is outstanding, and memory keeps its lines in self-refresh
only, and its ranks asleep, through any number of resets until a start (R413); that every line is undefined otherwise is the model's reading (log
entry 52); the wrapper and the fuses stay (R140, R478). RESET_DEASSERT takes the straps, and its links train (R456, R498).
MEM_RESET leaves no line defined and no rank in self-refresh, puts the layers' mode registers at their reset, and no warm start may
follow (R409, R479, R480). -/
def Obligations.ResetsStartAfresh : Prop :=
  (∀ s : State, s.dev.pins.rstPin = false →
    Ends .resetAssert s fun u =>
      u.dram = (if s.dev.pins.srDone || s.dev.boot.warmOk then s.dram else []) ∧ u.fuses = s.fuses ∧ u.pending = s.pending ∧
      (∀ off, rget u.dev off = regReset off) ∧ u.dev.txns = [] ∧ u.dev.mangle = Reset.mangle ∧
      u.dev.tiles = (if (s.dev.pins.srDone || s.dev.boot.warmOk) && !s.dev.pins.memRst then sleepers s.dev else []) ∧
      u.dev.pins.ready = false ∧ u.dev.pins.rstAsserted = true ∧ u.dev.pins.rstPin = true ∧
      u.dev.pins.wrapper = s.dev.pins.wrapper ∧ u.dev.pins.mask = s.dev.pins.mask ∧
      (∀ t k, layerOf u.dev t k = layerOf s.dev t k) ∧ u.dev.boot.warmOk = ((s.dev.pins.srDone || s.dev.boot.warmOk) && !s.dev.pins.memRst)) ∧
  (∀ (inst mgr : BitVec 2) (s : State), s.dev.pins.rstPin = true → s.dev.pins.testMode = false →
    s.dev.pins.testTainted = false →
    EndsDev (.resetDeassert inst mgr) s fun d =>
      d.pins.rstPin = false ∧ d.pins.rstAsserted = false ∧ d.pins.ready = s.dev.pins.ready ∧ d.boot.inst = inst ∧
      d.boot.mgr = mgr ∧ (getLink d 0).state = .training ∧ (getLink d 1).state = .training) ∧
  (∀ s : State, Ends (.memReset true) s fun u =>
    u.dram = [] ∧ (∀ t k, (getRank (chan u.dev t) k).selfRefresh = false) ∧
    u.dev = { s.dev with pins := { s.dev.pins with memRst := true },
                                       boot := { s.dev.boot with warmOk := false }, hbms := [], tiles := (wakeAll s.dev).tiles,
                                       layer := layerReset s.dev.layer,
                                       layers := (s.dev.layers.map fun e => (e.1, layerReset e.2)).filter
                                         fun e => e.2 ≠ layerReset s.dev.layer } ∧ u.fuses = s.fuses) ∧
  (∀ s : State, exec (.memReset false) s =
    .next { s with dev := { s.dev with pins := { s.dev.pins with memRst := false } } })

namespace Sys2Proof.Claims

/-- Every hem trains: the layers answer with an identity that step 1 of R414 takes, and no eye is narrower than it allows. -/
abbrev trains (d : Dev) (o : StartOutcome) : Prop :=
  o.train = [] ∧ eyeLimit ≤ o.margin.toNat ∧ ∀ t k, t < 256 → k < 2 → identityOk (layerOf d t k) = true

end Sys2Proof.Claims

/-- A cold start in which nothing fails enables the instance with every bolt blank and no mark (R498); one whose self-test
finds the Blank map broken halts (R354). A warm start in which nothing fails enables it too; one that is not orderly leaves
every bolt blank (R506, R507). -/
def Obligations.StartsEnableTheInstance : Prop :=
  (∀ (o : StartOutcome) (s : State), mayStart s.dev false = true → trains s.dev o → o.test = [] →
    s.dev.link.isolated = false →
    Ends (.coldStart o) s fun u =>
      u.dev.pins.ready = true ∧ u.dev.boot.step = 9 ∧ u.dev.boot.done = true ∧ u.dev.boot.trainDone = true ∧
      isPending u.dev Ev.STARTUP_DONE ∧ (∀ b, isValid u.dev b = false) ∧ u.dev.mend = Reset.mend ∧
      u.dev.boot.stFatal = s.dev.boot.stFatal ∧ u.fuses = s.fuses) ∧
  (∀ (o : StartOutcome) (v : BitVec 9) (s : State), mayStart s.dev false = true → trains s.dev o →
    o.test = [⟨.blank, 0, v⟩] → v.toNat < phaseVectors 0 →
    Ends (.coldStart o) s fun u =>
      u.dev.boot.halted = true ∧ u.dev.boot.stFatal = true ∧ u.dev.boot.stBlank = true ∧ u.dev.boot.step = 15 ∧
      u.dev.pins.ready = s.dev.pins.ready ∧ isPending u.dev Ev.SELFTEST_FAIL) ∧
  (∀ (o : StartOutcome) (s : State), mayStart s.dev true = true → s.dev.boot.warmOk = true → trains s.dev o →
    o.test = [] →
    s.dev.link.isolated = false →
    Ends (.warmStart o) s fun u =>
      u.dev.pins.ready = true ∧ u.dev.boot.step = 9 ∧ isPending u.dev Ev.STARTUP_DONE ∧ u.dev.mend = Reset.mend ∧
      (u.dev.boot.ledOrderly = false → ∀ b, isValid u.dev b = false) ∧ u.fuses = s.fuses)

namespace Sys2Proof.Claims

/-- A step passes one TCLK of an orderly entry under way: no command waits, the logic runs, no maintenance operation sweeps, and no
lane of a Mangle column is busy. -/
abbrev entryTurn (s : State) (k : Nat) : Prop :=
  s.pending = [] ∧ s.dev.pins.rstAsserted = false ∧ s.dev.pins.pllCore = true ∧ s.dev.boot.warmState = k ∧ s.dev.maint = 0 ∧
  s.dev.mangle.queue = [] ∧ s.dev.mangle.busy = []
/-- Masters whose credits E2 waits for (R501). -/
abbrev ofE2 (m : Nat) : Prop := m < 17 ∨ m = 19 ∨ m = 20 ∨ m = 23
/-- Nothing that E2 waits for is left: no credit, no return or walk, no Patch move of a channel in service (R501). -/
abbrev quiesced (d : Dev) : Prop :=
  (∀ m, ofE2 m → (getMaster d m).held = 0) ∧ ∀ t, t < 320 → (svc d t).draining = false ∧ (svc d t).state ≠ .returning ∧
    ((svc d t).state = .out → (svc d t).reason ≠ .marking ∧ (svc d t).reason ≠ .held) ∧
    ((svc d t).move = none ∨ (svc d t).state = .out)
/-- Every channel is empty; every rank is in self-refresh. -/
abbrev allEmpty (d : Dev) : Prop := ∀ t, t < 320 → channelEmpty d t = true
abbrev allSleep (d : Dev) : Prop := ∀ t, t < 320 → ∀ k ∈ ranksOf t, (getRank (chan d t) k).selfRefresh = true
/-- The step answers a next state of which P holds. -/
abbrev EndsStep (s : State) (P : State → Prop) : Prop := ∃ u, step s = .next u ∧ P u

end Sys2Proof.Claims

/-- Warm entries: an ORDERLY entry begins where its conditions hold, dl_ready falls and NEW_EN is 0; otherwise ERR says why (R500,
R501): that ERR 4 comes before ERR 1, and that an instance is enabled where STEP is 9, is the model's reading (log entry 37). It then
runs in steps on an empty queue, one TCLK each (log entry 2): E2 returns each tile that is OUT and HELD and waits for the credits, the
returns and the Patch moves; E3 cleans the Press and waits for the channels; E4 has M21 write the Ledger, whose lines are the only
ones defined that may change, and waits for its writes; E5 puts every rank to sleep with no refresh owed; E6 raises dl_sr_done and
WARM_READY and stops the clocks (R501, R502, R513). A DISORDERLY entry abandons every transaction and ends in self-refresh on every channel, with dl_sr_done (R504), whose
rise raises WARM_READY (R513). -/
def Obligations.WarmEntriesReachSelfRefresh : Prop :=
  (∀ s : State, hostServed s.dev 0x1018 →
    (orderlyErr s.dev = 0 → EndsDev .orderlyEntry s fun d =>
      d.boot.warmState = 1 ∧ d.boot.step = (if s.dev.boot.halted then 15 else 10) ∧ d.pins.ready = false ∧ okay d ∧
      (rget d 0x8100).getLsbD 16 = false ∧ d.tiles = s.dev.tiles) ∧
    (orderlyErr s.dev ≠ 0 → EndsDev .orderlyEntry s fun d =>
      d.boot = { s.dev.boot with warmErr := orderlyErr s.dev } ∧ d.pins = s.dev.pins ∧ ignored d) ∧
    (s.dev.boot.applied = true → Ends .disorderlyEntry s fun u =>
      u.dev.pins.srDone = true ∧ u.dev.pins.ready = false ∧ u.dev.boot.warmState = 5 ∧ u.dev.txns = [] ∧
      (s.dev.pins.srDone = false → isPending u.dev Ev.WARM_READY) ∧ okay u.dev ∧
      (∀ t, t < 320 → (getRank (chan u.dev t) 0).selfRefresh = true ∧
        (t < 256 → (getRank (chan u.dev t) 1).selfRefresh = true) ∧ channelEmpty u.dev t = true)) ∧
    (s.dev.boot.applied = false → EndsDev .disorderlyEntry s fun d => d.boot.warmErr = 1 ∧ d.pins = s.dev.pins ∧ ignored d)) ∧
  (∀ s : State, entryTurn s 1 →
    (∀ t, t < 320 → (svc s.dev t).state = .out → (svc s.dev t).reason = .held →
      EndsStep s fun u => u.dev.boot.warmState = 1 ∧ (svc u.dev t).state = .returning) ∧
    ((∃ m, ofE2 m ∧ (getMaster s.dev m).held ≠ 0) → EndsStep s fun u => u.dev.boot.warmState = 1 ∧ u.dram = s.dram) ∧
    (quiesced s.dev → EndsStep s fun u => u.dev.boot.warmState = 2 ∧ u.dev.maint = 1 ∧ u.dram = s.dram)) ∧
  (∀ s : State, entryTurn s 2 →
    (¬allEmpty s.dev → EndsStep s fun u => u.dev.boot.warmState = 2 ∧ u.dram = s.dram) ∧
    (allEmpty s.dev → EndsStep s fun u => u.dev.boot.warmState = 3 ∧
      (∀ t, t < 320 → ∃ j ∈ (svc u.dev t).led, j.off = 0x2000) ∧
      (getMaster u.dev 21).queue.length ≥ (getMaster s.dev 21).queue.length + 256 * 120 + 64 * 1440 ∧
      ∀ k, memGet u.dram k = memGet s.dram k ∨ memGet u.dram k = none)) ∧
  (∀ s : State, entryTurn s 3 →
    (¬allEmpty s.dev → EndsStep s fun u => u.dev.boot.warmState = 3) ∧
    (allEmpty s.dev → (∀ e ∈ s.dev.tiles, e.2.svc.led = [] ∧ e.2.chan.alert = none) →
      EndsStep s fun u => u.dev.boot.warmState = 4)) ∧
  (∀ s : State, entryTurn s 4 →
    (¬allSleep s.dev → EndsStep s fun u => u.dev.boot.warmState = 4 ∧ allSleep u.dev ∧ u.dev.pins.srDone = s.dev.pins.srDone ∧
      (∀ t, t < 320 → ∀ k ∈ ranksOf t, owed (chan u.dev t) k = 0) ∧ u.dram = s.dram) ∧
    (allSleep s.dev → EndsStep s fun u => u.dev.boot.warmState = 5 ∧ u.dev.pins.srDone = true ∧ u.dev.pins.ck = false ∧
      (s.dev.pins.srDone = false → isPending u.dev Ev.WARM_READY) ∧ u.dram = s.dram))

/-- The wrapper: its instructions without test mode only select what is shifted, WS_BYPASS one bit (R540); those with it put the
logic in reset and leave no memory line defined and no rank asleep, and only a cold start may follow (R541; what memory holds then is the model's reading, log entry 52). FUSE_PROG
blows fuses, and a blown fuse stays blown (R485); that MIN_SEQ takes the larger of two values, 64 at most, is the model's
reading of its thermometer (log entry 36). -/
def Obligations.WrapperSelectsItsInstruction : Prop :=
  (∀ (c : Instr) (s : State), c = .wsBypass ∨ c = .wrapperReset →
    EndsDev c s fun d => ∃ v, v ≤ 1 ∧ d = { s.dev with
      free := s.dev.free + 1, pins := { s.dev.pins with wrapper := 0, testMode := false, shiftOut := [v] } }) ∧
  (∀ s : State, EndsDev .fuseRead s fun d =>
    d = { s.dev with pins := { s.dev.pins with wrapper := 4, testMode := false, shiftOut := shiftFuses s.fuses } }) ∧
  (∀ (c : Instr) (code : BitVec 4) (s : State),
    (c = .wsExtest ∧ code = 1) ∨ (c = .wsIntest ∧ code = 2) ∨ (c = .memTest ∧ code = 3) →
    Ends c s fun u =>
      u.dev.pins.wrapper = code ∧ u.dev.pins.testMode = true ∧ u.dev.pins.testTainted = true ∧ u.fuses = s.fuses ∧
      (s.dev.pins.testMode = false → u.dram = [] ∧ u.dev.pins.rstAsserted = true ∧ u.dev.pins.ready = false ∧
        u.dev.pins.rstPin = s.dev.pins.rstPin ∧ u.dev.boot.warmOk = false ∧
        (∀ t k, (getRank (chan u.dev t) k).selfRefresh = false) ∧ ∀ off, rget u.dev off = regReset off)) ∧
  (∀ (w : Fin 9) (v : BitVec 384) (s : State), s.fuses.keys.length = 4 →
    Ends (.fuseProg w v) s fun u =>
      u.dev.pins.wrapper = 5 ∧ u.dev.pins.testMode = true ∧
      (w.val < 4 → u.fuses.keys.getD w.val 0 = s.fuses.keys.getD w.val 0 ||| v) ∧
      (w = 4 → u.fuses.revoke = s.fuses.revoke ||| v.setWidth 4) ∧
      (w = 5 → u.fuses.minSeq = max s.fuses.minSeq (min v.toNat 64)) ∧
      (w = 6 → u.fuses.debug = (s.fuses.debug || v.getLsbD 0)) ∧
      (w = 7 → u.fuses.uid = s.fuses.uid ||| v.setWidth 64))

/-! ## Registers -/

/-- DLE_BLANK_CMD clears the Blank map while dl_ready is 0 and no clear runs, and is IGNORED otherwise (R352); a query
shows whether a bolt is valid, at once, which is the model's choice within the 4 TCLK it is given (log entry 29). The Lint writer appends its oldest record, or drops it into a full ring (R356, R357); TAIL
moves only within the records that are there. -/
def Obligations.BlankMapAndLintCommands : Prop :=
  (∀ s : State, hostServed s.dev 0xA000 →
    (s.dev.pins.ready = false → s.dev.blank.busy = false → EndsDev .blankClear s fun d =>
      d.blank = { s.dev.blank with valid := [], errs := [], busy := true } ∧ okay d ∧ d.regs = s.dev.regs) ∧
    (s.dev.pins.ready = true ∨ s.dev.blank.busy = true → EndsDev .blankClear s fun d =>
      d.blank = s.dev.blank ∧ ignored d)) ∧
  (∀ s : State, s.dev.blank.busy = true →
    exec .blankClearDone s = .next { s with dev := { s.dev with blank := ⟨[], [], false, true, []⟩ } }) ∧
  (∀ (b : BitVec 26) (s : State), hostServed s.dev 0xA004 → s.dev.blank.known = true →
    mget s.dev.blank.errs (mapWord b.toNat) = none →
    EndsDev (.blankQuery b) s fun d => okay d ∧ d.blank = s.dev.blank ∧
      rget d 0xA008 = (if 62914559 < b.toNat then 0xC0000000 else if isValid s.dev b.toNat then 0x80000001 else 0x80000000)) ∧
  (∀ (k : Nat) (r : LintRec) (q : List (Nat × LintRec)) (s : State), s.dev.lint.queue = (k, r) :: q →
    (s.dev.lint.head + 1 ≠ lintTail s.dev → s.dev.lint.bad.contains (diagLine s.dev.lint.head.toNat) = false → EndsDev .lintRecordWrite s fun d =>
      d.lint = { s.dev.lint with queue := q, ring := minsert s.dev.lint.ring s.dev.lint.head.toNat r,
                                 head := s.dev.lint.head + 1 } ∧ d.regs = s.dev.regs) ∧
    (s.dev.lint.head + 1 = lintTail s.dev → EndsDev .lintRecordWrite s fun d =>
      d.lint = { s.dev.lint with queue := q } ∧ counted s.dev d 0xA04C 1 ∧
      (rget s.dev 0xA04C = 0 → isPending d Ev.LINT_DROP))) ∧
  (∀ (v : Word) (s : State), hostServed s.dev 0xA044 →
    (lintTailOk s.dev v = true → EndsDev (.lintTailWrite v) s fun d =>
      lintTail d = v.setWidth 13 ∧ d.lint = s.dev.lint ∧ okay d) ∧
    (lintTailOk s.dev v = false → EndsDev (.lintTailWrite v) s fun d =>
      rget d 0xA044 = rget s.dev 0xA044 ∧ ignored d))

/-- Errors of the on-chip SRAMs. A TILE_GRANT with an upset is one on the state that the upset leaves: that errors come as this
operand is the model's choice (log entry 45). A READ that finds a
dirty line whose check fails is answered with it poisoned, and one that finds a clean line goes on as a miss; the failure
is counted, captured and raised (R184, R185). A CONTRIB that reads a damaged line of its tub fails the tub and is
answered POISON (R185, R244). A lookup in a word of the Blank map corrects a single error, and makes a word that cannot
be corrected all valid (R351); the walk finds a word of the Mend map in the same way: a single error leaves every mark, and a word that
cannot be corrected has all 64 bolts marked, but for the one that the walk then takes up; no other word changes (R374). A record whose
line fails its check reads with VALID 1 and every other field 0 (R359). -/
def Obligations.SramErrorsAreFound : Prop :=
  (∀ (t : Fin 320) (u : Upset) (s : State),
    exec (.tileGrant t (some u)) s = exec (.tileGrant t none) { s with dev := upset s.dev t.val u }) ∧
  (∀ (t : Fin 320) (m w : Nat) (p : Part) (c : Bool) (h : Hint) (x : Txn) (s : State),
    idleSlice (slice s.dev t.val) → idlePanel s.dev (panelOf s.dev t.val) → accepts s.dev t.val = true →
    allSent s.dev → isGranted s.dev t.val m p c → p.op = .read h → p.loc.tile = t.val →
    lineBusy (slice s.dev t.val) p.loc p.bolt = false → findWay (slice s.dev t.val) p.loc = some w →
    (wayOf s.dev p.loc w).crc ≠ entryCrc (wayOf s.dev p.loc w).data → getTxn s.dev p.txn = some x → 2 ≤ x.left → (rget s.dev 0x6034).getLsbD 31 = false →
    ((wayOf s.dev p.loc w).dirty = true → EndsDev (.tileGrant t none) s fun d =>
      getTxn d p.txn = some { x with left := x.left - 1, poisoned := true, lines := minsert x.lines p.idx (0, true) } ∧
      isPending d Ev.PRESS_SRAM ∧ counted s.dev d 0x6030 1 ∧
      rget d 0x6034 = BitVec.ofNat 32 (0xC0000000 + w * 2 ^ 24 + setIndex p.loc * 2 ^ 14 + t.val)) ∧
    ((wayOf s.dev p.loc w).dirty = false → isValid s.dev p.bolt = true → mayCreate s.dev t.val = true →
      mget s.dev.blank.errs (mapWord p.bolt) = none → (svc s.dev t.val).state = .in_ →
      (∀ k, k < 16 → k ≠ w → (wayOf s.dev p.loc k).valid = false) → (slice s.dev t.val).miss = [] →
      EndsDev (.tileGrant t none) s fun d =>
        wayOf d p.loc w = Reset.way ∧ (slice d t.val).miss.map Miss.waiters = [[p]] ∧
        isPending d Ev.PRESS_SRAM ∧ counted s.dev d 0x6030 1 ∧
        rget d 0x6034 = BitVec.ofNat 32 (0x80000000 + w * 2 ^ 24 + setIndex p.loc * 2 ^ 14 + t.val))) ∧
  (∀ (t : Fin 256) (q : Staged) (x : Txn) (inc : Incarnation) (f : TubFlaw) (n i : Nat) (tag : BitVec 8) (tub : Tub) (s : State),
    headAt s.dev t.val false = some q → getTxn s.dev q.txn = some x → getInc s.dev q.gen = some inc → inc.failed = false →
    x.kind = .contrib → x.src = .port n tag → x.silent = false → s.dev.pins.mask.getLsbD n = false →
    s.dev.mangle.tubs = [(i, tub)] → tub.gen = q.gen → tub.state = .open_ → s.dev.mangle.flaws = [f] → f.gen = q.gen →
    let r := (elemRange inc.fmt (tubSector x.addr) x.sectors).1
    let a := r + beatCut inc.fmt x.sectors q.written
    f.lo < r + beatCut inc.fmt x.sectors q.entries → a < f.lo + f.n →
    beatCut inc.fmt x.sectors q.written ≤ beatCut inc.fmt x.sectors q.entries →
    EndsDev (.contribReduced t) s fun d =>
      getInc d q.gen = some { inc with failed := true } ∧ getTub d i = { tub with state := .failed } ∧
      (getPort d n).done = (getPort s.dev n).done ++ [(q.txn, x.reserved, ⟨tag, .poison, [0], [0]⟩)] ∧
      isPending d Ev.PRESS_SRAM ∧ isPending d Ev.TUB_FAILED ∧ counted s.dev d 0x6030 1) ∧
  (∀ (b : BitVec 26) (uncorr : Bool) (s : State), hostServed s.dev 0xA004 → s.dev.blank.known = true → b.toNat ≤ 62914559 →
    s.dev.blank.errs = [(mapWord b.toNat, uncorr)] →
    EndsDev (.blankQuery b) s fun d => okay d ∧ d.blank.errs = [] ∧
      (uncorr = false → d.blank.valid = s.dev.blank.valid ∧
        rbits d 0xA010 15 0 = min (rbits s.dev 0xA010 15 0 + 1) 0xFFFF ∧ rbits d 0xA010 31 16 = rbits s.dev 0xA010 31 16) ∧
      (uncorr = true → rget d 0xA008 = 0x80000001 ∧ isPending d Ev.BLANK_SRAM ∧
        d.blank.valid = blankAdd s.dev.blank.valid (64 * mapWord b.toNat) (64 * mapWord b.toNat + 63) ∧
        rbits d 0xA010 31 16 = min (rbits s.dev 0xA010 31 16 + 1) 0xFFFF ∧
        rbits d 0xA010 15 0 = rbits s.dev 0xA010 15 0)) ∧
  (∀ (p : Fin 20) (t : Nat) (uncorr : Bool) (s : State),
    let pos := (getPanel s.dev p.val).walkPos
    let b := stripeBolt s.dev (walkStripe p.val pos)
    (getPanel s.dev p.val).walkTile = some t → (getPanel s.dev p.val).jobs = [] → s.dev.pins.ck = true → (svc s.dev t).hem.use = .idle →
    inNormal s.dev t = true → pos < panelBolts p.val → s.dev.mend.errs = [(mapWord b, uncorr)] → s.dev.mend.diff.Nodup →
    EndsDev (.walkBolt p) s fun d =>
      d.mend.errs = [] ∧
      (uncorr = false → rbits d 0xB024 15 0 = min (rbits s.dev 0xB024 15 0 + 1) 0xFFFF ∧
        ∀ k, (∀ n, nextMarked s.dev p.val pos = some n → k ≠ stripeBolt s.dev (walkStripe p.val n)) →
          mendHas d k = mendHas s.dev k) ∧
      (uncorr = true → isPending d Ev.MEND_SRAM ∧
        rbits d 0xB024 31 16 = min (rbits s.dev 0xB024 31 16 + 1) 0xFFFF ∧
        (∀ k, mapWord k = mapWord b → k ≠ b → mendHas d k = true) ∧
        ∀ k, mapWord k ≠ mapWord b → mendHas d k = mendHas s.dev k)) ∧
  (∀ (off : BitVec 24) (s : State), hostServed s.dev off.toNat → off.toNat % 4 = 0 →
    0xA060 ≤ off.toNat → off.toNat < 0xA080 →
    lintLive s.dev = true → (mget s.dev.lint.ring ((rget s.dev 0xA048).toNat % 8192)).isSome = true →
    s.dev.lint.bad.contains (diagLine ((rget s.dev 0xA048).toNat % 8192)) = true →
    EndsDev (.rcRead .host ⟨off, 0⟩) s fun d =>
      d.ycp.rsp = some (0, if off.toNat < 0xA064 then 0x80000000 else 0) ∧ isPending d Ev.PRESS_SRAM ∧
      counted s.dev d 0x6030 1 ∧ d.lint.bad.contains (diagLine ((rget s.dev 0xA048).toNat % 8192)) = false)

namespace Sys2Proof.Claims

/-- The causes of an interrupt line (R513): the bits in use of its registers. -/
def causesOf (n : Nat) : Word := BitVec.ofNat 32 (2 ^ ([11, 8, 10, 9, 4, 5, 8, 8].getD n 0) - 1)

end Sys2Proof.Claims

/-- DLC_CTRL: CLEAR sets its counters to 0 and no other (R520), FREEZE holds them (R521); a counter at all-ones raises
TALLY_SAT once (R513). A 1 written to DLI_IRQ_PENDn clears its cause and one written to DLI_IRQ_SETn sets it, on bits in
use (R514, R539); where a clearing write meets an event in one MCLK, the bit ends set (R30). -/
def Obligations.CountersAndInterrupts : Prop :=
  (∀ (mask : BitVec 9) (s : State), hostServed s.dev 0x10000 →
    EndsDev (.tallyClear mask) s fun d => okay d ∧ frozen d = frozen s.dev ∧
      ∀ n, n < 8 → mgetD 0 d.tally.counts n = if mask.getLsbD n then 0 else mgetD 0 s.dev.tally.counts n) ∧
  (∀ (b : Bool) (s : State), hostServed s.dev 0x10000 →
    EndsDev (.tallyFreeze b) s fun d => okay d ∧ frozen d = b ∧ d.tally = s.dev.tally) ∧
  (∀ (n : Fin 8) (s : State), mgetD 0 s.dev.tally.counts n.val = countMax →
    (s.dev.tally.satRaised.getLsbD n.val = false → EndsDev (.tallySat n) s fun d =>
      isPending d Ev.TALLY_SAT ∧ d.tally.satRaised.getLsbD n.val = true) ∧
    (s.dev.tally.satRaised.getLsbD n.val = true → exec (.tallySat n) s = .next s)) ∧
  (∀ (n : Fin 8) (v : Word) (s : State), hostServed s.dev (irqPend n.val) →
    (∀ met : List Occurrence, EndsDev (.irqClear n ⟨v, met⟩) s fun d => okay d ∧
      (∀ k, k < 32 → (rget d (irqPend n.val)).getLsbD k =
        ((rget s.dev (irqPend n.val) &&& ~~~(v &&& causesOf n.val)).getLsbD k ||
          (!s.dev.pins.rstAsserted && (causesOf n.val).getLsbD k && met.any fun x => x.cause.val = k))) ∧
      ∀ off, off ≠ irqPend n.val → rget d off = rget s.dev off) ∧
    (EndsDev (.irqSet n v) s fun d => okay d ∧
      rget d (irqPend n.val) = rget s.dev (irqPend n.val) ||| (v &&& causesOf n.val) ∧
      ∀ off, off ≠ irqPend n.val → off ≠ irqSetOff n.val → rget d off = rget s.dev off))

/-- R33: an RC field clears when the host driver reads it, and a read by the manager returns the value and leaves it in
place. What the hardware adds in the same MCLK is not in the value returned, and stays in the field (R30). No other register
changes with a read, but for the upper half of DLQ_TC_BYTESn, which a host read of the lower half clears with it. A capture that a read has released takes the record
of that MCLK, and the list of DLD_RETIRE its report (R30, R390); that the command brings them with the read is the model's choice (log
entry 1). A read that checks a damaged line of the Lint ring stands in SramErrorsAreFound. -/
def Obligations.OnlyTheHostsReadClears : Prop :=
  (∀ (off : BitVec 24) (met : Word) (s : State), hostServed s.dev off.toNat → isPairLow off.toNat = false →
    isPairHigh off.toNat = false → isCapture off.toNat = false → lintRead s.dev off.toNat = s.dev →
    let add : Word := if s.dev.pins.rstAsserted then 0 else met
    (EndsDev (.rcRead .host ⟨off, met⟩) s fun d =>
      d.ycp.rsp = some (0, regRead s.fuses s.dev off.toNat) ∧
      (∀ x ∈ fieldsAt off.toNat, x.acc = .rc → rbits d off.toNat x.hi x.lo = bits add x.hi x.lo) ∧
      (∀ x ∈ fieldsAt off.toNat, x.acc ≠ .rc → rbits d off.toNat x.hi x.lo = rbits s.dev off.toNat x.hi x.lo) ∧
      (∀ k, k ≠ off.toNat → rget d k = rget s.dev k) ∧ d.tiles = s.dev.tiles) ∧
    (EndsDev (.rcRead .manager ⟨off, met⟩) s fun d =>
      d.ycp.mgr = some (regRead s.fuses s.dev off.toNat) ∧ d.ycp.rsp = s.dev.ycp.rsp ∧
      (∀ x ∈ fieldsAt off.toNat, x.acc = .rc → rbits d off.toNat x.hi x.lo =
        min (rbits s.dev off.toNat x.hi x.lo + bits add x.hi x.lo) (2 ^ (x.hi + 1 - x.lo) - 1)) ∧
      (∀ x ∈ fieldsAt off.toNat, x.acc ≠ .rc → rbits d off.toNat x.hi x.lo = rbits s.dev off.toNat x.hi x.lo) ∧
      (∀ k, k ≠ off.toNat → rget d k = rget s.dev k) ∧ d.tiles = s.dev.tiles)) ∧
  (∀ (a : Agent) (off : BitVec 24) (met : Word) (s : State), hostServed s.dev off.toNat → isCapture off.toNat = true →
    off ≠ 0xB030 → off ≠ 0x4050 →
    let new : Bool := !s.dev.pins.rstAsserted && met.getLsbD 31
    let held : Bool := decide (a = .manager) && (rget s.dev off.toNat).getLsbD 31
    EndsDev (.rcRead a ⟨off, met⟩) s fun d =>
      (a = .host → d.ycp.rsp = some (0, regRead s.fuses s.dev off.toNat)) ∧
      (a = .manager → d.ycp.mgr = some (regRead s.fuses s.dev off.toNat)) ∧
      rbits d off.toNat 31 31 = bit (held || new) ∧
      (∀ x ∈ fieldsAt off.toNat, x.acc = .ro →
        rbits d off.toNat x.hi x.lo = if new && !held then bits met x.hi x.lo else rbits s.dev off.toNat x.hi x.lo) ∧
      (∀ k, k ≠ off.toNat → rget d k = rget s.dev k) ∧ d.tiles = s.dev.tiles) ∧
  (∀ (n : Fin 4) (met : Word) (s : State), hostServed s.dev (0x2140 + 8 * n.val) →
    EndsDev (.rcRead .host ⟨BitVec.ofNat 24 (0x2140 + 8 * n.val), met⟩) s fun d =>
      d.ycp.rsp = some (0, regRead s.fuses s.dev (0x2140 + 8 * n.val)) ∧
      rget d (0x2140 + 8 * n.val) = (if s.dev.pins.rstAsserted then 0 else met) ∧ rget d (0x2144 + 8 * n.val) = 0 ∧
      d.tiles = s.dev.tiles) ∧
  (∀ (met : Word) (w : Retire) (rest : List Retire) (s : State), hostServed s.dev 0xB030 → s.dev.pins.rstAsserted = false →
    s.dev.retire = w :: rest → rest.length < 64 → met.getLsbD 31 = true →
    EndsDev (.rcRead .host ⟨0xB030, met⟩) s fun d =>
      d.ycp.rsp = some (0, BitVec.ofNat 32 (2 ^ 31 + w.toNat)) ∧ d.retire = rest ++ [met &&& 0x7FFFFFFF])

/-- A read of the lower half of a 64-bit pair captures the upper half for the agent, and its next read of the upper half
returns what was captured and ends the capture (R36). The host driver's read of the lower half of an RC pair, DLQ_TC_BYTESn, clears
both halves (R33); the manager's leaves them. No pair of this window has a writable field: a write of either half changes nothing
(R37). -/
def Obligations.SplitPairsAreCaptured : Prop :=
  (∀ (a : Agent) (off : BitVec 24) (s : State), hostServed s.dev off.toNat → isPairLow off.toNat = true →
    EndsDev (.splitLoRead a off) s fun d =>
      capOf? d a = some (off.toNat, regRead s.fuses s.dev (off.toNat + 4)) ∧
      (a = .host → ∀ o, o = off.toNat ∨ o = off.toNat + 4 → ∀ x ∈ fieldsAt o, x.acc = .rc → rbits d o x.hi x.lo = 0) ∧
      (a = .host → d.ycp.rsp = some (0, regRead s.fuses s.dev off.toNat)) ∧
      (a = .manager → d.ycp.mgr = some (regRead s.fuses s.dev off.toNat) ∧ d.regs = s.dev.regs ∧
        d.ycp.capHost = s.dev.ycp.capHost)) ∧
  (∀ (a : Agent) (off : BitVec 24) (w : Word) (s : State), hostServed s.dev off.toNat → isPairHigh off.toNat = true →
    capOf? s.dev a = some (off.toNat - 4, w) →
    EndsDev (.splitHiRead a off) s fun d =>
      capOf? d a = none ∧ (a = .host → d.ycp.rsp = some (0, w)) ∧ (a = .manager → d.ycp.mgr = some w) ∧
      d.regs = s.dev.regs) ∧
  (∀ (c : Instr) (off : BitVec 24) (v : Word) (s : State), hostServed s.dev off.toNat →
    isPairLow off.toNat = true ∨ isPairHigh off.toNat = true →
    c = .splitLoWrite .host off v ∨ c = .splitHiWrite .host off v →
    EndsDev c s fun d => ignored d ∧ regRead s.fuses d off.toNat = regRead s.fuses s.dev off.toNat ∧ d.tiles = s.dev.tiles) ∧
  (∀ (c : Instr) (off : BitVec 24) (v : Word) (s : State), hostServed s.dev off.toNat →
    isPairLow off.toNat = true ∨ isPairHigh off.toNat = true →
    c = .splitLoWrite .manager off v ∨ c = .splitHiWrite .manager off v →
    EndsDev c s fun d => d.tiles = s.dev.tiles ∧ rget d off.toNat = rget s.dev off.toNat ∧ d.ycp.rsp = s.dev.ycp.rsp)

/-- Owners of fields: a host write of a register whose writable fields are the manager's leaves it and logs one record; the
manager's write takes (R31, R32). Of two writes of an HM field in one cycle the manager's value is taken, and CONFLICT is
raised and counted (R34, R476); the host driver's answer is OKAY, which is the model's reading (log entry 40). A plain host register takes its bits. DLQ_PORT_ERRn clears the bits
that are written 1, but those of an error in the same MCLK end set (R30, R148). DLT_SCHED_CTRL takes HWM 1 to 96 with LWM below it
and nothing else (R279). -/
def Obligations.WritesFollowTheirOwners : Prop :=
  (∀ (v : Word) (s : State), hostServed s.dev 0xE0C4 → s.dev.lint.open_ = true → s.dev.lint.queue.length < 64 →
    EndsDev (.registerWrite 0xE0C4 ⟨.host v, []⟩) s fun d =>
      d.regs = s.dev.regs ∧ ignored d ∧ d.lint.queue.length = s.dev.lint.queue.length + 1) ∧
  (∀ (v : Word) (s : State), hostServed s.dev 0xE0C4 → s.dev.pins.rstAsserted = false →
    EndsDev (.registerWrite 0xE0C4 ⟨.manager v, []⟩) s fun d => rbits d 0xE0C4 23 0 = bits v 23 0 ∧
      ∀ off, off ≠ 0xE0C4 → rget d off = rget s.dev off) ∧
  (∀ (hv mv : Word) (s : State), hostServed s.dev 0xE0C0 →
    EndsDev (.registerWrite 0xE0C0 ⟨.both hv mv, []⟩) s fun d =>
      rbits d 0xE0C0 23 0 = bits mv 23 0 ∧ isPending d Ev.CONFLICT ∧ counted s.dev d 0xF048 1 ∧ okay d) ∧
  (∀ (k : Fin 4) (v : Word) (s : State), s.dev.pins.rstPin = false →
    EndsDev (.registerWrite (BitVec.ofNat 24 (0x20 + 4 * k.val)) ⟨.host v, []⟩) s fun d =>
      rget d (0x20 + 4 * k.val) = v ∧ okay d ∧ ∀ off, off ≠ 0x20 + 4 * k.val → rget d off = rget s.dev off) ∧
  (∀ (n : Fin 16) (v : Word) (met : List PortErr) (s : State), hostServed s.dev (0x2040 + 4 * n.val) →
    s.dev.pins.rstAsserted = false →
    EndsDev (.registerWrite (BitVec.ofNat 24 (0x2040 + 4 * n.val)) ⟨.host v, met⟩) s fun d => okay d ∧
      (∀ k, k < 6 → (rget d (0x2040 + 4 * n.val)).getLsbD k =
        (((rget s.dev (0x2040 + 4 * n.val)).getLsbD k && !v.getLsbD k) || met.any fun e => e.kind.val = k)) ∧
      (met ≠ [] → isPending d Ev.PORT_PROTOCOL) ∧
      (∀ e es, met = e :: es → rbits s.dev (0x2040 + 4 * n.val) 5 0 = 0 →
        rbits d (0x2040 + 4 * n.val) 31 24 = e.tag.toNat ∧ rbits d (0x2040 + 4 * n.val) 18 16 = e.kind.val) ∧
      d.txns = s.dev.txns) ∧
  (∀ (t : Fin 320) (v : Word) (s : State), hostServed s.dev (tileOff t.val 0) →
    (1 ≤ bits v 6 0 ∧ bits v 6 0 ≤ 96 ∧ bits v 14 8 < bits v 6 0 → EndsDev (.schedCtrlWrite t v) s fun d =>
      hwm d t.val = bits v 6 0 ∧ lwm d t.val = bits v 14 8 ∧ okay d) ∧
    (¬(1 ≤ bits v 6 0 ∧ bits v 6 0 ≤ 96 ∧ bits v 14 8 < bits v 6 0) → EndsDev (.schedCtrlWrite t v) s fun d =>
      rget d (tileOff t.val 0) = rget s.dev (tileOff t.val 0) ∧ ignored d))

/-- DLI_YCP_ERR captures the first PARITY or NOT_READY response given while VALID is 0, DLI_YCP_ERR_COUNT counts
every one, and neither writes a Lint record. An access with odd parity while it is checked is answered PARITY, one to a
block that is not served NOT_READY; neither acts, and the response's parity makes its ones even (R529, R533, R538). -/
def Obligations.YcpErrorsDoNotAct : Prop :=
  ∀ (w : Bool) (a : BitVec 22) (v : Word) (par : Bool) (s : State), s.dev.pins.rstPin = false →
    let k : Nat := if (rget s.dev 0x14).getLsbD 31 && oddOnes w a v par then 1 else 2
    ((rget s.dev 0x14).getLsbD 31 = true ∧ oddOnes w a v par = true) ∨ served s.dev (a.toNat * 4) = false →
    EndsDev (.ycpErr w a v par) s fun d =>
      d.ycp.rsp = some (if k = 1 then 3 else 2, 0) ∧ d.ycp.par = decide (k = 2) ∧ counted s.dev d 0x34 1 ∧
      rget d 0x30 = (if (rget s.dev 0x30).getLsbD 31 then rget s.dev 0x30
        else BitVec.ofNat 32 (2 ^ 31 + bit w * 2 ^ 30 + k * 2 ^ 28 + a.toNat * 4)) ∧
      (∀ off, off ≠ 0x30 → off ≠ 0x34 → rget d off = rget s.dev off) ∧ d.lint = s.dev.lint ∧ d.tiles = s.dev.tiles ∧ d.boot = s.dev.boot
end

