-- ==== Sys2Proof/Laws/Maps.lean ====
section
/-!
SUPPORT. Maps by number: what a key reads as after an entry is put or removed, and that the canonical form is kept; the
memory of lines, whose operations these are.
-/
namespace Sys2Proof.Machine

variable {α : Type}

@[simp] theorem mget_minsert (m : SMap α) (k : Nat) (a : α) : mget (minsert m k a) k = some a := by
  induction m with
  | nil => simp [minsert, mget]
  | cons e m ih =>
    obtain ⟨j, b⟩ := e
    by_cases h1 : k < j
    · simp [minsert, h1, mget]
    · by_cases h2 : k = j
      · simp [minsert, h2, mget]
      · simp [minsert, h1, h2, mget, ih, Ne.symm h2]

theorem mget_minsert_ne (m : SMap α) (k j : Nat) (a : α) (h : j ≠ k) : mget (minsert m k a) j = mget m j := by
  induction m with
  | nil => simp [minsert, mget, Ne.symm h]
  | cons e m ih =>
    obtain ⟨i, b⟩ := e
    by_cases h1 : k < i
    · simp [minsert, h1, mget, Ne.symm h]
    · by_cases h2 : k = i
      · subst h2; simp [minsert, mget, Ne.symm h]
      · simp [minsert, h1, h2, mget, ih]

@[simp] theorem mget_merase (m : SMap α) (k : Nat) : mget (merase m k) k = none := by
  induction m with
  | nil => rfl
  | cons e m ih =>
    obtain ⟨j, b⟩ := e
    by_cases h : j = k <;> simp [merase, mget, h, ih]

theorem mget_merase_ne (m : SMap α) (k j : Nat) (h : j ≠ k) : mget (merase m k) j = mget m j := by
  induction m with
  | nil => rfl
  | cons e m ih =>
    obtain ⟨i, b⟩ := e
    by_cases h1 : i = k
    · subst h1; simp [merase, mget, Ne.symm h, ih]
    · simp [merase, h1, mget, ih]

variable [DecidableEq α]

@[simp] theorem mgetD_mputD (d : α) (m : SMap α) (k : Nat) (a : α) : mgetD d (mputD d m k a) k = a := by
  by_cases h : a = d <;> simp [mgetD, mputD, h]

theorem mgetD_mputD_ne (d : α) (m : SMap α) (k j : Nat) (a : α) (h : j ≠ k) :
    mgetD d (mputD d m k a) j = mgetD d m j := by
  by_cases ha : a = d <;> simp [mgetD, mputD, ha, mget_merase_ne, mget_minsert_ne, h]

/-! ## The canonical form -/

omit [DecidableEq α] in
theorem keysFrom_mono {lo hi : Nat} (h : lo ≤ hi) {m : SMap α} (hm : keysFrom hi m = true) : keysFrom lo m = true := by
  cases m with
  | nil => rfl
  | cons e m =>
    obtain ⟨j, b⟩ := e
    simp only [keysFrom, Bool.and_eq_true, decide_eq_true_eq] at hm ⊢
    exact ⟨by omega, hm.2⟩

omit [DecidableEq α] in
theorem keysFrom_minsert {m : SMap α} {lo : Nat} (hm : keysFrom lo m = true) (k : Nat) (a : α) (hk : lo ≤ k) :
    keysFrom lo (minsert m k a) = true := by
  induction m generalizing lo with
  | nil => simp [minsert, keysFrom, hk]
  | cons e m ih =>
    obtain ⟨j, b⟩ := e
    simp only [keysFrom, Bool.and_eq_true, decide_eq_true_eq] at hm
    by_cases h1 : k < j
    · simp [minsert, h1, keysFrom, hk, hm.2]
    · by_cases h2 : k = j
      · subst h2; simp [minsert, keysFrom, hm.1, hm.2]
      · simp [minsert, h1, h2, keysFrom, hm.1, ih hm.2 (by omega)]

omit [DecidableEq α] in
theorem keysFrom_merase {m : SMap α} {lo : Nat} (hm : keysFrom lo m = true) (k : Nat) :
    keysFrom lo (merase m k) = true := by
  induction m generalizing lo with
  | nil => rfl
  | cons e m ih =>
    obtain ⟨j, b⟩ := e
    simp only [keysFrom, Bool.and_eq_true, decide_eq_true_eq] at hm
    by_cases h : j = k
    · simp [merase, h]; exact keysFrom_mono (by omega) (ih hm.2)
    · simp [merase, h, keysFrom, hm.1, ih hm.2]

omit [DecidableEq α] in
theorem keysFrom_filter {m : SMap α} {lo : Nat} (hm : keysFrom lo m = true) (p : Nat × α → Bool) :
    keysFrom lo (m.filter p) = true := by
  induction m generalizing lo with
  | nil => rfl
  | cons e m ih =>
    obtain ⟨j, b⟩ := e
    simp only [keysFrom, Bool.and_eq_true, decide_eq_true_eq] at hm
    by_cases h : p (j, b) = true
    · simp [List.filter, h, keysFrom, hm.1, ih hm.2]
    · simp [List.filter, h]; exact keysFrom_mono (by omega) (ih hm.2)

theorem keysFrom_mputD {m : SMap α} {lo : Nat} (hm : keysFrom lo m = true) (d : α) (k : Nat) (a : α) (hk : lo ≤ k) :
    keysFrom lo (mputD d m k a) = true := by
  unfold mputD
  split
  · exact keysFrom_merase hm k
  · exact keysFrom_minsert hm k a hk

/-! ## The memory of lines -/

@[simp] theorem memGet_memPut (m : SMap DLine) (k : Nat) (x : DLine) : memGet (memPut m k x) k = some x := by
  simp [memGet, memPut]
theorem memGet_memPut_ne (m : SMap DLine) (k j : Nat) (x : DLine) (h : j ≠ k) : memGet (memPut m k x) j = memGet m j := by
  simp [memGet, memPut, mget_minsert_ne, h]

/-- Every operation on the memory keeps its canonical form: a line put, a line made undefined, a selection of lines. -/
theorem wf_memPut {m : SMap DLine} (h : Memory.wf m = true) (k : Nat) (x : DLine) : Memory.wf (memPut m k x) = true :=
  keysFrom_minsert h k x (Nat.zero_le k)
theorem wf_merase {m : SMap DLine} (h : Memory.wf m = true) (k : Nat) : Memory.wf (merase m k) = true := keysFrom_merase h k
theorem wf_filter {m : SMap DLine} (h : Memory.wf m = true) (p : Nat × DLine → Bool) : Memory.wf (m.filter p) = true :=
  keysFrom_filter h p

/-- Two lines of one channel, or of two, have the same key only where they are the same line. -/
theorem lineKey_inj {t b r c t' b' r' c' : Nat} (hb : b < 64) (hb' : b' < 64) (hr : r < 16384) (hr' : r' < 16384)
    (hc : c < 32) (hc' : c' < 32) (h : lineKey t b r c = lineKey t' b' r' c') : t = t' ∧ b = b' ∧ r = r' ∧ c = c' := by
  unfold lineKey at h
  omega

end Sys2Proof.Machine
end

