-- ==== Sys2Proof/Laws/State.lean ====
section
/-!
SUPPORT. The named updates of an instance: for each update and each field it does not touch, that the field stays; and
what a part reads as after it has been put. No proof needs to unfold a record update.
-/
namespace Sys2Proof.Machine

section Fields
variable (d : Dev)

@[simp] theorem rset_pins (off : Nat) (v : Word) : (rset d off v).pins = d.pins := rfl
@[simp] theorem rset_cycle (off : Nat) (v : Word) : (rset d off v).cycle = d.cycle := rfl
@[simp] theorem rset_free (off : Nat) (v : Word) : (rset d off v).free = d.free := rfl
@[simp] theorem rset_ycp (off : Nat) (v : Word) : (rset d off v).ycp = d.ycp := rfl
@[simp] theorem rset_boot (off : Nat) (v : Word) : (rset d off v).boot = d.boot := rfl
@[simp] theorem rset_nextTxn (off : Nat) (v : Word) : (rset d off v).nextTxn = d.nextTxn := rfl
@[simp] theorem rset_txns (off : Nat) (v : Word) : (rset d off v).txns = d.txns := rfl
@[simp] theorem rset_ports (off : Nat) (v : Word) : (rset d off v).ports = d.ports := rfl
@[simp] theorem rset_reg (off : Nat) (v : Word) : (rset d off v).reg = d.reg := rfl
@[simp] theorem rset_tiles (off : Nat) (v : Word) : (rset d off v).tiles = d.tiles := rfl
@[simp] theorem rset_nextJob (off : Nat) (v : Word) : (rset d off v).nextJob = d.nextJob := rfl
@[simp] theorem rset_jobs (off : Nat) (v : Word) : (rset d off v).jobs = d.jobs := rfl
@[simp] theorem rset_panels (off : Nat) (v : Word) : (rset d off v).panels = d.panels := rfl
@[simp] theorem rset_blank (off : Nat) (v : Word) : (rset d off v).blank = d.blank := rfl
@[simp] theorem rset_mend (off : Nat) (v : Word) : (rset d off v).mend = d.mend := rfl
@[simp] theorem rset_lastUse (off : Nat) (v : Word) : (rset d off v).lastUse = d.lastUse := rfl
@[simp] theorem rset_maint (off : Nat) (v : Word) : (rset d off v).maint = d.maint := rfl
@[simp] theorem rset_sweep (off : Nat) (v : Word) : (rset d off v).sweep = d.sweep := rfl
@[simp] theorem rset_polled (off : Nat) (v : Word) : (rset d off v).polled = d.polled := rfl
@[simp] theorem rset_layer (off : Nat) (v : Word) : (rset d off v).layer = d.layer := rfl
@[simp] theorem rset_layers (off : Nat) (v : Word) : (rset d off v).layers = d.layers := rfl
@[simp] theorem rset_hbms (off : Nat) (v : Word) : (rset d off v).hbms = d.hbms := rfl
@[simp] theorem rset_mangle (off : Nat) (v : Word) : (rset d off v).mangle = d.mangle := rfl
@[simp] theorem rset_heat (off : Nat) (v : Word) : (rset d off v).heat = d.heat := rfl
@[simp] theorem rset_energy (off : Nat) (v : Word) : (rset d off v).energy = d.energy := rfl
@[simp] theorem rset_link (off : Nat) (v : Word) : (rset d off v).link = d.link := rfl
@[simp] theorem rset_tally (off : Nat) (v : Word) : (rset d off v).tally = d.tally := rfl
@[simp] theorem rset_lint (off : Nat) (v : Word) : (rset d off v).lint = d.lint := rfl
@[simp] theorem rset_retire (off : Nat) (v : Word) : (rset d off v).retire = d.retire := rfl
@[simp] theorem rset_lifts (off : Nat) (v : Word) : (rset d off v).lifts = d.lifts := rfl

@[simp] theorem rsetBits_pins (off hi lo v : Nat) : (rsetBits d off hi lo v).pins = d.pins := rfl
@[simp] theorem rsetBits_cycle (off hi lo v : Nat) : (rsetBits d off hi lo v).cycle = d.cycle := rfl
@[simp] theorem rsetBits_free (off hi lo v : Nat) : (rsetBits d off hi lo v).free = d.free := rfl
@[simp] theorem rsetBits_ycp (off hi lo v : Nat) : (rsetBits d off hi lo v).ycp = d.ycp := rfl
@[simp] theorem rsetBits_boot (off hi lo v : Nat) : (rsetBits d off hi lo v).boot = d.boot := rfl
@[simp] theorem rsetBits_nextTxn (off hi lo v : Nat) : (rsetBits d off hi lo v).nextTxn = d.nextTxn := rfl
@[simp] theorem rsetBits_txns (off hi lo v : Nat) : (rsetBits d off hi lo v).txns = d.txns := rfl
@[simp] theorem rsetBits_ports (off hi lo v : Nat) : (rsetBits d off hi lo v).ports = d.ports := rfl
@[simp] theorem rsetBits_reg (off hi lo v : Nat) : (rsetBits d off hi lo v).reg = d.reg := rfl
@[simp] theorem rsetBits_tiles (off hi lo v : Nat) : (rsetBits d off hi lo v).tiles = d.tiles := rfl
@[simp] theorem rsetBits_nextJob (off hi lo v : Nat) : (rsetBits d off hi lo v).nextJob = d.nextJob := rfl
@[simp] theorem rsetBits_jobs (off hi lo v : Nat) : (rsetBits d off hi lo v).jobs = d.jobs := rfl
@[simp] theorem rsetBits_panels (off hi lo v : Nat) : (rsetBits d off hi lo v).panels = d.panels := rfl
@[simp] theorem rsetBits_blank (off hi lo v : Nat) : (rsetBits d off hi lo v).blank = d.blank := rfl
@[simp] theorem rsetBits_mend (off hi lo v : Nat) : (rsetBits d off hi lo v).mend = d.mend := rfl
@[simp] theorem rsetBits_lastUse (off hi lo v : Nat) : (rsetBits d off hi lo v).lastUse = d.lastUse := rfl
@[simp] theorem rsetBits_maint (off hi lo v : Nat) : (rsetBits d off hi lo v).maint = d.maint := rfl
@[simp] theorem rsetBits_sweep (off hi lo v : Nat) : (rsetBits d off hi lo v).sweep = d.sweep := rfl
@[simp] theorem rsetBits_polled (off hi lo v : Nat) : (rsetBits d off hi lo v).polled = d.polled := rfl
@[simp] theorem rsetBits_layer (off hi lo v : Nat) : (rsetBits d off hi lo v).layer = d.layer := rfl
@[simp] theorem rsetBits_layers (off hi lo v : Nat) : (rsetBits d off hi lo v).layers = d.layers := rfl
@[simp] theorem rsetBits_hbms (off hi lo v : Nat) : (rsetBits d off hi lo v).hbms = d.hbms := rfl
@[simp] theorem rsetBits_mangle (off hi lo v : Nat) : (rsetBits d off hi lo v).mangle = d.mangle := rfl
@[simp] theorem rsetBits_heat (off hi lo v : Nat) : (rsetBits d off hi lo v).heat = d.heat := rfl
@[simp] theorem rsetBits_energy (off hi lo v : Nat) : (rsetBits d off hi lo v).energy = d.energy := rfl
@[simp] theorem rsetBits_link (off hi lo v : Nat) : (rsetBits d off hi lo v).link = d.link := rfl
@[simp] theorem rsetBits_tally (off hi lo v : Nat) : (rsetBits d off hi lo v).tally = d.tally := rfl
@[simp] theorem rsetBits_lint (off hi lo v : Nat) : (rsetBits d off hi lo v).lint = d.lint := rfl
@[simp] theorem rsetBits_retire (off hi lo v : Nat) : (rsetBits d off hi lo v).retire = d.retire := rfl
@[simp] theorem rsetBits_lifts (off hi lo v : Nat) : (rsetBits d off hi lo v).lifts = d.lifts := rfl

@[simp] theorem rcount_pins (off hi lo n : Nat) : (rcount d off hi lo n).pins = d.pins := rfl
@[simp] theorem rcount_cycle (off hi lo n : Nat) : (rcount d off hi lo n).cycle = d.cycle := rfl
@[simp] theorem rcount_free (off hi lo n : Nat) : (rcount d off hi lo n).free = d.free := rfl
@[simp] theorem rcount_ycp (off hi lo n : Nat) : (rcount d off hi lo n).ycp = d.ycp := rfl
@[simp] theorem rcount_boot (off hi lo n : Nat) : (rcount d off hi lo n).boot = d.boot := rfl
@[simp] theorem rcount_nextTxn (off hi lo n : Nat) : (rcount d off hi lo n).nextTxn = d.nextTxn := rfl
@[simp] theorem rcount_txns (off hi lo n : Nat) : (rcount d off hi lo n).txns = d.txns := rfl
@[simp] theorem rcount_ports (off hi lo n : Nat) : (rcount d off hi lo n).ports = d.ports := rfl
@[simp] theorem rcount_reg (off hi lo n : Nat) : (rcount d off hi lo n).reg = d.reg := rfl
@[simp] theorem rcount_tiles (off hi lo n : Nat) : (rcount d off hi lo n).tiles = d.tiles := rfl
@[simp] theorem rcount_nextJob (off hi lo n : Nat) : (rcount d off hi lo n).nextJob = d.nextJob := rfl
@[simp] theorem rcount_jobs (off hi lo n : Nat) : (rcount d off hi lo n).jobs = d.jobs := rfl
@[simp] theorem rcount_panels (off hi lo n : Nat) : (rcount d off hi lo n).panels = d.panels := rfl
@[simp] theorem rcount_blank (off hi lo n : Nat) : (rcount d off hi lo n).blank = d.blank := rfl
@[simp] theorem rcount_mend (off hi lo n : Nat) : (rcount d off hi lo n).mend = d.mend := rfl
@[simp] theorem rcount_lastUse (off hi lo n : Nat) : (rcount d off hi lo n).lastUse = d.lastUse := rfl
@[simp] theorem rcount_maint (off hi lo n : Nat) : (rcount d off hi lo n).maint = d.maint := rfl
@[simp] theorem rcount_sweep (off hi lo n : Nat) : (rcount d off hi lo n).sweep = d.sweep := rfl
@[simp] theorem rcount_polled (off hi lo n : Nat) : (rcount d off hi lo n).polled = d.polled := rfl
@[simp] theorem rcount_layer (off hi lo n : Nat) : (rcount d off hi lo n).layer = d.layer := rfl
@[simp] theorem rcount_layers (off hi lo n : Nat) : (rcount d off hi lo n).layers = d.layers := rfl
@[simp] theorem rcount_hbms (off hi lo n : Nat) : (rcount d off hi lo n).hbms = d.hbms := rfl
@[simp] theorem rcount_mangle (off hi lo n : Nat) : (rcount d off hi lo n).mangle = d.mangle := rfl
@[simp] theorem rcount_heat (off hi lo n : Nat) : (rcount d off hi lo n).heat = d.heat := rfl
@[simp] theorem rcount_energy (off hi lo n : Nat) : (rcount d off hi lo n).energy = d.energy := rfl
@[simp] theorem rcount_link (off hi lo n : Nat) : (rcount d off hi lo n).link = d.link := rfl
@[simp] theorem rcount_tally (off hi lo n : Nat) : (rcount d off hi lo n).tally = d.tally := rfl
@[simp] theorem rcount_lint (off hi lo n : Nat) : (rcount d off hi lo n).lint = d.lint := rfl
@[simp] theorem rcount_retire (off hi lo n : Nat) : (rcount d off hi lo n).retire = d.retire := rfl
@[simp] theorem rcount_lifts (off hi lo n : Nat) : (rcount d off hi lo n).lifts = d.lifts := rfl

@[simp] theorem rinc_pins (off n : Nat) : (rinc d off n).pins = d.pins := rfl
@[simp] theorem rinc_cycle (off n : Nat) : (rinc d off n).cycle = d.cycle := rfl
@[simp] theorem rinc_free (off n : Nat) : (rinc d off n).free = d.free := rfl
@[simp] theorem rinc_ycp (off n : Nat) : (rinc d off n).ycp = d.ycp := rfl
@[simp] theorem rinc_boot (off n : Nat) : (rinc d off n).boot = d.boot := rfl
@[simp] theorem rinc_nextTxn (off n : Nat) : (rinc d off n).nextTxn = d.nextTxn := rfl
@[simp] theorem rinc_txns (off n : Nat) : (rinc d off n).txns = d.txns := rfl
@[simp] theorem rinc_ports (off n : Nat) : (rinc d off n).ports = d.ports := rfl
@[simp] theorem rinc_reg (off n : Nat) : (rinc d off n).reg = d.reg := rfl
@[simp] theorem rinc_tiles (off n : Nat) : (rinc d off n).tiles = d.tiles := rfl
@[simp] theorem rinc_nextJob (off n : Nat) : (rinc d off n).nextJob = d.nextJob := rfl
@[simp] theorem rinc_jobs (off n : Nat) : (rinc d off n).jobs = d.jobs := rfl
@[simp] theorem rinc_panels (off n : Nat) : (rinc d off n).panels = d.panels := rfl
@[simp] theorem rinc_blank (off n : Nat) : (rinc d off n).blank = d.blank := rfl
@[simp] theorem rinc_mend (off n : Nat) : (rinc d off n).mend = d.mend := rfl
@[simp] theorem rinc_lastUse (off n : Nat) : (rinc d off n).lastUse = d.lastUse := rfl
@[simp] theorem rinc_maint (off n : Nat) : (rinc d off n).maint = d.maint := rfl
@[simp] theorem rinc_sweep (off n : Nat) : (rinc d off n).sweep = d.sweep := rfl
@[simp] theorem rinc_polled (off n : Nat) : (rinc d off n).polled = d.polled := rfl
@[simp] theorem rinc_layer (off n : Nat) : (rinc d off n).layer = d.layer := rfl
@[simp] theorem rinc_layers (off n : Nat) : (rinc d off n).layers = d.layers := rfl
@[simp] theorem rinc_hbms (off n : Nat) : (rinc d off n).hbms = d.hbms := rfl
@[simp] theorem rinc_mangle (off n : Nat) : (rinc d off n).mangle = d.mangle := rfl
@[simp] theorem rinc_heat (off n : Nat) : (rinc d off n).heat = d.heat := rfl
@[simp] theorem rinc_energy (off n : Nat) : (rinc d off n).energy = d.energy := rfl
@[simp] theorem rinc_link (off n : Nat) : (rinc d off n).link = d.link := rfl
@[simp] theorem rinc_tally (off n : Nat) : (rinc d off n).tally = d.tally := rfl
@[simp] theorem rinc_lint (off n : Nat) : (rinc d off n).lint = d.lint := rfl
@[simp] theorem rinc_retire (off n : Nat) : (rinc d off n).retire = d.retire := rfl
@[simp] theorem rinc_lifts (off n : Nat) : (rinc d off n).lifts = d.lifts := rfl

@[simp] theorem setTile_pins (t : Nat) (x : Tile) : (setTile d t x).pins = d.pins := rfl
@[simp] theorem setTile_cycle (t : Nat) (x : Tile) : (setTile d t x).cycle = d.cycle := rfl
@[simp] theorem setTile_free (t : Nat) (x : Tile) : (setTile d t x).free = d.free := rfl
@[simp] theorem setTile_regs (t : Nat) (x : Tile) : (setTile d t x).regs = d.regs := rfl
@[simp] theorem setTile_ycp (t : Nat) (x : Tile) : (setTile d t x).ycp = d.ycp := rfl
@[simp] theorem setTile_boot (t : Nat) (x : Tile) : (setTile d t x).boot = d.boot := rfl
@[simp] theorem setTile_nextTxn (t : Nat) (x : Tile) : (setTile d t x).nextTxn = d.nextTxn := rfl
@[simp] theorem setTile_txns (t : Nat) (x : Tile) : (setTile d t x).txns = d.txns := rfl
@[simp] theorem setTile_ports (t : Nat) (x : Tile) : (setTile d t x).ports = d.ports := rfl
@[simp] theorem setTile_reg (t : Nat) (x : Tile) : (setTile d t x).reg = d.reg := rfl
@[simp] theorem setTile_nextJob (t : Nat) (x : Tile) : (setTile d t x).nextJob = d.nextJob := rfl
@[simp] theorem setTile_jobs (t : Nat) (x : Tile) : (setTile d t x).jobs = d.jobs := rfl
@[simp] theorem setTile_panels (t : Nat) (x : Tile) : (setTile d t x).panels = d.panels := rfl
@[simp] theorem setTile_blank (t : Nat) (x : Tile) : (setTile d t x).blank = d.blank := rfl
@[simp] theorem setTile_mend (t : Nat) (x : Tile) : (setTile d t x).mend = d.mend := rfl
@[simp] theorem setTile_lastUse (t : Nat) (x : Tile) : (setTile d t x).lastUse = d.lastUse := rfl
@[simp] theorem setTile_maint (t : Nat) (x : Tile) : (setTile d t x).maint = d.maint := rfl
@[simp] theorem setTile_sweep (t : Nat) (x : Tile) : (setTile d t x).sweep = d.sweep := rfl
@[simp] theorem setTile_polled (t : Nat) (x : Tile) : (setTile d t x).polled = d.polled := rfl
@[simp] theorem setTile_layer (t : Nat) (x : Tile) : (setTile d t x).layer = d.layer := rfl
@[simp] theorem setTile_layers (t : Nat) (x : Tile) : (setTile d t x).layers = d.layers := rfl
@[simp] theorem setTile_hbms (t : Nat) (x : Tile) : (setTile d t x).hbms = d.hbms := rfl
@[simp] theorem setTile_mangle (t : Nat) (x : Tile) : (setTile d t x).mangle = d.mangle := rfl
@[simp] theorem setTile_heat (t : Nat) (x : Tile) : (setTile d t x).heat = d.heat := rfl
@[simp] theorem setTile_energy (t : Nat) (x : Tile) : (setTile d t x).energy = d.energy := rfl
@[simp] theorem setTile_link (t : Nat) (x : Tile) : (setTile d t x).link = d.link := rfl
@[simp] theorem setTile_tally (t : Nat) (x : Tile) : (setTile d t x).tally = d.tally := rfl
@[simp] theorem setTile_lint (t : Nat) (x : Tile) : (setTile d t x).lint = d.lint := rfl
@[simp] theorem setTile_retire (t : Nat) (x : Tile) : (setTile d t x).retire = d.retire := rfl
@[simp] theorem setTile_lifts (t : Nat) (x : Tile) : (setTile d t x).lifts = d.lifts := rfl

@[simp] theorem onSlice_pins (t : Nat) (f : Slice → Slice) : (onSlice d t f).pins = d.pins := rfl
@[simp] theorem onSlice_cycle (t : Nat) (f : Slice → Slice) : (onSlice d t f).cycle = d.cycle := rfl
@[simp] theorem onSlice_free (t : Nat) (f : Slice → Slice) : (onSlice d t f).free = d.free := rfl
@[simp] theorem onSlice_regs (t : Nat) (f : Slice → Slice) : (onSlice d t f).regs = d.regs := rfl
@[simp] theorem onSlice_ycp (t : Nat) (f : Slice → Slice) : (onSlice d t f).ycp = d.ycp := rfl
@[simp] theorem onSlice_boot (t : Nat) (f : Slice → Slice) : (onSlice d t f).boot = d.boot := rfl
@[simp] theorem onSlice_nextTxn (t : Nat) (f : Slice → Slice) : (onSlice d t f).nextTxn = d.nextTxn := rfl
@[simp] theorem onSlice_txns (t : Nat) (f : Slice → Slice) : (onSlice d t f).txns = d.txns := rfl
@[simp] theorem onSlice_ports (t : Nat) (f : Slice → Slice) : (onSlice d t f).ports = d.ports := rfl
@[simp] theorem onSlice_reg (t : Nat) (f : Slice → Slice) : (onSlice d t f).reg = d.reg := rfl
@[simp] theorem onSlice_nextJob (t : Nat) (f : Slice → Slice) : (onSlice d t f).nextJob = d.nextJob := rfl
@[simp] theorem onSlice_jobs (t : Nat) (f : Slice → Slice) : (onSlice d t f).jobs = d.jobs := rfl
@[simp] theorem onSlice_panels (t : Nat) (f : Slice → Slice) : (onSlice d t f).panels = d.panels := rfl
@[simp] theorem onSlice_blank (t : Nat) (f : Slice → Slice) : (onSlice d t f).blank = d.blank := rfl
@[simp] theorem onSlice_mend (t : Nat) (f : Slice → Slice) : (onSlice d t f).mend = d.mend := rfl
@[simp] theorem onSlice_lastUse (t : Nat) (f : Slice → Slice) : (onSlice d t f).lastUse = d.lastUse := rfl
@[simp] theorem onSlice_maint (t : Nat) (f : Slice → Slice) : (onSlice d t f).maint = d.maint := rfl
@[simp] theorem onSlice_sweep (t : Nat) (f : Slice → Slice) : (onSlice d t f).sweep = d.sweep := rfl
@[simp] theorem onSlice_polled (t : Nat) (f : Slice → Slice) : (onSlice d t f).polled = d.polled := rfl
@[simp] theorem onSlice_layer (t : Nat) (f : Slice → Slice) : (onSlice d t f).layer = d.layer := rfl
@[simp] theorem onSlice_layers (t : Nat) (f : Slice → Slice) : (onSlice d t f).layers = d.layers := rfl
@[simp] theorem onSlice_hbms (t : Nat) (f : Slice → Slice) : (onSlice d t f).hbms = d.hbms := rfl
@[simp] theorem onSlice_mangle (t : Nat) (f : Slice → Slice) : (onSlice d t f).mangle = d.mangle := rfl
@[simp] theorem onSlice_heat (t : Nat) (f : Slice → Slice) : (onSlice d t f).heat = d.heat := rfl
@[simp] theorem onSlice_energy (t : Nat) (f : Slice → Slice) : (onSlice d t f).energy = d.energy := rfl
@[simp] theorem onSlice_link (t : Nat) (f : Slice → Slice) : (onSlice d t f).link = d.link := rfl
@[simp] theorem onSlice_tally (t : Nat) (f : Slice → Slice) : (onSlice d t f).tally = d.tally := rfl
@[simp] theorem onSlice_lint (t : Nat) (f : Slice → Slice) : (onSlice d t f).lint = d.lint := rfl
@[simp] theorem onSlice_retire (t : Nat) (f : Slice → Slice) : (onSlice d t f).retire = d.retire := rfl
@[simp] theorem onSlice_lifts (t : Nat) (f : Slice → Slice) : (onSlice d t f).lifts = d.lifts := rfl

@[simp] theorem onChan_pins (t : Nat) (f : Chan → Chan) : (onChan d t f).pins = d.pins := rfl
@[simp] theorem onChan_cycle (t : Nat) (f : Chan → Chan) : (onChan d t f).cycle = d.cycle := rfl
@[simp] theorem onChan_free (t : Nat) (f : Chan → Chan) : (onChan d t f).free = d.free := rfl
@[simp] theorem onChan_regs (t : Nat) (f : Chan → Chan) : (onChan d t f).regs = d.regs := rfl
@[simp] theorem onChan_ycp (t : Nat) (f : Chan → Chan) : (onChan d t f).ycp = d.ycp := rfl
@[simp] theorem onChan_boot (t : Nat) (f : Chan → Chan) : (onChan d t f).boot = d.boot := rfl
@[simp] theorem onChan_nextTxn (t : Nat) (f : Chan → Chan) : (onChan d t f).nextTxn = d.nextTxn := rfl
@[simp] theorem onChan_txns (t : Nat) (f : Chan → Chan) : (onChan d t f).txns = d.txns := rfl
@[simp] theorem onChan_ports (t : Nat) (f : Chan → Chan) : (onChan d t f).ports = d.ports := rfl
@[simp] theorem onChan_reg (t : Nat) (f : Chan → Chan) : (onChan d t f).reg = d.reg := rfl
@[simp] theorem onChan_nextJob (t : Nat) (f : Chan → Chan) : (onChan d t f).nextJob = d.nextJob := rfl
@[simp] theorem onChan_jobs (t : Nat) (f : Chan → Chan) : (onChan d t f).jobs = d.jobs := rfl
@[simp] theorem onChan_panels (t : Nat) (f : Chan → Chan) : (onChan d t f).panels = d.panels := rfl
@[simp] theorem onChan_blank (t : Nat) (f : Chan → Chan) : (onChan d t f).blank = d.blank := rfl
@[simp] theorem onChan_mend (t : Nat) (f : Chan → Chan) : (onChan d t f).mend = d.mend := rfl
@[simp] theorem onChan_lastUse (t : Nat) (f : Chan → Chan) : (onChan d t f).lastUse = d.lastUse := rfl
@[simp] theorem onChan_maint (t : Nat) (f : Chan → Chan) : (onChan d t f).maint = d.maint := rfl
@[simp] theorem onChan_sweep (t : Nat) (f : Chan → Chan) : (onChan d t f).sweep = d.sweep := rfl
@[simp] theorem onChan_polled (t : Nat) (f : Chan → Chan) : (onChan d t f).polled = d.polled := rfl
@[simp] theorem onChan_layer (t : Nat) (f : Chan → Chan) : (onChan d t f).layer = d.layer := rfl
@[simp] theorem onChan_layers (t : Nat) (f : Chan → Chan) : (onChan d t f).layers = d.layers := rfl
@[simp] theorem onChan_hbms (t : Nat) (f : Chan → Chan) : (onChan d t f).hbms = d.hbms := rfl
@[simp] theorem onChan_mangle (t : Nat) (f : Chan → Chan) : (onChan d t f).mangle = d.mangle := rfl
@[simp] theorem onChan_heat (t : Nat) (f : Chan → Chan) : (onChan d t f).heat = d.heat := rfl
@[simp] theorem onChan_energy (t : Nat) (f : Chan → Chan) : (onChan d t f).energy = d.energy := rfl
@[simp] theorem onChan_link (t : Nat) (f : Chan → Chan) : (onChan d t f).link = d.link := rfl
@[simp] theorem onChan_tally (t : Nat) (f : Chan → Chan) : (onChan d t f).tally = d.tally := rfl
@[simp] theorem onChan_lint (t : Nat) (f : Chan → Chan) : (onChan d t f).lint = d.lint := rfl
@[simp] theorem onChan_retire (t : Nat) (f : Chan → Chan) : (onChan d t f).retire = d.retire := rfl
@[simp] theorem onChan_lifts (t : Nat) (f : Chan → Chan) : (onChan d t f).lifts = d.lifts := rfl

@[simp] theorem onSvc_pins (t : Nat) (f : Svc → Svc) : (onSvc d t f).pins = d.pins := rfl
@[simp] theorem onSvc_cycle (t : Nat) (f : Svc → Svc) : (onSvc d t f).cycle = d.cycle := rfl
@[simp] theorem onSvc_free (t : Nat) (f : Svc → Svc) : (onSvc d t f).free = d.free := rfl
@[simp] theorem onSvc_regs (t : Nat) (f : Svc → Svc) : (onSvc d t f).regs = d.regs := rfl
@[simp] theorem onSvc_ycp (t : Nat) (f : Svc → Svc) : (onSvc d t f).ycp = d.ycp := rfl
@[simp] theorem onSvc_boot (t : Nat) (f : Svc → Svc) : (onSvc d t f).boot = d.boot := rfl
@[simp] theorem onSvc_nextTxn (t : Nat) (f : Svc → Svc) : (onSvc d t f).nextTxn = d.nextTxn := rfl
@[simp] theorem onSvc_txns (t : Nat) (f : Svc → Svc) : (onSvc d t f).txns = d.txns := rfl
@[simp] theorem onSvc_ports (t : Nat) (f : Svc → Svc) : (onSvc d t f).ports = d.ports := rfl
@[simp] theorem onSvc_reg (t : Nat) (f : Svc → Svc) : (onSvc d t f).reg = d.reg := rfl
@[simp] theorem onSvc_nextJob (t : Nat) (f : Svc → Svc) : (onSvc d t f).nextJob = d.nextJob := rfl
@[simp] theorem onSvc_jobs (t : Nat) (f : Svc → Svc) : (onSvc d t f).jobs = d.jobs := rfl
@[simp] theorem onSvc_panels (t : Nat) (f : Svc → Svc) : (onSvc d t f).panels = d.panels := rfl
@[simp] theorem onSvc_blank (t : Nat) (f : Svc → Svc) : (onSvc d t f).blank = d.blank := rfl
@[simp] theorem onSvc_mend (t : Nat) (f : Svc → Svc) : (onSvc d t f).mend = d.mend := rfl
@[simp] theorem onSvc_lastUse (t : Nat) (f : Svc → Svc) : (onSvc d t f).lastUse = d.lastUse := rfl
@[simp] theorem onSvc_maint (t : Nat) (f : Svc → Svc) : (onSvc d t f).maint = d.maint := rfl
@[simp] theorem onSvc_sweep (t : Nat) (f : Svc → Svc) : (onSvc d t f).sweep = d.sweep := rfl
@[simp] theorem onSvc_polled (t : Nat) (f : Svc → Svc) : (onSvc d t f).polled = d.polled := rfl
@[simp] theorem onSvc_layer (t : Nat) (f : Svc → Svc) : (onSvc d t f).layer = d.layer := rfl
@[simp] theorem onSvc_layers (t : Nat) (f : Svc → Svc) : (onSvc d t f).layers = d.layers := rfl
@[simp] theorem onSvc_hbms (t : Nat) (f : Svc → Svc) : (onSvc d t f).hbms = d.hbms := rfl
@[simp] theorem onSvc_mangle (t : Nat) (f : Svc → Svc) : (onSvc d t f).mangle = d.mangle := rfl
@[simp] theorem onSvc_heat (t : Nat) (f : Svc → Svc) : (onSvc d t f).heat = d.heat := rfl
@[simp] theorem onSvc_energy (t : Nat) (f : Svc → Svc) : (onSvc d t f).energy = d.energy := rfl
@[simp] theorem onSvc_link (t : Nat) (f : Svc → Svc) : (onSvc d t f).link = d.link := rfl
@[simp] theorem onSvc_tally (t : Nat) (f : Svc → Svc) : (onSvc d t f).tally = d.tally := rfl
@[simp] theorem onSvc_lint (t : Nat) (f : Svc → Svc) : (onSvc d t f).lint = d.lint := rfl
@[simp] theorem onSvc_retire (t : Nat) (f : Svc → Svc) : (onSvc d t f).retire = d.retire := rfl
@[simp] theorem onSvc_lifts (t : Nat) (f : Svc → Svc) : (onSvc d t f).lifts = d.lifts := rfl

@[simp] theorem onHem_pins (t : Nat) (f : Hem → Hem) : (onHem d t f).pins = d.pins := rfl
@[simp] theorem onHem_cycle (t : Nat) (f : Hem → Hem) : (onHem d t f).cycle = d.cycle := rfl
@[simp] theorem onHem_free (t : Nat) (f : Hem → Hem) : (onHem d t f).free = d.free := rfl
@[simp] theorem onHem_regs (t : Nat) (f : Hem → Hem) : (onHem d t f).regs = d.regs := rfl
@[simp] theorem onHem_ycp (t : Nat) (f : Hem → Hem) : (onHem d t f).ycp = d.ycp := rfl
@[simp] theorem onHem_boot (t : Nat) (f : Hem → Hem) : (onHem d t f).boot = d.boot := rfl
@[simp] theorem onHem_nextTxn (t : Nat) (f : Hem → Hem) : (onHem d t f).nextTxn = d.nextTxn := rfl
@[simp] theorem onHem_txns (t : Nat) (f : Hem → Hem) : (onHem d t f).txns = d.txns := rfl
@[simp] theorem onHem_ports (t : Nat) (f : Hem → Hem) : (onHem d t f).ports = d.ports := rfl
@[simp] theorem onHem_reg (t : Nat) (f : Hem → Hem) : (onHem d t f).reg = d.reg := rfl
@[simp] theorem onHem_nextJob (t : Nat) (f : Hem → Hem) : (onHem d t f).nextJob = d.nextJob := rfl
@[simp] theorem onHem_jobs (t : Nat) (f : Hem → Hem) : (onHem d t f).jobs = d.jobs := rfl
@[simp] theorem onHem_panels (t : Nat) (f : Hem → Hem) : (onHem d t f).panels = d.panels := rfl
@[simp] theorem onHem_blank (t : Nat) (f : Hem → Hem) : (onHem d t f).blank = d.blank := rfl
@[simp] theorem onHem_mend (t : Nat) (f : Hem → Hem) : (onHem d t f).mend = d.mend := rfl
@[simp] theorem onHem_lastUse (t : Nat) (f : Hem → Hem) : (onHem d t f).lastUse = d.lastUse := rfl
@[simp] theorem onHem_maint (t : Nat) (f : Hem → Hem) : (onHem d t f).maint = d.maint := rfl
@[simp] theorem onHem_sweep (t : Nat) (f : Hem → Hem) : (onHem d t f).sweep = d.sweep := rfl
@[simp] theorem onHem_polled (t : Nat) (f : Hem → Hem) : (onHem d t f).polled = d.polled := rfl
@[simp] theorem onHem_layer (t : Nat) (f : Hem → Hem) : (onHem d t f).layer = d.layer := rfl
@[simp] theorem onHem_layers (t : Nat) (f : Hem → Hem) : (onHem d t f).layers = d.layers := rfl
@[simp] theorem onHem_hbms (t : Nat) (f : Hem → Hem) : (onHem d t f).hbms = d.hbms := rfl
@[simp] theorem onHem_mangle (t : Nat) (f : Hem → Hem) : (onHem d t f).mangle = d.mangle := rfl
@[simp] theorem onHem_heat (t : Nat) (f : Hem → Hem) : (onHem d t f).heat = d.heat := rfl
@[simp] theorem onHem_energy (t : Nat) (f : Hem → Hem) : (onHem d t f).energy = d.energy := rfl
@[simp] theorem onHem_link (t : Nat) (f : Hem → Hem) : (onHem d t f).link = d.link := rfl
@[simp] theorem onHem_tally (t : Nat) (f : Hem → Hem) : (onHem d t f).tally = d.tally := rfl
@[simp] theorem onHem_lint (t : Nat) (f : Hem → Hem) : (onHem d t f).lint = d.lint := rfl
@[simp] theorem onHem_retire (t : Nat) (f : Hem → Hem) : (onHem d t f).retire = d.retire := rfl
@[simp] theorem onHem_lifts (t : Nat) (f : Hem → Hem) : (onHem d t f).lifts = d.lifts := rfl

@[simp] theorem setPort_pins (n : Nat) (x : Port) : (setPort d n x).pins = d.pins := rfl
@[simp] theorem setPort_cycle (n : Nat) (x : Port) : (setPort d n x).cycle = d.cycle := rfl
@[simp] theorem setPort_free (n : Nat) (x : Port) : (setPort d n x).free = d.free := rfl
@[simp] theorem setPort_regs (n : Nat) (x : Port) : (setPort d n x).regs = d.regs := rfl
@[simp] theorem setPort_ycp (n : Nat) (x : Port) : (setPort d n x).ycp = d.ycp := rfl
@[simp] theorem setPort_boot (n : Nat) (x : Port) : (setPort d n x).boot = d.boot := rfl
@[simp] theorem setPort_nextTxn (n : Nat) (x : Port) : (setPort d n x).nextTxn = d.nextTxn := rfl
@[simp] theorem setPort_txns (n : Nat) (x : Port) : (setPort d n x).txns = d.txns := rfl
@[simp] theorem setPort_reg (n : Nat) (x : Port) : (setPort d n x).reg = d.reg := rfl
@[simp] theorem setPort_tiles (n : Nat) (x : Port) : (setPort d n x).tiles = d.tiles := rfl
@[simp] theorem setPort_nextJob (n : Nat) (x : Port) : (setPort d n x).nextJob = d.nextJob := rfl
@[simp] theorem setPort_jobs (n : Nat) (x : Port) : (setPort d n x).jobs = d.jobs := rfl
@[simp] theorem setPort_panels (n : Nat) (x : Port) : (setPort d n x).panels = d.panels := rfl
@[simp] theorem setPort_blank (n : Nat) (x : Port) : (setPort d n x).blank = d.blank := rfl
@[simp] theorem setPort_mend (n : Nat) (x : Port) : (setPort d n x).mend = d.mend := rfl
@[simp] theorem setPort_lastUse (n : Nat) (x : Port) : (setPort d n x).lastUse = d.lastUse := rfl
@[simp] theorem setPort_maint (n : Nat) (x : Port) : (setPort d n x).maint = d.maint := rfl
@[simp] theorem setPort_sweep (n : Nat) (x : Port) : (setPort d n x).sweep = d.sweep := rfl
@[simp] theorem setPort_polled (n : Nat) (x : Port) : (setPort d n x).polled = d.polled := rfl
@[simp] theorem setPort_layer (n : Nat) (x : Port) : (setPort d n x).layer = d.layer := rfl
@[simp] theorem setPort_layers (n : Nat) (x : Port) : (setPort d n x).layers = d.layers := rfl
@[simp] theorem setPort_hbms (n : Nat) (x : Port) : (setPort d n x).hbms = d.hbms := rfl
@[simp] theorem setPort_mangle (n : Nat) (x : Port) : (setPort d n x).mangle = d.mangle := rfl
@[simp] theorem setPort_heat (n : Nat) (x : Port) : (setPort d n x).heat = d.heat := rfl
@[simp] theorem setPort_energy (n : Nat) (x : Port) : (setPort d n x).energy = d.energy := rfl
@[simp] theorem setPort_link (n : Nat) (x : Port) : (setPort d n x).link = d.link := rfl
@[simp] theorem setPort_tally (n : Nat) (x : Port) : (setPort d n x).tally = d.tally := rfl
@[simp] theorem setPort_lint (n : Nat) (x : Port) : (setPort d n x).lint = d.lint := rfl
@[simp] theorem setPort_retire (n : Nat) (x : Port) : (setPort d n x).retire = d.retire := rfl
@[simp] theorem setPort_lifts (n : Nat) (x : Port) : (setPort d n x).lifts = d.lifts := rfl

@[simp] theorem setMaster_pins (m : Nat) (x : Master) : (setMaster d m x).pins = d.pins := rfl
@[simp] theorem setMaster_cycle (m : Nat) (x : Master) : (setMaster d m x).cycle = d.cycle := rfl
@[simp] theorem setMaster_free (m : Nat) (x : Master) : (setMaster d m x).free = d.free := rfl
@[simp] theorem setMaster_regs (m : Nat) (x : Master) : (setMaster d m x).regs = d.regs := rfl
@[simp] theorem setMaster_ycp (m : Nat) (x : Master) : (setMaster d m x).ycp = d.ycp := rfl
@[simp] theorem setMaster_boot (m : Nat) (x : Master) : (setMaster d m x).boot = d.boot := rfl
@[simp] theorem setMaster_nextTxn (m : Nat) (x : Master) : (setMaster d m x).nextTxn = d.nextTxn := rfl
@[simp] theorem setMaster_txns (m : Nat) (x : Master) : (setMaster d m x).txns = d.txns := rfl
@[simp] theorem setMaster_ports (m : Nat) (x : Master) : (setMaster d m x).ports = d.ports := rfl
@[simp] theorem setMaster_tiles (m : Nat) (x : Master) : (setMaster d m x).tiles = d.tiles := rfl
@[simp] theorem setMaster_nextJob (m : Nat) (x : Master) : (setMaster d m x).nextJob = d.nextJob := rfl
@[simp] theorem setMaster_jobs (m : Nat) (x : Master) : (setMaster d m x).jobs = d.jobs := rfl
@[simp] theorem setMaster_panels (m : Nat) (x : Master) : (setMaster d m x).panels = d.panels := rfl
@[simp] theorem setMaster_blank (m : Nat) (x : Master) : (setMaster d m x).blank = d.blank := rfl
@[simp] theorem setMaster_mend (m : Nat) (x : Master) : (setMaster d m x).mend = d.mend := rfl
@[simp] theorem setMaster_lastUse (m : Nat) (x : Master) : (setMaster d m x).lastUse = d.lastUse := rfl
@[simp] theorem setMaster_maint (m : Nat) (x : Master) : (setMaster d m x).maint = d.maint := rfl
@[simp] theorem setMaster_sweep (m : Nat) (x : Master) : (setMaster d m x).sweep = d.sweep := rfl
@[simp] theorem setMaster_polled (m : Nat) (x : Master) : (setMaster d m x).polled = d.polled := rfl
@[simp] theorem setMaster_layer (m : Nat) (x : Master) : (setMaster d m x).layer = d.layer := rfl
@[simp] theorem setMaster_layers (m : Nat) (x : Master) : (setMaster d m x).layers = d.layers := rfl
@[simp] theorem setMaster_hbms (m : Nat) (x : Master) : (setMaster d m x).hbms = d.hbms := rfl
@[simp] theorem setMaster_mangle (m : Nat) (x : Master) : (setMaster d m x).mangle = d.mangle := rfl
@[simp] theorem setMaster_heat (m : Nat) (x : Master) : (setMaster d m x).heat = d.heat := rfl
@[simp] theorem setMaster_energy (m : Nat) (x : Master) : (setMaster d m x).energy = d.energy := rfl
@[simp] theorem setMaster_link (m : Nat) (x : Master) : (setMaster d m x).link = d.link := rfl
@[simp] theorem setMaster_tally (m : Nat) (x : Master) : (setMaster d m x).tally = d.tally := rfl
@[simp] theorem setMaster_lint (m : Nat) (x : Master) : (setMaster d m x).lint = d.lint := rfl
@[simp] theorem setMaster_retire (m : Nat) (x : Master) : (setMaster d m x).retire = d.retire := rfl
@[simp] theorem setMaster_lifts (m : Nat) (x : Master) : (setMaster d m x).lifts = d.lifts := rfl

@[simp] theorem setPanel_pins (p : Nat) (x : Panel) : (setPanel d p x).pins = d.pins := rfl
@[simp] theorem setPanel_cycle (p : Nat) (x : Panel) : (setPanel d p x).cycle = d.cycle := rfl
@[simp] theorem setPanel_free (p : Nat) (x : Panel) : (setPanel d p x).free = d.free := rfl
@[simp] theorem setPanel_regs (p : Nat) (x : Panel) : (setPanel d p x).regs = d.regs := rfl
@[simp] theorem setPanel_ycp (p : Nat) (x : Panel) : (setPanel d p x).ycp = d.ycp := rfl
@[simp] theorem setPanel_boot (p : Nat) (x : Panel) : (setPanel d p x).boot = d.boot := rfl
@[simp] theorem setPanel_nextTxn (p : Nat) (x : Panel) : (setPanel d p x).nextTxn = d.nextTxn := rfl
@[simp] theorem setPanel_txns (p : Nat) (x : Panel) : (setPanel d p x).txns = d.txns := rfl
@[simp] theorem setPanel_ports (p : Nat) (x : Panel) : (setPanel d p x).ports = d.ports := rfl
@[simp] theorem setPanel_reg (p : Nat) (x : Panel) : (setPanel d p x).reg = d.reg := rfl
@[simp] theorem setPanel_tiles (p : Nat) (x : Panel) : (setPanel d p x).tiles = d.tiles := rfl
@[simp] theorem setPanel_nextJob (p : Nat) (x : Panel) : (setPanel d p x).nextJob = d.nextJob := rfl
@[simp] theorem setPanel_jobs (p : Nat) (x : Panel) : (setPanel d p x).jobs = d.jobs := rfl
@[simp] theorem setPanel_blank (p : Nat) (x : Panel) : (setPanel d p x).blank = d.blank := rfl
@[simp] theorem setPanel_mend (p : Nat) (x : Panel) : (setPanel d p x).mend = d.mend := rfl
@[simp] theorem setPanel_lastUse (p : Nat) (x : Panel) : (setPanel d p x).lastUse = d.lastUse := rfl
@[simp] theorem setPanel_maint (p : Nat) (x : Panel) : (setPanel d p x).maint = d.maint := rfl
@[simp] theorem setPanel_sweep (p : Nat) (x : Panel) : (setPanel d p x).sweep = d.sweep := rfl
@[simp] theorem setPanel_polled (p : Nat) (x : Panel) : (setPanel d p x).polled = d.polled := rfl
@[simp] theorem setPanel_layer (p : Nat) (x : Panel) : (setPanel d p x).layer = d.layer := rfl
@[simp] theorem setPanel_layers (p : Nat) (x : Panel) : (setPanel d p x).layers = d.layers := rfl
@[simp] theorem setPanel_hbms (p : Nat) (x : Panel) : (setPanel d p x).hbms = d.hbms := rfl
@[simp] theorem setPanel_mangle (p : Nat) (x : Panel) : (setPanel d p x).mangle = d.mangle := rfl
@[simp] theorem setPanel_heat (p : Nat) (x : Panel) : (setPanel d p x).heat = d.heat := rfl
@[simp] theorem setPanel_energy (p : Nat) (x : Panel) : (setPanel d p x).energy = d.energy := rfl
@[simp] theorem setPanel_link (p : Nat) (x : Panel) : (setPanel d p x).link = d.link := rfl
@[simp] theorem setPanel_tally (p : Nat) (x : Panel) : (setPanel d p x).tally = d.tally := rfl
@[simp] theorem setPanel_lint (p : Nat) (x : Panel) : (setPanel d p x).lint = d.lint := rfl
@[simp] theorem setPanel_retire (p : Nat) (x : Panel) : (setPanel d p x).retire = d.retire := rfl
@[simp] theorem setPanel_lifts (p : Nat) (x : Panel) : (setPanel d p x).lifts = d.lifts := rfl

@[simp] theorem setHeat_pins (r : Nat) (x : RegionHeat) : (setHeat d r x).pins = d.pins := rfl
@[simp] theorem setHeat_cycle (r : Nat) (x : RegionHeat) : (setHeat d r x).cycle = d.cycle := rfl
@[simp] theorem setHeat_free (r : Nat) (x : RegionHeat) : (setHeat d r x).free = d.free := rfl
@[simp] theorem setHeat_regs (r : Nat) (x : RegionHeat) : (setHeat d r x).regs = d.regs := rfl
@[simp] theorem setHeat_ycp (r : Nat) (x : RegionHeat) : (setHeat d r x).ycp = d.ycp := rfl
@[simp] theorem setHeat_boot (r : Nat) (x : RegionHeat) : (setHeat d r x).boot = d.boot := rfl
@[simp] theorem setHeat_nextTxn (r : Nat) (x : RegionHeat) : (setHeat d r x).nextTxn = d.nextTxn := rfl
@[simp] theorem setHeat_txns (r : Nat) (x : RegionHeat) : (setHeat d r x).txns = d.txns := rfl
@[simp] theorem setHeat_ports (r : Nat) (x : RegionHeat) : (setHeat d r x).ports = d.ports := rfl
@[simp] theorem setHeat_reg (r : Nat) (x : RegionHeat) : (setHeat d r x).reg = d.reg := rfl
@[simp] theorem setHeat_tiles (r : Nat) (x : RegionHeat) : (setHeat d r x).tiles = d.tiles := rfl
@[simp] theorem setHeat_nextJob (r : Nat) (x : RegionHeat) : (setHeat d r x).nextJob = d.nextJob := rfl
@[simp] theorem setHeat_jobs (r : Nat) (x : RegionHeat) : (setHeat d r x).jobs = d.jobs := rfl
@[simp] theorem setHeat_panels (r : Nat) (x : RegionHeat) : (setHeat d r x).panels = d.panels := rfl
@[simp] theorem setHeat_blank (r : Nat) (x : RegionHeat) : (setHeat d r x).blank = d.blank := rfl
@[simp] theorem setHeat_mend (r : Nat) (x : RegionHeat) : (setHeat d r x).mend = d.mend := rfl
@[simp] theorem setHeat_lastUse (r : Nat) (x : RegionHeat) : (setHeat d r x).lastUse = d.lastUse := rfl
@[simp] theorem setHeat_maint (r : Nat) (x : RegionHeat) : (setHeat d r x).maint = d.maint := rfl
@[simp] theorem setHeat_sweep (r : Nat) (x : RegionHeat) : (setHeat d r x).sweep = d.sweep := rfl
@[simp] theorem setHeat_polled (r : Nat) (x : RegionHeat) : (setHeat d r x).polled = d.polled := rfl
@[simp] theorem setHeat_layer (r : Nat) (x : RegionHeat) : (setHeat d r x).layer = d.layer := rfl
@[simp] theorem setHeat_layers (r : Nat) (x : RegionHeat) : (setHeat d r x).layers = d.layers := rfl
@[simp] theorem setHeat_hbms (r : Nat) (x : RegionHeat) : (setHeat d r x).hbms = d.hbms := rfl
@[simp] theorem setHeat_mangle (r : Nat) (x : RegionHeat) : (setHeat d r x).mangle = d.mangle := rfl
@[simp] theorem setHeat_energy (r : Nat) (x : RegionHeat) : (setHeat d r x).energy = d.energy := rfl
@[simp] theorem setHeat_link (r : Nat) (x : RegionHeat) : (setHeat d r x).link = d.link := rfl
@[simp] theorem setHeat_tally (r : Nat) (x : RegionHeat) : (setHeat d r x).tally = d.tally := rfl
@[simp] theorem setHeat_lint (r : Nat) (x : RegionHeat) : (setHeat d r x).lint = d.lint := rfl
@[simp] theorem setHeat_retire (r : Nat) (x : RegionHeat) : (setHeat d r x).retire = d.retire := rfl
@[simp] theorem setHeat_lifts (r : Nat) (x : RegionHeat) : (setHeat d r x).lifts = d.lifts := rfl

@[simp] theorem setTub_pins (i : Nat) (x : Tub) : (setTub d i x).pins = d.pins := rfl
@[simp] theorem setTub_cycle (i : Nat) (x : Tub) : (setTub d i x).cycle = d.cycle := rfl
@[simp] theorem setTub_free (i : Nat) (x : Tub) : (setTub d i x).free = d.free := rfl
@[simp] theorem setTub_regs (i : Nat) (x : Tub) : (setTub d i x).regs = d.regs := rfl
@[simp] theorem setTub_ycp (i : Nat) (x : Tub) : (setTub d i x).ycp = d.ycp := rfl
@[simp] theorem setTub_boot (i : Nat) (x : Tub) : (setTub d i x).boot = d.boot := rfl
@[simp] theorem setTub_nextTxn (i : Nat) (x : Tub) : (setTub d i x).nextTxn = d.nextTxn := rfl
@[simp] theorem setTub_txns (i : Nat) (x : Tub) : (setTub d i x).txns = d.txns := rfl
@[simp] theorem setTub_ports (i : Nat) (x : Tub) : (setTub d i x).ports = d.ports := rfl
@[simp] theorem setTub_reg (i : Nat) (x : Tub) : (setTub d i x).reg = d.reg := rfl
@[simp] theorem setTub_tiles (i : Nat) (x : Tub) : (setTub d i x).tiles = d.tiles := rfl
@[simp] theorem setTub_nextJob (i : Nat) (x : Tub) : (setTub d i x).nextJob = d.nextJob := rfl
@[simp] theorem setTub_jobs (i : Nat) (x : Tub) : (setTub d i x).jobs = d.jobs := rfl
@[simp] theorem setTub_panels (i : Nat) (x : Tub) : (setTub d i x).panels = d.panels := rfl
@[simp] theorem setTub_blank (i : Nat) (x : Tub) : (setTub d i x).blank = d.blank := rfl
@[simp] theorem setTub_mend (i : Nat) (x : Tub) : (setTub d i x).mend = d.mend := rfl
@[simp] theorem setTub_lastUse (i : Nat) (x : Tub) : (setTub d i x).lastUse = d.lastUse := rfl
@[simp] theorem setTub_maint (i : Nat) (x : Tub) : (setTub d i x).maint = d.maint := rfl
@[simp] theorem setTub_sweep (i : Nat) (x : Tub) : (setTub d i x).sweep = d.sweep := rfl
@[simp] theorem setTub_polled (i : Nat) (x : Tub) : (setTub d i x).polled = d.polled := rfl
@[simp] theorem setTub_layer (i : Nat) (x : Tub) : (setTub d i x).layer = d.layer := rfl
@[simp] theorem setTub_layers (i : Nat) (x : Tub) : (setTub d i x).layers = d.layers := rfl
@[simp] theorem setTub_hbms (i : Nat) (x : Tub) : (setTub d i x).hbms = d.hbms := rfl
@[simp] theorem setTub_heat (i : Nat) (x : Tub) : (setTub d i x).heat = d.heat := rfl
@[simp] theorem setTub_energy (i : Nat) (x : Tub) : (setTub d i x).energy = d.energy := rfl
@[simp] theorem setTub_link (i : Nat) (x : Tub) : (setTub d i x).link = d.link := rfl
@[simp] theorem setTub_tally (i : Nat) (x : Tub) : (setTub d i x).tally = d.tally := rfl
@[simp] theorem setTub_lint (i : Nat) (x : Tub) : (setTub d i x).lint = d.lint := rfl
@[simp] theorem setTub_retire (i : Nat) (x : Tub) : (setTub d i x).retire = d.retire := rfl
@[simp] theorem setTub_lifts (i : Nat) (x : Tub) : (setTub d i x).lifts = d.lifts := rfl

@[simp] theorem setLift_pins (n : Nat) (x : Lift) : (setLift d n x).pins = d.pins := rfl
@[simp] theorem setLift_cycle (n : Nat) (x : Lift) : (setLift d n x).cycle = d.cycle := rfl
@[simp] theorem setLift_free (n : Nat) (x : Lift) : (setLift d n x).free = d.free := rfl
@[simp] theorem setLift_regs (n : Nat) (x : Lift) : (setLift d n x).regs = d.regs := rfl
@[simp] theorem setLift_ycp (n : Nat) (x : Lift) : (setLift d n x).ycp = d.ycp := rfl
@[simp] theorem setLift_boot (n : Nat) (x : Lift) : (setLift d n x).boot = d.boot := rfl
@[simp] theorem setLift_nextTxn (n : Nat) (x : Lift) : (setLift d n x).nextTxn = d.nextTxn := rfl
@[simp] theorem setLift_txns (n : Nat) (x : Lift) : (setLift d n x).txns = d.txns := rfl
@[simp] theorem setLift_ports (n : Nat) (x : Lift) : (setLift d n x).ports = d.ports := rfl
@[simp] theorem setLift_reg (n : Nat) (x : Lift) : (setLift d n x).reg = d.reg := rfl
@[simp] theorem setLift_tiles (n : Nat) (x : Lift) : (setLift d n x).tiles = d.tiles := rfl
@[simp] theorem setLift_nextJob (n : Nat) (x : Lift) : (setLift d n x).nextJob = d.nextJob := rfl
@[simp] theorem setLift_jobs (n : Nat) (x : Lift) : (setLift d n x).jobs = d.jobs := rfl
@[simp] theorem setLift_panels (n : Nat) (x : Lift) : (setLift d n x).panels = d.panels := rfl
@[simp] theorem setLift_blank (n : Nat) (x : Lift) : (setLift d n x).blank = d.blank := rfl
@[simp] theorem setLift_mend (n : Nat) (x : Lift) : (setLift d n x).mend = d.mend := rfl
@[simp] theorem setLift_lastUse (n : Nat) (x : Lift) : (setLift d n x).lastUse = d.lastUse := rfl
@[simp] theorem setLift_maint (n : Nat) (x : Lift) : (setLift d n x).maint = d.maint := rfl
@[simp] theorem setLift_sweep (n : Nat) (x : Lift) : (setLift d n x).sweep = d.sweep := rfl
@[simp] theorem setLift_polled (n : Nat) (x : Lift) : (setLift d n x).polled = d.polled := rfl
@[simp] theorem setLift_layer (n : Nat) (x : Lift) : (setLift d n x).layer = d.layer := rfl
@[simp] theorem setLift_layers (n : Nat) (x : Lift) : (setLift d n x).layers = d.layers := rfl
@[simp] theorem setLift_hbms (n : Nat) (x : Lift) : (setLift d n x).hbms = d.hbms := rfl
@[simp] theorem setLift_mangle (n : Nat) (x : Lift) : (setLift d n x).mangle = d.mangle := rfl
@[simp] theorem setLift_heat (n : Nat) (x : Lift) : (setLift d n x).heat = d.heat := rfl
@[simp] theorem setLift_energy (n : Nat) (x : Lift) : (setLift d n x).energy = d.energy := rfl
@[simp] theorem setLift_link (n : Nat) (x : Lift) : (setLift d n x).link = d.link := rfl
@[simp] theorem setLift_tally (n : Nat) (x : Lift) : (setLift d n x).tally = d.tally := rfl
@[simp] theorem setLift_lint (n : Nat) (x : Lift) : (setLift d n x).lint = d.lint := rfl
@[simp] theorem setLift_retire (n : Nat) (x : Lift) : (setLift d n x).retire = d.retire := rfl

@[simp] theorem setLink_pins (j : Nat) (x : Link) : (setLink d j x).pins = d.pins := rfl
@[simp] theorem setLink_cycle (j : Nat) (x : Link) : (setLink d j x).cycle = d.cycle := rfl
@[simp] theorem setLink_free (j : Nat) (x : Link) : (setLink d j x).free = d.free := rfl
@[simp] theorem setLink_regs (j : Nat) (x : Link) : (setLink d j x).regs = d.regs := rfl
@[simp] theorem setLink_ycp (j : Nat) (x : Link) : (setLink d j x).ycp = d.ycp := rfl
@[simp] theorem setLink_boot (j : Nat) (x : Link) : (setLink d j x).boot = d.boot := rfl
@[simp] theorem setLink_nextTxn (j : Nat) (x : Link) : (setLink d j x).nextTxn = d.nextTxn := rfl
@[simp] theorem setLink_txns (j : Nat) (x : Link) : (setLink d j x).txns = d.txns := rfl
@[simp] theorem setLink_ports (j : Nat) (x : Link) : (setLink d j x).ports = d.ports := rfl
@[simp] theorem setLink_reg (j : Nat) (x : Link) : (setLink d j x).reg = d.reg := rfl
@[simp] theorem setLink_tiles (j : Nat) (x : Link) : (setLink d j x).tiles = d.tiles := rfl
@[simp] theorem setLink_nextJob (j : Nat) (x : Link) : (setLink d j x).nextJob = d.nextJob := rfl
@[simp] theorem setLink_jobs (j : Nat) (x : Link) : (setLink d j x).jobs = d.jobs := rfl
@[simp] theorem setLink_panels (j : Nat) (x : Link) : (setLink d j x).panels = d.panels := rfl
@[simp] theorem setLink_blank (j : Nat) (x : Link) : (setLink d j x).blank = d.blank := rfl
@[simp] theorem setLink_mend (j : Nat) (x : Link) : (setLink d j x).mend = d.mend := rfl
@[simp] theorem setLink_lastUse (j : Nat) (x : Link) : (setLink d j x).lastUse = d.lastUse := rfl
@[simp] theorem setLink_maint (j : Nat) (x : Link) : (setLink d j x).maint = d.maint := rfl
@[simp] theorem setLink_sweep (j : Nat) (x : Link) : (setLink d j x).sweep = d.sweep := rfl
@[simp] theorem setLink_polled (j : Nat) (x : Link) : (setLink d j x).polled = d.polled := rfl
@[simp] theorem setLink_layer (j : Nat) (x : Link) : (setLink d j x).layer = d.layer := rfl
@[simp] theorem setLink_layers (j : Nat) (x : Link) : (setLink d j x).layers = d.layers := rfl
@[simp] theorem setLink_hbms (j : Nat) (x : Link) : (setLink d j x).hbms = d.hbms := rfl
@[simp] theorem setLink_mangle (j : Nat) (x : Link) : (setLink d j x).mangle = d.mangle := rfl
@[simp] theorem setLink_heat (j : Nat) (x : Link) : (setLink d j x).heat = d.heat := rfl
@[simp] theorem setLink_energy (j : Nat) (x : Link) : (setLink d j x).energy = d.energy := rfl
@[simp] theorem setLink_tally (j : Nat) (x : Link) : (setLink d j x).tally = d.tally := rfl
@[simp] theorem setLink_lint (j : Nat) (x : Link) : (setLink d j x).lint = d.lint := rfl
@[simp] theorem setLink_retire (j : Nat) (x : Link) : (setLink d j x).retire = d.retire := rfl
@[simp] theorem setLink_lifts (j : Nat) (x : Link) : (setLink d j x).lifts = d.lifts := rfl

@[simp] theorem setPeer_pins (i : Nat) (x : Peer) : (setPeer d i x).pins = d.pins := rfl
@[simp] theorem setPeer_cycle (i : Nat) (x : Peer) : (setPeer d i x).cycle = d.cycle := rfl
@[simp] theorem setPeer_free (i : Nat) (x : Peer) : (setPeer d i x).free = d.free := rfl
@[simp] theorem setPeer_regs (i : Nat) (x : Peer) : (setPeer d i x).regs = d.regs := rfl
@[simp] theorem setPeer_ycp (i : Nat) (x : Peer) : (setPeer d i x).ycp = d.ycp := rfl
@[simp] theorem setPeer_boot (i : Nat) (x : Peer) : (setPeer d i x).boot = d.boot := rfl
@[simp] theorem setPeer_nextTxn (i : Nat) (x : Peer) : (setPeer d i x).nextTxn = d.nextTxn := rfl
@[simp] theorem setPeer_txns (i : Nat) (x : Peer) : (setPeer d i x).txns = d.txns := rfl
@[simp] theorem setPeer_ports (i : Nat) (x : Peer) : (setPeer d i x).ports = d.ports := rfl
@[simp] theorem setPeer_reg (i : Nat) (x : Peer) : (setPeer d i x).reg = d.reg := rfl
@[simp] theorem setPeer_tiles (i : Nat) (x : Peer) : (setPeer d i x).tiles = d.tiles := rfl
@[simp] theorem setPeer_nextJob (i : Nat) (x : Peer) : (setPeer d i x).nextJob = d.nextJob := rfl
@[simp] theorem setPeer_jobs (i : Nat) (x : Peer) : (setPeer d i x).jobs = d.jobs := rfl
@[simp] theorem setPeer_panels (i : Nat) (x : Peer) : (setPeer d i x).panels = d.panels := rfl
@[simp] theorem setPeer_blank (i : Nat) (x : Peer) : (setPeer d i x).blank = d.blank := rfl
@[simp] theorem setPeer_mend (i : Nat) (x : Peer) : (setPeer d i x).mend = d.mend := rfl
@[simp] theorem setPeer_lastUse (i : Nat) (x : Peer) : (setPeer d i x).lastUse = d.lastUse := rfl
@[simp] theorem setPeer_maint (i : Nat) (x : Peer) : (setPeer d i x).maint = d.maint := rfl
@[simp] theorem setPeer_sweep (i : Nat) (x : Peer) : (setPeer d i x).sweep = d.sweep := rfl
@[simp] theorem setPeer_polled (i : Nat) (x : Peer) : (setPeer d i x).polled = d.polled := rfl
@[simp] theorem setPeer_layer (i : Nat) (x : Peer) : (setPeer d i x).layer = d.layer := rfl
@[simp] theorem setPeer_layers (i : Nat) (x : Peer) : (setPeer d i x).layers = d.layers := rfl
@[simp] theorem setPeer_hbms (i : Nat) (x : Peer) : (setPeer d i x).hbms = d.hbms := rfl
@[simp] theorem setPeer_mangle (i : Nat) (x : Peer) : (setPeer d i x).mangle = d.mangle := rfl
@[simp] theorem setPeer_heat (i : Nat) (x : Peer) : (setPeer d i x).heat = d.heat := rfl
@[simp] theorem setPeer_energy (i : Nat) (x : Peer) : (setPeer d i x).energy = d.energy := rfl
@[simp] theorem setPeer_tally (i : Nat) (x : Peer) : (setPeer d i x).tally = d.tally := rfl
@[simp] theorem setPeer_lint (i : Nat) (x : Peer) : (setPeer d i x).lint = d.lint := rfl
@[simp] theorem setPeer_retire (i : Nat) (x : Peer) : (setPeer d i x).retire = d.retire := rfl
@[simp] theorem setPeer_lifts (i : Nat) (x : Peer) : (setPeer d i x).lifts = d.lifts := rfl

@[simp] theorem setTxn_pins (i : Nat) (x : Txn) : (setTxn d i x).pins = d.pins := rfl
@[simp] theorem setTxn_cycle (i : Nat) (x : Txn) : (setTxn d i x).cycle = d.cycle := rfl
@[simp] theorem setTxn_free (i : Nat) (x : Txn) : (setTxn d i x).free = d.free := rfl
@[simp] theorem setTxn_regs (i : Nat) (x : Txn) : (setTxn d i x).regs = d.regs := rfl
@[simp] theorem setTxn_ycp (i : Nat) (x : Txn) : (setTxn d i x).ycp = d.ycp := rfl
@[simp] theorem setTxn_boot (i : Nat) (x : Txn) : (setTxn d i x).boot = d.boot := rfl
@[simp] theorem setTxn_nextTxn (i : Nat) (x : Txn) : (setTxn d i x).nextTxn = d.nextTxn := rfl
@[simp] theorem setTxn_ports (i : Nat) (x : Txn) : (setTxn d i x).ports = d.ports := rfl
@[simp] theorem setTxn_reg (i : Nat) (x : Txn) : (setTxn d i x).reg = d.reg := rfl
@[simp] theorem setTxn_tiles (i : Nat) (x : Txn) : (setTxn d i x).tiles = d.tiles := rfl
@[simp] theorem setTxn_nextJob (i : Nat) (x : Txn) : (setTxn d i x).nextJob = d.nextJob := rfl
@[simp] theorem setTxn_jobs (i : Nat) (x : Txn) : (setTxn d i x).jobs = d.jobs := rfl
@[simp] theorem setTxn_panels (i : Nat) (x : Txn) : (setTxn d i x).panels = d.panels := rfl
@[simp] theorem setTxn_blank (i : Nat) (x : Txn) : (setTxn d i x).blank = d.blank := rfl
@[simp] theorem setTxn_mend (i : Nat) (x : Txn) : (setTxn d i x).mend = d.mend := rfl
@[simp] theorem setTxn_lastUse (i : Nat) (x : Txn) : (setTxn d i x).lastUse = d.lastUse := rfl
@[simp] theorem setTxn_maint (i : Nat) (x : Txn) : (setTxn d i x).maint = d.maint := rfl
@[simp] theorem setTxn_sweep (i : Nat) (x : Txn) : (setTxn d i x).sweep = d.sweep := rfl
@[simp] theorem setTxn_polled (i : Nat) (x : Txn) : (setTxn d i x).polled = d.polled := rfl
@[simp] theorem setTxn_layer (i : Nat) (x : Txn) : (setTxn d i x).layer = d.layer := rfl
@[simp] theorem setTxn_layers (i : Nat) (x : Txn) : (setTxn d i x).layers = d.layers := rfl
@[simp] theorem setTxn_hbms (i : Nat) (x : Txn) : (setTxn d i x).hbms = d.hbms := rfl
@[simp] theorem setTxn_mangle (i : Nat) (x : Txn) : (setTxn d i x).mangle = d.mangle := rfl
@[simp] theorem setTxn_heat (i : Nat) (x : Txn) : (setTxn d i x).heat = d.heat := rfl
@[simp] theorem setTxn_energy (i : Nat) (x : Txn) : (setTxn d i x).energy = d.energy := rfl
@[simp] theorem setTxn_link (i : Nat) (x : Txn) : (setTxn d i x).link = d.link := rfl
@[simp] theorem setTxn_tally (i : Nat) (x : Txn) : (setTxn d i x).tally = d.tally := rfl
@[simp] theorem setTxn_lint (i : Nat) (x : Txn) : (setTxn d i x).lint = d.lint := rfl
@[simp] theorem setTxn_retire (i : Nat) (x : Txn) : (setTxn d i x).retire = d.retire := rfl
@[simp] theorem setTxn_lifts (i : Nat) (x : Txn) : (setTxn d i x).lifts = d.lifts := rfl

@[simp] theorem dropTxn_pins (i : Nat) : (dropTxn d i).pins = d.pins := rfl
@[simp] theorem dropTxn_cycle (i : Nat) : (dropTxn d i).cycle = d.cycle := rfl
@[simp] theorem dropTxn_free (i : Nat) : (dropTxn d i).free = d.free := rfl
@[simp] theorem dropTxn_regs (i : Nat) : (dropTxn d i).regs = d.regs := rfl
@[simp] theorem dropTxn_ycp (i : Nat) : (dropTxn d i).ycp = d.ycp := rfl
@[simp] theorem dropTxn_boot (i : Nat) : (dropTxn d i).boot = d.boot := rfl
@[simp] theorem dropTxn_nextTxn (i : Nat) : (dropTxn d i).nextTxn = d.nextTxn := rfl
@[simp] theorem dropTxn_ports (i : Nat) : (dropTxn d i).ports = d.ports := rfl
@[simp] theorem dropTxn_reg (i : Nat) : (dropTxn d i).reg = d.reg := rfl
@[simp] theorem dropTxn_tiles (i : Nat) : (dropTxn d i).tiles = d.tiles := rfl
@[simp] theorem dropTxn_nextJob (i : Nat) : (dropTxn d i).nextJob = d.nextJob := rfl
@[simp] theorem dropTxn_jobs (i : Nat) : (dropTxn d i).jobs = d.jobs := rfl
@[simp] theorem dropTxn_panels (i : Nat) : (dropTxn d i).panels = d.panels := rfl
@[simp] theorem dropTxn_blank (i : Nat) : (dropTxn d i).blank = d.blank := rfl
@[simp] theorem dropTxn_mend (i : Nat) : (dropTxn d i).mend = d.mend := rfl
@[simp] theorem dropTxn_lastUse (i : Nat) : (dropTxn d i).lastUse = d.lastUse := rfl
@[simp] theorem dropTxn_maint (i : Nat) : (dropTxn d i).maint = d.maint := rfl
@[simp] theorem dropTxn_sweep (i : Nat) : (dropTxn d i).sweep = d.sweep := rfl
@[simp] theorem dropTxn_polled (i : Nat) : (dropTxn d i).polled = d.polled := rfl
@[simp] theorem dropTxn_layer (i : Nat) : (dropTxn d i).layer = d.layer := rfl
@[simp] theorem dropTxn_layers (i : Nat) : (dropTxn d i).layers = d.layers := rfl
@[simp] theorem dropTxn_hbms (i : Nat) : (dropTxn d i).hbms = d.hbms := rfl
@[simp] theorem dropTxn_mangle (i : Nat) : (dropTxn d i).mangle = d.mangle := rfl
@[simp] theorem dropTxn_heat (i : Nat) : (dropTxn d i).heat = d.heat := rfl
@[simp] theorem dropTxn_energy (i : Nat) : (dropTxn d i).energy = d.energy := rfl
@[simp] theorem dropTxn_link (i : Nat) : (dropTxn d i).link = d.link := rfl
@[simp] theorem dropTxn_tally (i : Nat) : (dropTxn d i).tally = d.tally := rfl
@[simp] theorem dropTxn_lint (i : Nat) : (dropTxn d i).lint = d.lint := rfl
@[simp] theorem dropTxn_retire (i : Nat) : (dropTxn d i).retire = d.retire := rfl
@[simp] theorem dropTxn_lifts (i : Nat) : (dropTxn d i).lifts = d.lifts := rfl

@[simp] theorem setJob_pins (i : Nat) (x : Job) : (setJob d i x).pins = d.pins := rfl
@[simp] theorem setJob_cycle (i : Nat) (x : Job) : (setJob d i x).cycle = d.cycle := rfl
@[simp] theorem setJob_free (i : Nat) (x : Job) : (setJob d i x).free = d.free := rfl
@[simp] theorem setJob_regs (i : Nat) (x : Job) : (setJob d i x).regs = d.regs := rfl
@[simp] theorem setJob_ycp (i : Nat) (x : Job) : (setJob d i x).ycp = d.ycp := rfl
@[simp] theorem setJob_boot (i : Nat) (x : Job) : (setJob d i x).boot = d.boot := rfl
@[simp] theorem setJob_nextTxn (i : Nat) (x : Job) : (setJob d i x).nextTxn = d.nextTxn := rfl
@[simp] theorem setJob_txns (i : Nat) (x : Job) : (setJob d i x).txns = d.txns := rfl
@[simp] theorem setJob_ports (i : Nat) (x : Job) : (setJob d i x).ports = d.ports := rfl
@[simp] theorem setJob_reg (i : Nat) (x : Job) : (setJob d i x).reg = d.reg := rfl
@[simp] theorem setJob_tiles (i : Nat) (x : Job) : (setJob d i x).tiles = d.tiles := rfl
@[simp] theorem setJob_nextJob (i : Nat) (x : Job) : (setJob d i x).nextJob = d.nextJob := rfl
@[simp] theorem setJob_panels (i : Nat) (x : Job) : (setJob d i x).panels = d.panels := rfl
@[simp] theorem setJob_blank (i : Nat) (x : Job) : (setJob d i x).blank = d.blank := rfl
@[simp] theorem setJob_mend (i : Nat) (x : Job) : (setJob d i x).mend = d.mend := rfl
@[simp] theorem setJob_lastUse (i : Nat) (x : Job) : (setJob d i x).lastUse = d.lastUse := rfl
@[simp] theorem setJob_maint (i : Nat) (x : Job) : (setJob d i x).maint = d.maint := rfl
@[simp] theorem setJob_sweep (i : Nat) (x : Job) : (setJob d i x).sweep = d.sweep := rfl
@[simp] theorem setJob_polled (i : Nat) (x : Job) : (setJob d i x).polled = d.polled := rfl
@[simp] theorem setJob_layer (i : Nat) (x : Job) : (setJob d i x).layer = d.layer := rfl
@[simp] theorem setJob_layers (i : Nat) (x : Job) : (setJob d i x).layers = d.layers := rfl
@[simp] theorem setJob_hbms (i : Nat) (x : Job) : (setJob d i x).hbms = d.hbms := rfl
@[simp] theorem setJob_mangle (i : Nat) (x : Job) : (setJob d i x).mangle = d.mangle := rfl
@[simp] theorem setJob_heat (i : Nat) (x : Job) : (setJob d i x).heat = d.heat := rfl
@[simp] theorem setJob_energy (i : Nat) (x : Job) : (setJob d i x).energy = d.energy := rfl
@[simp] theorem setJob_link (i : Nat) (x : Job) : (setJob d i x).link = d.link := rfl
@[simp] theorem setJob_tally (i : Nat) (x : Job) : (setJob d i x).tally = d.tally := rfl
@[simp] theorem setJob_lint (i : Nat) (x : Job) : (setJob d i x).lint = d.lint := rfl
@[simp] theorem setJob_retire (i : Nat) (x : Job) : (setJob d i x).retire = d.retire := rfl
@[simp] theorem setJob_lifts (i : Nat) (x : Job) : (setJob d i x).lifts = d.lifts := rfl

@[simp] theorem eCount_pins (o c n : Nat) : (eCount d o c n).pins = d.pins := rfl
@[simp] theorem eCount_cycle (o c n : Nat) : (eCount d o c n).cycle = d.cycle := rfl
@[simp] theorem eCount_free (o c n : Nat) : (eCount d o c n).free = d.free := rfl
@[simp] theorem eCount_regs (o c n : Nat) : (eCount d o c n).regs = d.regs := rfl
@[simp] theorem eCount_ycp (o c n : Nat) : (eCount d o c n).ycp = d.ycp := rfl
@[simp] theorem eCount_boot (o c n : Nat) : (eCount d o c n).boot = d.boot := rfl
@[simp] theorem eCount_nextTxn (o c n : Nat) : (eCount d o c n).nextTxn = d.nextTxn := rfl
@[simp] theorem eCount_txns (o c n : Nat) : (eCount d o c n).txns = d.txns := rfl
@[simp] theorem eCount_ports (o c n : Nat) : (eCount d o c n).ports = d.ports := rfl
@[simp] theorem eCount_reg (o c n : Nat) : (eCount d o c n).reg = d.reg := rfl
@[simp] theorem eCount_tiles (o c n : Nat) : (eCount d o c n).tiles = d.tiles := rfl
@[simp] theorem eCount_nextJob (o c n : Nat) : (eCount d o c n).nextJob = d.nextJob := rfl
@[simp] theorem eCount_jobs (o c n : Nat) : (eCount d o c n).jobs = d.jobs := rfl
@[simp] theorem eCount_panels (o c n : Nat) : (eCount d o c n).panels = d.panels := rfl
@[simp] theorem eCount_blank (o c n : Nat) : (eCount d o c n).blank = d.blank := rfl
@[simp] theorem eCount_mend (o c n : Nat) : (eCount d o c n).mend = d.mend := rfl
@[simp] theorem eCount_lastUse (o c n : Nat) : (eCount d o c n).lastUse = d.lastUse := rfl
@[simp] theorem eCount_maint (o c n : Nat) : (eCount d o c n).maint = d.maint := rfl
@[simp] theorem eCount_sweep (o c n : Nat) : (eCount d o c n).sweep = d.sweep := rfl
@[simp] theorem eCount_polled (o c n : Nat) : (eCount d o c n).polled = d.polled := rfl
@[simp] theorem eCount_layer (o c n : Nat) : (eCount d o c n).layer = d.layer := rfl
@[simp] theorem eCount_layers (o c n : Nat) : (eCount d o c n).layers = d.layers := rfl
@[simp] theorem eCount_hbms (o c n : Nat) : (eCount d o c n).hbms = d.hbms := rfl
@[simp] theorem eCount_mangle (o c n : Nat) : (eCount d o c n).mangle = d.mangle := rfl
@[simp] theorem eCount_heat (o c n : Nat) : (eCount d o c n).heat = d.heat := rfl
@[simp] theorem eCount_link (o c n : Nat) : (eCount d o c n).link = d.link := rfl
@[simp] theorem eCount_tally (o c n : Nat) : (eCount d o c n).tally = d.tally := rfl
@[simp] theorem eCount_lint (o c n : Nat) : (eCount d o c n).lint = d.lint := rfl
@[simp] theorem eCount_retire (o c n : Nat) : (eCount d o c n).retire = d.retire := rfl
@[simp] theorem eCount_lifts (o c n : Nat) : (eCount d o c n).lifts = d.lifts := rfl

@[simp] theorem setValid_pins (b : Nat) : (setValid d b).pins = d.pins := rfl
@[simp] theorem setValid_cycle (b : Nat) : (setValid d b).cycle = d.cycle := rfl
@[simp] theorem setValid_free (b : Nat) : (setValid d b).free = d.free := rfl
@[simp] theorem setValid_regs (b : Nat) : (setValid d b).regs = d.regs := rfl
@[simp] theorem setValid_ycp (b : Nat) : (setValid d b).ycp = d.ycp := rfl
@[simp] theorem setValid_boot (b : Nat) : (setValid d b).boot = d.boot := rfl
@[simp] theorem setValid_nextTxn (b : Nat) : (setValid d b).nextTxn = d.nextTxn := rfl
@[simp] theorem setValid_txns (b : Nat) : (setValid d b).txns = d.txns := rfl
@[simp] theorem setValid_ports (b : Nat) : (setValid d b).ports = d.ports := rfl
@[simp] theorem setValid_reg (b : Nat) : (setValid d b).reg = d.reg := rfl
@[simp] theorem setValid_tiles (b : Nat) : (setValid d b).tiles = d.tiles := rfl
@[simp] theorem setValid_nextJob (b : Nat) : (setValid d b).nextJob = d.nextJob := rfl
@[simp] theorem setValid_jobs (b : Nat) : (setValid d b).jobs = d.jobs := rfl
@[simp] theorem setValid_panels (b : Nat) : (setValid d b).panels = d.panels := rfl
@[simp] theorem setValid_mend (b : Nat) : (setValid d b).mend = d.mend := rfl
@[simp] theorem setValid_lastUse (b : Nat) : (setValid d b).lastUse = d.lastUse := rfl
@[simp] theorem setValid_maint (b : Nat) : (setValid d b).maint = d.maint := rfl
@[simp] theorem setValid_sweep (b : Nat) : (setValid d b).sweep = d.sweep := rfl
@[simp] theorem setValid_polled (b : Nat) : (setValid d b).polled = d.polled := rfl
@[simp] theorem setValid_layer (b : Nat) : (setValid d b).layer = d.layer := rfl
@[simp] theorem setValid_layers (b : Nat) : (setValid d b).layers = d.layers := rfl
@[simp] theorem setValid_hbms (b : Nat) : (setValid d b).hbms = d.hbms := rfl
@[simp] theorem setValid_mangle (b : Nat) : (setValid d b).mangle = d.mangle := rfl
@[simp] theorem setValid_heat (b : Nat) : (setValid d b).heat = d.heat := rfl
@[simp] theorem setValid_energy (b : Nat) : (setValid d b).energy = d.energy := rfl
@[simp] theorem setValid_link (b : Nat) : (setValid d b).link = d.link := rfl
@[simp] theorem setValid_tally (b : Nat) : (setValid d b).tally = d.tally := rfl
@[simp] theorem setValid_lint (b : Nat) : (setValid d b).lint = d.lint := rfl
@[simp] theorem setValid_retire (b : Nat) : (setValid d b).retire = d.retire := rfl
@[simp] theorem setValid_lifts (b : Nat) : (setValid d b).lifts = d.lifts := rfl

@[simp] theorem setBlank_pins (b : Nat) : (setBlank d b).pins = d.pins := rfl
@[simp] theorem setBlank_cycle (b : Nat) : (setBlank d b).cycle = d.cycle := rfl
@[simp] theorem setBlank_free (b : Nat) : (setBlank d b).free = d.free := rfl
@[simp] theorem setBlank_regs (b : Nat) : (setBlank d b).regs = d.regs := rfl
@[simp] theorem setBlank_ycp (b : Nat) : (setBlank d b).ycp = d.ycp := rfl
@[simp] theorem setBlank_boot (b : Nat) : (setBlank d b).boot = d.boot := rfl
@[simp] theorem setBlank_nextTxn (b : Nat) : (setBlank d b).nextTxn = d.nextTxn := rfl
@[simp] theorem setBlank_txns (b : Nat) : (setBlank d b).txns = d.txns := rfl
@[simp] theorem setBlank_ports (b : Nat) : (setBlank d b).ports = d.ports := rfl
@[simp] theorem setBlank_reg (b : Nat) : (setBlank d b).reg = d.reg := rfl
@[simp] theorem setBlank_tiles (b : Nat) : (setBlank d b).tiles = d.tiles := rfl
@[simp] theorem setBlank_nextJob (b : Nat) : (setBlank d b).nextJob = d.nextJob := rfl
@[simp] theorem setBlank_jobs (b : Nat) : (setBlank d b).jobs = d.jobs := rfl
@[simp] theorem setBlank_panels (b : Nat) : (setBlank d b).panels = d.panels := rfl
@[simp] theorem setBlank_mend (b : Nat) : (setBlank d b).mend = d.mend := rfl
@[simp] theorem setBlank_lastUse (b : Nat) : (setBlank d b).lastUse = d.lastUse := rfl
@[simp] theorem setBlank_maint (b : Nat) : (setBlank d b).maint = d.maint := rfl
@[simp] theorem setBlank_sweep (b : Nat) : (setBlank d b).sweep = d.sweep := rfl
@[simp] theorem setBlank_polled (b : Nat) : (setBlank d b).polled = d.polled := rfl
@[simp] theorem setBlank_layer (b : Nat) : (setBlank d b).layer = d.layer := rfl
@[simp] theorem setBlank_layers (b : Nat) : (setBlank d b).layers = d.layers := rfl
@[simp] theorem setBlank_hbms (b : Nat) : (setBlank d b).hbms = d.hbms := rfl
@[simp] theorem setBlank_mangle (b : Nat) : (setBlank d b).mangle = d.mangle := rfl
@[simp] theorem setBlank_heat (b : Nat) : (setBlank d b).heat = d.heat := rfl
@[simp] theorem setBlank_energy (b : Nat) : (setBlank d b).energy = d.energy := rfl
@[simp] theorem setBlank_link (b : Nat) : (setBlank d b).link = d.link := rfl
@[simp] theorem setBlank_tally (b : Nat) : (setBlank d b).tally = d.tally := rfl
@[simp] theorem setBlank_lint (b : Nat) : (setBlank d b).lint = d.lint := rfl
@[simp] theorem setBlank_retire (b : Nat) : (setBlank d b).retire = d.retire := rfl
@[simp] theorem setBlank_lifts (b : Nat) : (setBlank d b).lifts = d.lifts := rfl

end Fields

@[simp] theorem getTile_setTile (d : Dev) (t : Nat) (x : Tile) : getTile (setTile d t x) t = x := by simp [getTile, setTile]
theorem getTile_setTile_ne (d : Dev) (t u : Nat) (x : Tile) (h : u ≠ t) : getTile (setTile d t x) u = getTile d u := by
  simp [getTile, setTile, mgetD_mputD_ne, h]
@[simp] theorem getPort_setPort (d : Dev) (t : Nat) (x : Port) : getPort (setPort d t x) t = x := by simp [getPort, setPort]
theorem getPort_setPort_ne (d : Dev) (t u : Nat) (x : Port) (h : u ≠ t) : getPort (setPort d t x) u = getPort d u := by
  simp [getPort, setPort, mgetD_mputD_ne, h]
@[simp] theorem getMaster_setMaster (d : Dev) (t : Nat) (x : Master) : getMaster (setMaster d t x) t = x := by simp [getMaster, setMaster]
theorem getMaster_setMaster_ne (d : Dev) (t u : Nat) (x : Master) (h : u ≠ t) : getMaster (setMaster d t x) u = getMaster d u := by
  simp [getMaster, setMaster, mgetD_mputD_ne, h]
@[simp] theorem getPanel_setPanel (d : Dev) (t : Nat) (x : Panel) : getPanel (setPanel d t x) t = x := by simp [getPanel, setPanel]
theorem getPanel_setPanel_ne (d : Dev) (t u : Nat) (x : Panel) (h : u ≠ t) : getPanel (setPanel d t x) u = getPanel d u := by
  simp [getPanel, setPanel, mgetD_mputD_ne, h]
@[simp] theorem getHeat_setHeat (d : Dev) (t : Nat) (x : RegionHeat) : getHeat (setHeat d t x) t = x := by simp [getHeat, setHeat]
theorem getHeat_setHeat_ne (d : Dev) (t u : Nat) (x : RegionHeat) (h : u ≠ t) : getHeat (setHeat d t x) u = getHeat d u := by
  simp [getHeat, setHeat, mgetD_mputD_ne, h]
@[simp] theorem getTub_setTub (d : Dev) (t : Nat) (x : Tub) : getTub (setTub d t x) t = x := by simp [getTub, setTub]
theorem getTub_setTub_ne (d : Dev) (t u : Nat) (x : Tub) (h : u ≠ t) : getTub (setTub d t x) u = getTub d u := by
  simp [getTub, setTub, mgetD_mputD_ne, h]
@[simp] theorem getLift_setLift (d : Dev) (t : Nat) (x : Lift) : getLift (setLift d t x) t = x := by simp [getLift, setLift]
theorem getLift_setLift_ne (d : Dev) (t u : Nat) (x : Lift) (h : u ≠ t) : getLift (setLift d t x) u = getLift d u := by
  simp [getLift, setLift, mgetD_mputD_ne, h]
@[simp] theorem getLink_setLink (d : Dev) (t : Nat) (x : Link) : getLink (setLink d t x) t = x := by simp [getLink, setLink]
theorem getLink_setLink_ne (d : Dev) (t u : Nat) (x : Link) (h : u ≠ t) : getLink (setLink d t x) u = getLink d u := by
  simp [getLink, setLink, mgetD_mputD_ne, h]
@[simp] theorem getPeer_setPeer (d : Dev) (t : Nat) (x : Peer) : getPeer (setPeer d t x) t = x := by simp [getPeer, setPeer]
theorem getPeer_setPeer_ne (d : Dev) (t u : Nat) (x : Peer) (h : u ≠ t) : getPeer (setPeer d t x) u = getPeer d u := by
  simp [getPeer, setPeer, mgetD_mputD_ne, h]

@[simp] theorem getTxn_setTxn (d : Dev) (i : Nat) (x : Txn) : getTxn (setTxn d i x) i = some x := by simp [getTxn, setTxn]
theorem getTxn_setTxn_ne (d : Dev) (i j : Nat) (x : Txn) (h : j ≠ i) : getTxn (setTxn d i x) j = getTxn d j := by
  simp [getTxn, setTxn, mget_minsert_ne, h]
@[simp] theorem getTxn_dropTxn (d : Dev) (i : Nat) : getTxn (dropTxn d i) i = none := by simp [getTxn, dropTxn]
theorem getTxn_dropTxn_ne (d : Dev) (i j : Nat) (h : j ≠ i) : getTxn (dropTxn d i) j = getTxn d j := by
  simp [getTxn, dropTxn, mget_merase_ne, h]
@[simp] theorem getJob_setJob (d : Dev) (i : Nat) (x : Job) : getJob (setJob d i x) i = some x := by simp [getJob, setJob]
theorem getJob_setJob_ne (d : Dev) (i j : Nat) (x : Job) (h : j ≠ i) : getJob (setJob d i x) j = getJob d j := by
  simp [getJob, setJob, mget_minsert_ne, h]

@[simp] theorem rget_rset (d : Dev) (o : Nat) (v : Word) : rget (rset d o v) o = v := by
  unfold rget rset mputD
  by_cases h : v = regReset o <;> simp [h]
theorem rget_rset_ne (d : Dev) (o p : Nat) (v : Word) (h : p ≠ o) : rget (rset d o v) p = rget d p := by
  unfold rget rset mputD
  by_cases hv : v = regReset o <;> simp [hv, mget_merase_ne, mget_minsert_ne, h]

@[simp] theorem slice_onSlice (d : Dev) (t : Nat) (f : Slice → Slice) : slice (onSlice d t f) t = f (slice d t) := by
  simp [slice, onSlice]
@[simp] theorem chan_onSlice (d : Dev) (t u : Nat) (f : Slice → Slice) : chan (onSlice d t f) u = chan d u := by
  by_cases h : u = t
  · subst h; simp [chan, onSlice]
  · simp [chan, onSlice, getTile_setTile_ne, h]
@[simp] theorem svc_onSlice (d : Dev) (t u : Nat) (f : Slice → Slice) : svc (onSlice d t f) u = svc d u := by
  by_cases h : u = t
  · subst h; simp [svc, onSlice]
  · simp [svc, onSlice, getTile_setTile_ne, h]
theorem slice_onSlice_ne (d : Dev) (t u : Nat) (f : Slice → Slice) (h : u ≠ t) : slice (onSlice d t f) u = slice d u := by
  simp [slice, onSlice, getTile_setTile_ne, h]
@[simp] theorem chan_onChan (d : Dev) (t : Nat) (f : Chan → Chan) : chan (onChan d t f) t = f (chan d t) := by
  simp [chan, onChan]
@[simp] theorem slice_onChan (d : Dev) (t u : Nat) (f : Chan → Chan) : slice (onChan d t f) u = slice d u := by
  by_cases h : u = t
  · subst h; simp [slice, onChan]
  · simp [slice, onChan, getTile_setTile_ne, h]
@[simp] theorem svc_onChan (d : Dev) (t u : Nat) (f : Chan → Chan) : svc (onChan d t f) u = svc d u := by
  by_cases h : u = t
  · subst h; simp [svc, onChan]
  · simp [svc, onChan, getTile_setTile_ne, h]
theorem chan_onChan_ne (d : Dev) (t u : Nat) (f : Chan → Chan) (h : u ≠ t) : chan (onChan d t f) u = chan d u := by
  simp [chan, onChan, getTile_setTile_ne, h]
@[simp] theorem svc_onSvc (d : Dev) (t : Nat) (f : Svc → Svc) : svc (onSvc d t f) t = f (svc d t) := by
  simp [svc, onSvc]
@[simp] theorem slice_onSvc (d : Dev) (t u : Nat) (f : Svc → Svc) : slice (onSvc d t f) u = slice d u := by
  by_cases h : u = t
  · subst h; simp [slice, onSvc]
  · simp [slice, onSvc, getTile_setTile_ne, h]
@[simp] theorem chan_onSvc (d : Dev) (t u : Nat) (f : Svc → Svc) : chan (onSvc d t f) u = chan d u := by
  by_cases h : u = t
  · subst h; simp [chan, onSvc]
  · simp [chan, onSvc, getTile_setTile_ne, h]
theorem svc_onSvc_ne (d : Dev) (t u : Nat) (f : Svc → Svc) (h : u ≠ t) : svc (onSvc d t f) u = svc d u := by
  simp [svc, onSvc, getTile_setTile_ne, h]
@[simp] theorem svc_onHem (d : Dev) (t : Nat) (f : Hem → Hem) : svc (onHem d t f) t = { svc d t with hem := f (svc d t).hem } := by
  simp [onHem]
theorem svc_onHem_ne (d : Dev) (t u : Nat) (f : Hem → Hem) (h : u ≠ t) : svc (onHem d t f) u = svc d u := by
  simp [onHem, svc_onSvc_ne, h]

/-! ## Parts read from a field alone -/

theorem rget_congr {d e : Dev} (h : d.regs = e.regs) (o : Nat) : rget d o = rget e o := by simp [rget, h]
theorem getTile_congr {d e : Dev} (h : d.tiles = e.tiles) (t : Nat) : getTile d t = getTile e t := by simp [getTile, h]
theorem getTxn_congr {d e : Dev} (h : d.txns = e.txns) (i : Nat) : getTxn d i = getTxn e i := by simp [getTxn, h]
theorem getPort_congr {d e : Dev} (h : d.ports = e.ports) (n : Nat) : getPort d n = getPort e n := by simp [getPort, h]
theorem getMaster_congr {d e : Dev} (h : d.reg = e.reg) (m : Nat) : getMaster d m = getMaster e m := by simp [getMaster, h]
theorem getPanel_congr {d e : Dev} (h : d.panels = e.panels) (p : Nat) : getPanel d p = getPanel e p := by simp [getPanel, h]

end Sys2Proof.Machine
end

