-- ==== Sys2Proof/Laws/Events.lean ====
section
/-!
SUPPORT. What raising an event and offering a Lint record can do: registers and counters, and the record queue.
-/
namespace Sys2Proof.Machine

theorem countOne_eq (e : Nat) (m b : Option Nat) (k : Nat) (d : Dev) (n : Nat) :
    ∃ t, countOne e m b k d n = { d with tally := t } := by
  unfold countOne
  dsimp only
  by_cases h : ((rget d (0x10100 + 0x20 * n)).getLsbD 31 && !frozen d && decide (bits (rget d (0x10100 + 0x20 * n)) 9 0 = e) &&
      isTEvent e && passes d n m b) = true
  · rw [if_pos h]; exact ⟨_, rfl⟩
  · rw [if_neg h]; exact ⟨d.tally, rfl⟩

theorem countEvent_eq (e : Nat) (m b : Option Nat) (k : Nat) (d : Dev) : ∃ t, countEvent e m b k d = { d with tally := t } := by
  unfold countEvent
  split
  · exact ⟨d.tally, rfl⟩
  · generalize List.range 8 = l
    induction l generalizing d with
    | nil => exact ⟨d.tally, rfl⟩
    | cons n l ih =>
      obtain ⟨t, ht⟩ := countOne_eq e m b k d n
      obtain ⟨u, hu⟩ := ih (countOne e m b k d n)
      exact ⟨u, by rw [List.foldl_cons, hu, ht]⟩

/-- Raising an event sets a pending bit and counts: nothing but registers and the counters can change. -/
theorem raiseN_eq (d : Dev) (e k : Nat) (m b : Option Nat) :
    ∃ t, raiseN d e k m b = { d with regs := if k = 0 then d.regs else (setPending e d).regs, tally := t } := by
  unfold raiseN
  split
  · exact ⟨d.tally, rfl⟩
  · obtain ⟨t, ht⟩ := countEvent_eq e m b k (setPending e d)
    refine ⟨t, ?_⟩
    rw [ht]
    unfold setPending
    split <;> rfl

section Fields
variable (d : Dev) (e k : Nat) (m b : Option Nat)

@[simp] theorem raiseN_pins : (raiseN d e k m b).pins = d.pins := by obtain ⟨t, h⟩ := raiseN_eq d e k m b; rw [h]
@[simp] theorem raiseN_cycle : (raiseN d e k m b).cycle = d.cycle := by obtain ⟨t, h⟩ := raiseN_eq d e k m b; rw [h]
@[simp] theorem raiseN_free : (raiseN d e k m b).free = d.free := by obtain ⟨t, h⟩ := raiseN_eq d e k m b; rw [h]
@[simp] theorem raiseN_ycp : (raiseN d e k m b).ycp = d.ycp := by obtain ⟨t, h⟩ := raiseN_eq d e k m b; rw [h]
@[simp] theorem raiseN_boot : (raiseN d e k m b).boot = d.boot := by obtain ⟨t, h⟩ := raiseN_eq d e k m b; rw [h]
@[simp] theorem raiseN_nextTxn : (raiseN d e k m b).nextTxn = d.nextTxn := by obtain ⟨t, h⟩ := raiseN_eq d e k m b; rw [h]
@[simp] theorem raiseN_txns : (raiseN d e k m b).txns = d.txns := by obtain ⟨t, h⟩ := raiseN_eq d e k m b; rw [h]
@[simp] theorem raiseN_ports : (raiseN d e k m b).ports = d.ports := by obtain ⟨t, h⟩ := raiseN_eq d e k m b; rw [h]
@[simp] theorem raiseN_reg : (raiseN d e k m b).reg = d.reg := by obtain ⟨t, h⟩ := raiseN_eq d e k m b; rw [h]
@[simp] theorem raiseN_tiles : (raiseN d e k m b).tiles = d.tiles := by obtain ⟨t, h⟩ := raiseN_eq d e k m b; rw [h]
@[simp] theorem raiseN_nextJob : (raiseN d e k m b).nextJob = d.nextJob := by obtain ⟨t, h⟩ := raiseN_eq d e k m b; rw [h]
@[simp] theorem raiseN_jobs : (raiseN d e k m b).jobs = d.jobs := by obtain ⟨t, h⟩ := raiseN_eq d e k m b; rw [h]
@[simp] theorem raiseN_panels : (raiseN d e k m b).panels = d.panels := by obtain ⟨t, h⟩ := raiseN_eq d e k m b; rw [h]
@[simp] theorem raiseN_blank : (raiseN d e k m b).blank = d.blank := by obtain ⟨t, h⟩ := raiseN_eq d e k m b; rw [h]
@[simp] theorem raiseN_mend : (raiseN d e k m b).mend = d.mend := by obtain ⟨t, h⟩ := raiseN_eq d e k m b; rw [h]
@[simp] theorem raiseN_lastUse : (raiseN d e k m b).lastUse = d.lastUse := by obtain ⟨t, h⟩ := raiseN_eq d e k m b; rw [h]
@[simp] theorem raiseN_maint : (raiseN d e k m b).maint = d.maint := by obtain ⟨t, h⟩ := raiseN_eq d e k m b; rw [h]
@[simp] theorem raiseN_sweep : (raiseN d e k m b).sweep = d.sweep := by obtain ⟨t, h⟩ := raiseN_eq d e k m b; rw [h]
@[simp] theorem raiseN_polled : (raiseN d e k m b).polled = d.polled := by obtain ⟨t, h⟩ := raiseN_eq d e k m b; rw [h]
@[simp] theorem raiseN_layer : (raiseN d e k m b).layer = d.layer := by obtain ⟨t, h⟩ := raiseN_eq d e k m b; rw [h]
@[simp] theorem raiseN_layers : (raiseN d e k m b).layers = d.layers := by obtain ⟨t, h⟩ := raiseN_eq d e k m b; rw [h]
@[simp] theorem raiseN_hbms : (raiseN d e k m b).hbms = d.hbms := by obtain ⟨t, h⟩ := raiseN_eq d e k m b; rw [h]
@[simp] theorem raiseN_mangle : (raiseN d e k m b).mangle = d.mangle := by obtain ⟨t, h⟩ := raiseN_eq d e k m b; rw [h]
@[simp] theorem raiseN_heat : (raiseN d e k m b).heat = d.heat := by obtain ⟨t, h⟩ := raiseN_eq d e k m b; rw [h]
@[simp] theorem raiseN_energy : (raiseN d e k m b).energy = d.energy := by obtain ⟨t, h⟩ := raiseN_eq d e k m b; rw [h]
@[simp] theorem raiseN_link : (raiseN d e k m b).link = d.link := by obtain ⟨t, h⟩ := raiseN_eq d e k m b; rw [h]
@[simp] theorem raiseN_retire : (raiseN d e k m b).retire = d.retire := by obtain ⟨t, h⟩ := raiseN_eq d e k m b; rw [h]
@[simp] theorem raiseN_lifts : (raiseN d e k m b).lifts = d.lifts := by obtain ⟨t, h⟩ := raiseN_eq d e k m b; rw [h]
@[simp] theorem raiseN_lint : (raiseN d e k m b).lint = d.lint := by obtain ⟨t, h⟩ := raiseN_eq d e k m b; rw [h]
@[simp] theorem raise_pins : (raise d e m b).pins = d.pins := raiseN_pins d e 1 m b
@[simp] theorem raise_cycle : (raise d e m b).cycle = d.cycle := raiseN_cycle d e 1 m b
@[simp] theorem raise_free : (raise d e m b).free = d.free := raiseN_free d e 1 m b
@[simp] theorem raise_ycp : (raise d e m b).ycp = d.ycp := raiseN_ycp d e 1 m b
@[simp] theorem raise_boot : (raise d e m b).boot = d.boot := raiseN_boot d e 1 m b
@[simp] theorem raise_nextTxn : (raise d e m b).nextTxn = d.nextTxn := raiseN_nextTxn d e 1 m b
@[simp] theorem raise_txns : (raise d e m b).txns = d.txns := raiseN_txns d e 1 m b
@[simp] theorem raise_ports : (raise d e m b).ports = d.ports := raiseN_ports d e 1 m b
@[simp] theorem raise_reg : (raise d e m b).reg = d.reg := raiseN_reg d e 1 m b
@[simp] theorem raise_tiles : (raise d e m b).tiles = d.tiles := raiseN_tiles d e 1 m b
@[simp] theorem raise_nextJob : (raise d e m b).nextJob = d.nextJob := raiseN_nextJob d e 1 m b
@[simp] theorem raise_jobs : (raise d e m b).jobs = d.jobs := raiseN_jobs d e 1 m b
@[simp] theorem raise_panels : (raise d e m b).panels = d.panels := raiseN_panels d e 1 m b
@[simp] theorem raise_blank : (raise d e m b).blank = d.blank := raiseN_blank d e 1 m b
@[simp] theorem raise_mend : (raise d e m b).mend = d.mend := raiseN_mend d e 1 m b
@[simp] theorem raise_lastUse : (raise d e m b).lastUse = d.lastUse := raiseN_lastUse d e 1 m b
@[simp] theorem raise_maint : (raise d e m b).maint = d.maint := raiseN_maint d e 1 m b
@[simp] theorem raise_sweep : (raise d e m b).sweep = d.sweep := raiseN_sweep d e 1 m b
@[simp] theorem raise_polled : (raise d e m b).polled = d.polled := raiseN_polled d e 1 m b
@[simp] theorem raise_layer : (raise d e m b).layer = d.layer := raiseN_layer d e 1 m b
@[simp] theorem raise_layers : (raise d e m b).layers = d.layers := raiseN_layers d e 1 m b
@[simp] theorem raise_hbms : (raise d e m b).hbms = d.hbms := raiseN_hbms d e 1 m b
@[simp] theorem raise_mangle : (raise d e m b).mangle = d.mangle := raiseN_mangle d e 1 m b
@[simp] theorem raise_heat : (raise d e m b).heat = d.heat := raiseN_heat d e 1 m b
@[simp] theorem raise_energy : (raise d e m b).energy = d.energy := raiseN_energy d e 1 m b
@[simp] theorem raise_link : (raise d e m b).link = d.link := raiseN_link d e 1 m b
@[simp] theorem raise_retire : (raise d e m b).retire = d.retire := raiseN_retire d e 1 m b
@[simp] theorem raise_lifts : (raise d e m b).lifts = d.lifts := raiseN_lifts d e 1 m b
@[simp] theorem raise_lint : (raise d e m b).lint = d.lint := raiseN_lint d e 1 m b

@[simp] theorem raiseN_regs : (raiseN d e k m b).regs = if k = 0 then d.regs else (setPending e d).regs := by
  obtain ⟨t, h⟩ := raiseN_eq d e k m b; rw [h]
@[simp] theorem raise_regs : (raise d e m b).regs = (setPending e d).regs := by simp [raise]

end Fields

theorem rget_setPending_ne (d : Dev) (e o : Nat) (h : o < 0x80 ∨ 0xA0 ≤ o) : rget (setPending e d) o = rget d o := by
  unfold setPending
  split
  · apply rget_rset_ne
    unfold irqPend
    omega
  · rfl

/-- Registers but the eight pending registers stay. -/
theorem rget_raiseN_ne (d : Dev) (e k o : Nat) (m b : Option Nat) (h : o < 0x80 ∨ 0xA0 ≤ o) :
    rget (raiseN d e k m b) o = rget d o := by
  by_cases hk : k = 0
  · exact rget_congr (by simp [hk]) o
  · rw [rget_congr (e := setPending e d) (by simp [hk]) o, rget_setPending_ne d e o h]

theorem rget_raise_ne (d : Dev) (e o : Nat) (m b : Option Nat) (h : o < 0x80 ∨ 0xA0 ≤ o) :
    rget (raise d e m b) o = rget d o := rget_raiseN_ne d e 1 o m b h

/-- An interrupt cause's pending bit is set by its event (R514). -/
theorem rget_raise_pend (d : Dev) (e : Nat) (m b : Option Nat) (h : 0x100 ≤ e ∧ e < 0x200) :
    rget (raise d e m b) (irqPend ((e - 0x100) / 0x20)) =
      rget d (irqPend ((e - 0x100) / 0x20)) ||| BitVec.ofNat 32 (1 <<< ((e - 0x100) % 0x20)) := by
  rw [rget_congr (e := setPending e d) (by simp) _]
  unfold setPending
  rw [if_pos h, rget_rset]

/-! ## Lint records -/

theorem lintDrop_eq (d : Dev) : ∃ r t, lintDrop d = { d with regs := r, tally := t } := by
  by_cases h : rget d 0xA04C = 0
  · obtain ⟨t, ht⟩ := raiseN_eq d Ev.LINT_DROP 1 none none
    have e : lintDrop d = rinc (raise d Ev.LINT_DROP) 0xA04C 1 := by unfold lintDrop; rw [if_pos h]
    exact ⟨(lintDrop d).regs, t, by rw [e]; unfold raise; rw [ht]; rfl⟩
  · exact ⟨(rinc d 0xA04C 1).regs, d.tally, by unfold lintDrop; rw [if_neg h]; rfl⟩

/-- Offering a record can change registers, the counters and the record queue. -/
theorem lint_eq (d : Dev) (kind : Nat) (w : LintAt) (x y : Nat) :
    ∃ r t l, lint d kind w x y = { d with regs := r, tally := t, lint := l } := by
  unfold lint
  split
  · exact ⟨d.regs, d.tally, d.lint, rfl⟩
  · dsimp only
    split
    · exact ⟨d.regs, d.tally, _, rfl⟩
    · exact (lintDrop_eq { d with lint := _ }).elim fun r h => h.elim fun t h => ⟨r, t, _, h⟩

section Fields
variable (d : Dev) (kind : Nat) (w : LintAt) (x y : Nat)

@[simp] theorem lint_pins : (lint d kind w x y).pins = d.pins := by obtain ⟨r, t, l, h⟩ := lint_eq d kind w x y; rw [h]
@[simp] theorem lint_cycle : (lint d kind w x y).cycle = d.cycle := by obtain ⟨r, t, l, h⟩ := lint_eq d kind w x y; rw [h]
@[simp] theorem lint_free : (lint d kind w x y).free = d.free := by obtain ⟨r, t, l, h⟩ := lint_eq d kind w x y; rw [h]
@[simp] theorem lint_ycp : (lint d kind w x y).ycp = d.ycp := by obtain ⟨r, t, l, h⟩ := lint_eq d kind w x y; rw [h]
@[simp] theorem lint_boot : (lint d kind w x y).boot = d.boot := by obtain ⟨r, t, l, h⟩ := lint_eq d kind w x y; rw [h]
@[simp] theorem lint_nextTxn : (lint d kind w x y).nextTxn = d.nextTxn := by obtain ⟨r, t, l, h⟩ := lint_eq d kind w x y; rw [h]
@[simp] theorem lint_txns : (lint d kind w x y).txns = d.txns := by obtain ⟨r, t, l, h⟩ := lint_eq d kind w x y; rw [h]
@[simp] theorem lint_ports : (lint d kind w x y).ports = d.ports := by obtain ⟨r, t, l, h⟩ := lint_eq d kind w x y; rw [h]
@[simp] theorem lint_reg : (lint d kind w x y).reg = d.reg := by obtain ⟨r, t, l, h⟩ := lint_eq d kind w x y; rw [h]
@[simp] theorem lint_tiles : (lint d kind w x y).tiles = d.tiles := by obtain ⟨r, t, l, h⟩ := lint_eq d kind w x y; rw [h]
@[simp] theorem lint_nextJob : (lint d kind w x y).nextJob = d.nextJob := by obtain ⟨r, t, l, h⟩ := lint_eq d kind w x y; rw [h]
@[simp] theorem lint_jobs : (lint d kind w x y).jobs = d.jobs := by obtain ⟨r, t, l, h⟩ := lint_eq d kind w x y; rw [h]
@[simp] theorem lint_panels : (lint d kind w x y).panels = d.panels := by obtain ⟨r, t, l, h⟩ := lint_eq d kind w x y; rw [h]
@[simp] theorem lint_blank : (lint d kind w x y).blank = d.blank := by obtain ⟨r, t, l, h⟩ := lint_eq d kind w x y; rw [h]
@[simp] theorem lint_mend : (lint d kind w x y).mend = d.mend := by obtain ⟨r, t, l, h⟩ := lint_eq d kind w x y; rw [h]
@[simp] theorem lint_lastUse : (lint d kind w x y).lastUse = d.lastUse := by obtain ⟨r, t, l, h⟩ := lint_eq d kind w x y; rw [h]
@[simp] theorem lint_maint : (lint d kind w x y).maint = d.maint := by obtain ⟨r, t, l, h⟩ := lint_eq d kind w x y; rw [h]
@[simp] theorem lint_sweep : (lint d kind w x y).sweep = d.sweep := by obtain ⟨r, t, l, h⟩ := lint_eq d kind w x y; rw [h]
@[simp] theorem lint_polled : (lint d kind w x y).polled = d.polled := by obtain ⟨r, t, l, h⟩ := lint_eq d kind w x y; rw [h]
@[simp] theorem lint_layer : (lint d kind w x y).layer = d.layer := by obtain ⟨r, t, l, h⟩ := lint_eq d kind w x y; rw [h]
@[simp] theorem lint_layers : (lint d kind w x y).layers = d.layers := by obtain ⟨r, t, l, h⟩ := lint_eq d kind w x y; rw [h]
@[simp] theorem lint_hbms : (lint d kind w x y).hbms = d.hbms := by obtain ⟨r, t, l, h⟩ := lint_eq d kind w x y; rw [h]
@[simp] theorem lint_mangle : (lint d kind w x y).mangle = d.mangle := by obtain ⟨r, t, l, h⟩ := lint_eq d kind w x y; rw [h]
@[simp] theorem lint_heat : (lint d kind w x y).heat = d.heat := by obtain ⟨r, t, l, h⟩ := lint_eq d kind w x y; rw [h]
@[simp] theorem lint_energy : (lint d kind w x y).energy = d.energy := by obtain ⟨r, t, l, h⟩ := lint_eq d kind w x y; rw [h]
@[simp] theorem lint_link : (lint d kind w x y).link = d.link := by obtain ⟨r, t, l, h⟩ := lint_eq d kind w x y; rw [h]
@[simp] theorem lint_retire : (lint d kind w x y).retire = d.retire := by obtain ⟨r, t, l, h⟩ := lint_eq d kind w x y; rw [h]
@[simp] theorem lint_lifts : (lint d kind w x y).lifts = d.lifts := by obtain ⟨r, t, l, h⟩ := lint_eq d kind w x y; rw [h]

/-- No record is offered before the ring opens at apply (R488). -/
theorem lint_closed (h : d.lint.open_ = false) : lint d kind w x y = d := by simp [lint, h]

end Fields

theorem rget_lint_ne (d : Dev) (kind o : Nat) (w : LintAt) (x y : Nat) (h : o < 0x80 ∨ 0xA0 ≤ o) (h' : o ≠ 0xA04C) :
    rget (lint d kind w x y) o = rget d o := by
  unfold lint
  split
  · rfl
  · dsimp only
    split
    · rfl
    · unfold lintDrop rinc rcount rsetBits
      dsimp only
      rw [rget_rset_ne _ _ _ _ h']
      split
      · rw [rget_raise_ne _ _ _ _ _ h]; rfl
      · rfl

end Sys2Proof.Machine
end

