-- ==== Sys2Proof/Laws/Shared.lean ====
section
/-!
SUPPORT. What small shared operations of channels, jobs and the seam can do: what a new job holds, that a line which crosses the
seam changes its channel only, that counting a raised age touches registers and counters only, which row a line of a read entry names,
what a discarded mode write gives back, that the die link's queue keeps its limit or holds no request, and that FUSE_READ shifts every
fuse out once.
-/
namespace Sys2Proof.Machine

section MkJob
variable (st : Stripe) (k : JobKind) (p : Nat) (l : List Nat)

@[simp] theorem mkJob_stripe : (mkJob st k p l).stripe = st := rfl
@[simp] theorem mkJob_kind : (mkJob st k p l).kind = k := rfl
@[simp] theorem mkJob_prio : (mkJob st k p l).prio = p := rfl
@[simp] theorem mkJob_toRead : (mkJob st k p l).toRead = l := rfl
@[simp] theorem mkJob_open : (mkJob st k p l).open_ = [] := rfl
@[simp] theorem mkJob_got : (mkJob st k p l).got = [] := rfl
@[simp] theorem mkJob_puts : (mkJob st k p l).puts = 0 := rfl
@[simp] theorem mkJob_stale : (mkJob st k p l).stale = [] := rfl
@[simp] theorem mkJob_aged : (mkJob st k p l).aged = false := rfl
/-- A new job has not begun: it holds no rebuild slot (R367). -/
@[simp] theorem started_mkJob : started (mkJob st k p l) = false := rfl

end MkJob

section Cross
variable (d : Dev) (t r at_ : Nat) (w : Bool) (x : DLine)

@[simp] theorem slice_crossLine (k : Nat) : slice (crossLine d t r at_ w x) k = slice d k := slice_onChan d t k _
@[simp] theorem svc_crossLine (k : Nat) : svc (crossLine d t r at_ w x) k = svc d k := svc_onChan d t k _
@[simp] theorem crossLine_regs : (crossLine d t r at_ w x).regs = d.regs := rfl
@[simp] theorem crossLine_jobs : (crossLine d t r at_ w x).jobs = d.jobs := rfl
@[simp] theorem crossLine_txns : (crossLine d t r at_ w x).txns = d.txns := rfl
@[simp] theorem crossLine_pins : (crossLine d t r at_ w x).pins = d.pins := rfl

end Cross

/-- A raised age is counted in its tile's register and raises READ_ESCALATE, unless the priority was 7 before (R262). -/
theorem countEscalate_eq (d : Dev) (t p : Nat) :
    ∃ r y, countEscalate d t p = { d with regs := r, tally := y } ∧ (p = 7 → r = d.regs ∧ y = d.tally) := by
  unfold countEscalate
  split
  · exact ⟨d.regs, d.tally, rfl, fun _ => ⟨rfl, rfl⟩⟩
  · rename_i h
    obtain ⟨y, hy⟩ := raiseN_eq (rinc d (tileOff t 0x01C) 1) Ev.READ_ESCALATE 1 none none
    exact ⟨_, y, hy, fun e => absurd e h⟩

section Rows
variable (e : REntry) (col : Nat)

/-- An entry that is no BG entry names one row (R251). -/
theorem rowOf_of_ne_bg (h : e.kind ≠ .bg) : e.rowOf col = e.row := by simp [REntry.rowOf, h]
/-- The even line of a BG entry (R251). -/
theorem rowOf_even (h : col % 2 = 0) : e.rowOf col = e.row := by simp [REntry.rowOf, h]
/-- The odd line of a BG entry (R251, R386). -/
theorem rowOf_odd (hk : e.kind = .bg) (h : col % 2 = 1) : e.rowOf col = e.oddRow := by simp [REntry.rowOf, hk, h]

end Rows

section Undo
variable (since : List ModeUndo) (x : Layer)

/-- A discarded mode register write that no later one covers gives the register its value back (R407). -/
theorem undoMode_mr (n old : Nat) (h : since.any (setsMr n) = false) : undoMode since (.mr n old) x = setMr x n old := by
  simp [undoMode, h]
/-- One that a later write covers leaves the layer as it is (R407). -/
theorem undoMode_mr_covered (n old : Nat) (h : since.any (setsMr n) = true) : undoMode since (.mr n old) x = x := by
  simp [undoMode, h]
/-- What is discarded of the FIFO touches no mode register (R407). -/
theorem undoMode_fifo (u : ModeUndo) (h : u = .fifoWr ∨ ∃ l, u = .fifoRd l) :
    undoMode since u x = { x with fifo := (undoMode since u x).fifo } := by
  obtain rfl | ⟨l, rfl⟩ := h <;> simp only [undoMode] <;> split <;> (try split) <;> rfl

end Undo

/-- Giving room up ends with the queue of 64 entries within its limit, with no request left to give back, or after as many steps as it
was given (R63). -/
theorem yieldRoom_ends (n : Nat) (a : Dev × List Msg) :
    queueUsed (yieldRoom n a).1 ≤ 64 ∨ unsend (yieldRoom n a).1 = none ∨ (yieldRoom n a).2.length = a.2.length + n := by
  induction n generalizing a with
  | zero => exact .inr (.inr rfl)
  | succ n ih =>
    simp only [yieldRoom]
    split
    · exact .inl ‹_›
    · split
      · rename_i m d _
        obtain h | h | h := ih (d, m :: a.2)
        · exact .inl h
        · exact .inr (.inl h)
        · exact .inr (.inr (by simp only [List.length_cons] at h; omega))
      · exact .inr (.inl ‹_›)

/-- Whatever the free values pick, every element stands in the order once. -/
theorem shuffle_perm (pick : Nat → Nat) (l : List Nat) (n : Nat) : (shuffle pick n l).Perm l := by
  induction l generalizing n with
  | nil => exact .refl _
  | cons a l ih =>
    have hl := (ih (n + 1)).length_eq
    refine (List.perm_insertIdx a _ ?_).trans ((ih (n + 1)).cons a)
    rw [hl]; exact Nat.le_of_lt_succ (Nat.mod_lt _ (Nat.succ_pos _))

/-- FUSE_READ shifts every fuse out, and each once (R540). -/
theorem shiftFuses_perm (f : Fuses) : (shiftFuses f).Perm (fuseBits f) := shuffle_perm _ _ 0

end Sys2Proof.Machine
end

