-- ==== Sys2Proof/Tests/Slice0.lean ====
section
/-!
SUPPORT. Small tests: which commands are well formed, and for each hypothesis of a statement a state and operands that meet
all of them together. `witness_` names the statement.
-/
namespace Sys2Proof.Tests

open Sys2Proof.Machine Sys2Proof.Claims

set_option Elab.async false

/-! ## States -/

/-- The state with an instance and nothing waiting. -/
def st (d : Dev) : State := { State.reset with dev := d }
/-- An instance out of reset with its clocks and its hems' clocks, ready. -/
def live : Dev :=
  { Reset.dev with pins := { Reset.pins with rstAsserted := false, rstPin := false, pllCore := true, ready := true, ck := true } }
def tileIs (t : Nat) (x : Tile) : Dev := { live with tiles := [(t, x)] }
def chanIs (t : Nat) (c : Chan) : Dev := tileIs t { Reset.tile with chan := c }
def svcIs (t : Nat) (v : Svc) : Dev := tileIs t { Reset.tile with svc := v }
def sliceIs (t : Nat) (s : Slice) : Dev := tileIs t { Reset.tile with slice := s }
def regIs (d : Dev) (off : Nat) (v : Word) : Dev := { d with regs := [(off, v)] }
def bootIs (d : Dev) (f : Boot → Boot) : Dev := { d with boot := f d.boot }
def peerIs (d : Dev) (i : Nat) (p : Peer) : Dev := { d with link := { d.link with peers := [(i, p)] } }
/-- A transaction of port 3 with tag 7: four sectors from byte 2048 on. -/
def txn (k : Kind) : Txn :=
  ⟨.port 3 7, 3, k, 0, 0x40, 4, .none, 0, [(0, 0)], 0, none, true, 1, true, 3, 0, [], 2, [], false, false, none⟩
/-- One poll in which nothing is valid, and a training that passes. -/
def noTemps : Readings := ⟨[], none, none, 0, 0, 0⟩
def goodTrial : Trial := ⟨(1, 0x1100), (1, 0x1100), 40, 40, 40, 0, true, true, none⟩
def hdr : Header := ⟨3, 7, 0x40, 3, 0, 0, 0, 0, .hold⟩

/-! ## Well-formed commands: an ill-formed one for each check -/

theorem test_wf_bank : Instr.wellFormed (.rowIdleClose 300 47 0) = true ∧ Instr.wellFormed (.rowIdleClose 0 32 0) = false := by
  decide +kernel
theorem test_wf_rank : Instr.wellFormed (.powerDownEntry 0 1 0) = true ∧ Instr.wellFormed (.powerDownEntry 300 1 0) = false ∧
    Instr.wellFormed (.powerDownExit 300 1 0) = false := by decide +kernel
theorem test_wf_ecc : Instr.wellFormed (.lineReadReturn 300 0 0 .corrected .none) = true ∧
    Instr.wellFormed (.lineReadReturn 0 0 0 .corrected .none) = false := by decide +kernel
theorem test_wf_refresh : Instr.wellFormed (.refreshDue 300 47 0) = true ∧ Instr.wellFormed (.refreshDue 0 2 0) = false ∧
    Instr.wellFormed (.refreshRepay 300 0 0) = false ∧ Instr.wellFormed (.rfmRequest 0 0 0) = false := by decide +kernel
theorem test_wf_readings : Instr.wellFormed (.tempPoll { noTemps with near := [(0, none, none)] }) = true ∧
    Instr.wellFormed (.tempPoll { noTemps with near := [(0, none, none), (0, none, none)] }) = false := by decide +kernel
theorem test_wf_parity : Instr.wellFormed (.parityReport 0 ⟨1, ⟨1, 0, 0, 0⟩⟩ false 4) = true ∧
    Instr.wellFormed (.parityReport 0 ⟨0, ⟨1, 0, 0, 0⟩⟩ false 4) = false := by decide +kernel
theorem test_wf_start : Instr.wellFormed (.coldStart ⟨noTemps, 40, [⟨0, { goodTrial with pin := some 291 }⟩], [⟨.blank, 0, 5⟩], []⟩) = true ∧
    Instr.wellFormed (.coldStart ⟨noTemps, 40, [⟨0, goodTrial⟩, ⟨0, goodTrial⟩], [], []⟩) = false ∧
    Instr.wellFormed (.coldStart ⟨noTemps, 40, [⟨300, { goodTrial with pin := some 68 }⟩], [], []⟩) = false ∧
    Instr.wellFormed (.warmStart ⟨noTemps, 40, [], [⟨.blank, 1, 0⟩], []⟩) = false ∧
    Instr.wellFormed (.warmStart ⟨noTemps, 40, [], [⟨.blank, 0, 6⟩], []⟩) = false ∧
    Instr.wellFormed (.warmStart ⟨noTemps, 40, [], [⟨.blank, 0, 0⟩, ⟨.blank, 0, 0⟩], []⟩) = false ∧
    Instr.wellFormed (.warmStart ⟨noTemps, 40, [], [], [⟨0, 32, 0, 0, 1, 0, .none, .none⟩]⟩) = false ∧
    Instr.wellFormed (.warmStart ⟨noTemps, 40, [], [], [⟨0, 31, 0, 0, 1, 0, .corrected, .none⟩]⟩) = false := by decide +kernel
theorem test_wf_upset : Instr.wellFormed (.tileGrant 0 (some (.tub 0 0 1 0 0))) = true ∧
    Instr.wellFormed (.tileGrant 0 (some (.tub 0 0 0 0 0))) = false := by decide +kernel
theorem test_wf_message :
    Instr.wellFormed (.reqMessage ⟨1, 0, .req 0 3 9 0 0 3 0 0 0 [(0, 0)]⟩) = true ∧
    Instr.wellFormed (.reqMessage ⟨0, 0, .req 0 3 9 0 0 3 0 0 0 [(0, 0)]⟩) = false ∧
    Instr.wellFormed (.reqMessage ⟨1, 0, .req 0 3 9 12 0 3 0 0 0 [(0, 0)]⟩) = false ∧
    Instr.wellFormed (.reqMessage ⟨1, 0, .leave⟩) = false ∧
    Instr.wellFormed (.rspMessage ⟨1, 0, .rsp 9 .okay [] []⟩) = true ∧
    Instr.wellFormed (.rspMessage ⟨1, 0, .rsp 9 .okay [] (List.replicate 9 0)⟩) = false ∧
    Instr.wellFormed (.messageRelay 0 ⟨1, 0, .regWrite 2 0⟩) = false := by decide +kernel
theorem test_wf_link : Instr.wellFormed (.hello (.own 0) 1 0 0 0) = true ∧ Instr.wellFormed (.hello (.own 0) 0 0 0 0) = false ∧
    Instr.wellFormed (.image 1 []) = false ∧ Instr.wellFormed (.image 224 []) = false := by decide +kernel
theorem test_wf_offset : Instr.wellFormed (.registerWrite 4 ⟨.host 0, []⟩) = true ∧
    Instr.wellFormed (.registerWrite 2 ⟨.host 0, []⟩) = false ∧ Instr.wellFormed (.regWrite 1 0) = false ∧
    Instr.wellFormed (.rcRead .host ⟨3, 0⟩) = false := by decide +kernel

/-! ## Request ports -/

def reused : Dev := { live with txns := [(0, txn .read)], nextTxn := 1 }
def owedTxn : Dev :=
  { live with txns := [(0, { txn .write with owed := 2 })], nextTxn := 1, ports := [(3, { Reset.port with owing := some (.txn 0 2) })] }
def owedGone : Dev := { live with ports := [(3, { Reset.port with owing := some (.discarded 7 1) })] }
def markedAtHead : Dev :=
  { live with txns := [(0, { txn .reserved with mark := some .denied, hasCredit := false, admitted := false })], nextTxn := 1,
              reg := { Reset.regulator with masters := [(3, { Reset.master with queue := [0] })] } }
/-- A read past the end of the package's addresses. -/
def pastEnd : Txn := { txn .read with addr := 0x3FFFFFFFF, sectors := 2 }
def failsFold : Dev :=
  { live with txns := [(0, pastEnd)], nextTxn := 1,
              reg := { Reset.regulator with masters := [(3, { Reset.master with queue := [0] })] } }

/-- A request of port 3 for the four sectors from byte 2048 on waits for admission. -/
def ordinary (k : Kind) : Txn := { txn k with hasCredit := false, admitted := false, left := 0, prio := 0, reserved := 0, beats := [(5, 9)] }
def ordinaryAtHead (k : Kind) : Dev :=
  { live with txns := [(0, ordinary k)], nextTxn := 1,
              reg := { Reset.regulator with masters := [(3, { Reset.master with queue := [0] })] } }
theorem witness_ordinary_admitted : ∀ k ∈ [Kind.read, .write, .prefetch, .clean, .atomic], let s := st (ordinaryAtHead k)
    (getMaster s.dev 3).queue = [0] ∧ getTxn s.dev 0 = some (ordinary k) ∧ (ordinary k).src = .port 3 7 ∧ (ordinary k).master = 3 ∧
    (ordinary k).owed = 0 ∧ (ordinary k).mark = none ∧ k.isTub = false ∧ (ordinary k).silent = false ∧ 1 ≤ (ordinary k).sectors ∧
    s.dev.pins.mask.getLsbD 3 = false ∧ creditOk s.dev 3 = true ∧
    (getPort s.dev 3).reserved + max 1 (k.rspBeats (ordinary k).sectors) ≤ 512 ∧
    foldCheck s.dev 3 k (ordinary k).addr (ordinary k).sectors = .local 0 2048 ∧
    (∀ e ∈ s.dev.txns, e.2.master = 3 → e.2.unsent = []) ∧ s.dev.tiles = [] := by decide +kernel
theorem witness_headers_correct : request (.read hdr) = some (.read, 0, hdr) ∧ hdr.flow = .hold ∧ portFree (st live).dev hdr ∧
    checkOf .read 0 hdr = none := by decide +kernel
theorem witness_headers_marked : request (.reservedType hdr 1) = some (.reserved, 0, hdr) ∧ hdr.flow = .hold ∧
    portFree (st live).dev hdr ∧ checkOf .reserved 0 hdr ≠ none := by decide +kernel
theorem witness_ready_low : request (.read hdr) = some (.read, 0, hdr) ∧ reqReady (st Reset.dev).dev hdr.port.val = false ∧
    (Reset.dev.pins.ready = false ∨ Reset.dev.pins.mask.getLsbD 3 = true) := by decide +kernel
theorem witness_reused_tag : request (.read hdr) = some (.read, 0, hdr) ∧ reqReady (st reused).dev hdr.port.val = true ∧
    (getPort (st reused).dev hdr.port.val).owing = none ∧ tagOut (st reused).dev hdr.port.val hdr.tag = true := by decide +kernel
theorem witness_beat_owed : reqReady (st owedTxn).dev 3 = true ∧ (getPort (st owedTxn).dev 3).owing = some (.txn 0 2) ∧
    1 ≤ 2 ∧ getTxn (st owedTxn).dev 0 = some { txn .write with owed := 2 } := by decide +kernel
theorem witness_beat_gone : reqReady (st owedGone).dev 3 = true ∧
    (getPort (st owedGone).dev 3).owing = some (.discarded 7 1) ∧ 1 ≤ 1 := by decide +kernel
theorem witness_beat_extra : reqReady (st live).dev 3 = true ∧ (getPort (st live).dev 3).owing = none := by decide +kernel
theorem witness_marked_admitted : (getMaster (st markedAtHead).dev 3).queue = [0] ∧
    (∃ x, getTxn (st markedAtHead).dev 0 = some x ∧ x.src = .port 3 7 ∧ x.master = 3 ∧ x.owed = 0 ∧
      x.mark = some .denied ∧ x.kind.isTub = false ∧ x.silent = false ∧
      (x.hasCredit = true ∨ creditOk (st markedAtHead).dev 3 = true)) ∧
    (st markedAtHead).dev.pins.mask.getLsbD 3 = false ∧ (getPort (st markedAtHead).dev 3).reserved + 1 ≤ 512 := by
  refine ⟨by decide +kernel, ⟨_, rfl, by decide +kernel⟩, by decide +kernel⟩
theorem witness_fails_fold : (getMaster (st failsFold).dev 3).queue = [0] ∧ getTxn (st failsFold).dev 0 = some pastEnd ∧
    pastEnd.mark = none ∧ pastEnd.kind.isTub = false ∧ pastEnd.src = .port 3 7 ∧
    foldCheck (st failsFold).dev pastEnd.master pastEnd.kind pastEnd.addr pastEnd.sectors = .answer .range := by decide +kernel

def dueOne : Dev := { live with reg := { Reset.regulator with masters := [(3, { Reset.master with held := 1, due := [⟨0, false, 0⟩] })] } }
def doneOne : Dev :=
  { live with txns := [(0, txn .read)], nextTxn := 1,
              ports := [(3, { Reset.port with reserved := 1, done := [(0, 1, ⟨7, .okay, [0], [0]⟩)] })] }
def maskedBusy : Dev := { live with txns := [(0, txn .read)], nextTxn := 1, pins := { live.pins with mask := 8 } }

theorem witness_credit_return : (getMaster (st dueOne).dev 3).due = [⟨0, false, 0⟩] := by decide +kernel
theorem witness_response_leave : (getPort (st doneOne).dev 3).done = [(0, 1, ⟨7, .okay, [0], [0]⟩)] := by decide +kernel
theorem witness_mask_clear : isQuiet (st maskedBusy).dev 3 = false ∧ (st maskedBusy).dev.pins.mask.getLsbD 3 = true := by decide +kernel
/-- A READ of port 3 that its tile's arbiter has not granted, and nothing else anywhere. -/
def unserved : Dev := { live with txns := [(0, txn .read)], nextTxn := 1 }
theorem witness_mask_discards : (st unserved).dev.pins.mask.getLsbD 3 = false ∧ (st unserved).dev.txns = [(0, txn .read)] ∧
    (txn .read).src = .port 3 7 ∧ (txn .read).master = 3 ∧ (txn .read).admitted = true ∧ (txn .read).fwd = none ∧
    grantedParts (st unserved).dev 0 = 0 ∧ (st unserved).dev.mangle = Reset.mangle ∧ (getPort (st unserved).dev 3).done = [] ∧
    allIdle (st unserved).dev := by decide +kernel
theorem witness_fold_inverse : 983039 < npOf 0 * nbOf (0 != 0) * nwOf (0 != 0) := by decide +kernel
theorem witness_no_access : foldCheck live 3 .read 0x40 4 = .local 0 2048 ∧ 1 ≤ 4 := by decide +kernel

/-! ## Press and Mangle -/

def l0 : Loc := ⟨0, 2, 5, 0⟩
/-- Every bolt of the package is valid. -/
def full (d : Dev) : Dev := { d with blank := { d.blank with valid := [(0, 62914559)] } }
/-- The slice of tile 0 holds a dirty line at `l0`. -/
def held0 : Slice := { Reset.slice with sets := [(setIndex l0, ⟨[(4, ⟨true, true, false, false, 2, 5, 9, 77, entryCrc 77⟩)], [4]⟩)] }
def readPart (h : Hint) : Part := ⟨0, 0, 3, 0, .read h, l0, 9⟩
def hit (h : Hint) : Dev :=
  { sliceIs 0 { held0 with arb := [(3, [readPart h])], decided := some (3, false) } with txns := [(0, { txn .read with addr := 0 })], nextTxn := 1 }
def arrivedMiss : Miss := ⟨l0, 9, .arrived 77 false, 0, [readPart .stream]⟩
def filled : Dev :=
  { sliceIs 0 { Reset.slice with miss := [arrivedMiss] } with txns := [(0, { txn .read with addr := 0 })], nextTxn := 1 }
def outLine (victim : Bool) : OutLine := ⟨l0, 9, 77, false, victim, none⟩
def waitsOut (victim : Bool) : Dev := full (sliceIs 0 { held0 with outbox := [outLine victim] })
def maintRuns (op : Nat) : Dev := { live with maint := op, sweep := 1024 }
def maintWaits : Dev := { waitsOut false with maint := 1 }

theorem witness_quota_window : (st (bootIs live fun b => { b with done := true })).dev.boot.done = true := by decide
/-- The grant of tile 0 is decided when the window of its quota ends. -/
def windowOver : Dev := { hit .none with boot := { live.boot with done := true } }
theorem witness_quota_decided : (st windowOver).dev.boot.done = true ∧ (∀ k, k < 320 → maskedInputs (st windowOver).dev k = []) ∧
    (slice (st windowOver).dev 0).decided ≠ none ∧ (slice (st windowOver).dev 0).atWindow = none := by decide +kernel
theorem witness_reg_window : (st (bootIs live fun b => { b with applied := true })).dev.boot.applied = true := by decide
theorem witness_read_hit :
    readHit (st (hit .none)).dev 0 3 4 (readPart .none) false .none { txn .read with addr := 0 } ∧ 2 ≤ 2 := by decide +kernel
/-- The same READ with no other line to come, of a port that is masked or is not. -/
def lastHit (masked : Bool) : Dev :=
  { hit .none with txns := [(0, { txn .read with addr := 0, left := 1 })], pins := { live.pins with mask := if masked then 8 else 0 } }
theorem witness_last_hit : ∀ b : Bool,
    readHit (st (lastHit b)).dev 0 3 4 (readPart .none) false .none { txn .read with addr := 0, left := 1 } ∧
    (txn .read).src = .port 3 7 ∧ (txn .read).silent = false ∧ (st (lastHit b)).dev.pins.mask.getLsbD 3 = b := by decide +kernel
def undecided : Dev := sliceIs 0 { held0 with arb := [(3, [readPart .none])] }
/-- A victim waits for its Hamper: the slice of tile 0 takes nothing, and holds the decided grant. -/
def notTaken : Dev := sliceIs 0 { held0 with arb := [(3, [readPart .none])], decided := some (3, false), outbox := [⟨l0, 9, 77, false, true, none⟩] }
theorem witness_held : idleSlice (slice (st notTaken).dev 0) ∧ isGranted (st notTaken).dev 0 3 (readPart .none) false ∧
    accepts (st notTaken).dev 0 = false := by decide +kernel
theorem witness_decision : maskedInputs (st undecided).dev 0 = [] ∧ idleSlice (slice (st undecided).dev 0) ∧ (slice (st undecided).dev 0).decided = none ∧
    choose (st undecided).dev 0 = some (3, readPart .none, false) := by decide +kernel
theorem witness_fill_return : idleSlice (slice (st filled).dev 0) ∧ (slice (st filled).dev 0).miss = [arrivedMiss] ∧
    arrivedMiss.state = .arrived 77 false ∧ arrivedMiss.waiters = [readPart .stream] ∧ arrivedMiss.loc.tile = 0 ∧
    (readPart .stream).loc = arrivedMiss.loc ∧ (readPart .stream).op = .read .stream ∧
    (∀ o ∈ (slice (st filled).dev 0).outbox, o.loc ≠ arrivedMiss.loc) ∧ findWay (slice (st filled).dev 0) arrivedMiss.loc = none ∧
    getTxn (st filled).dev 0 = some { txn .read with addr := 0 } ∧ 2 ≤ 2 := by decide +kernel
theorem witness_dirty_line (v : Bool) : idleSlice (slice (st (waitsOut v)).dev 0) ∧
    idlePanel (st (waitsOut v)).dev (panelOf (st (waitsOut v)).dev 0) ∧ mayCreate (st (waitsOut v)).dev 0 = true ∧
    (slice (st (waitsOut v)).dev 0).outbox = [outLine v] ∧ (outLine v).loc.tile = 0 ∧ (outLine v).waiter = none ∧
    roleOf (st (waitsOut v)).dev l0 = .data ⟨panelOf (st (waitsOut v)).dev 0, 2, 5, 0, 0⟩ ∧
    isValid (st (waitsOut v)).dev 9 = true ∧
    outMembers (st (waitsOut v)).dev ⟨panelOf (st (waitsOut v)).dev 0, 2, 5, 0, 0⟩ = [] ∧
    hamRoom (chan (st (waitsOut v)).dev 0) 1 = true ∧ findWay (slice (st (waitsOut v)).dev 0) l0 = some 4 ∧
    (outLine v).victim = v ∧ (st (waitsOut v)).dev.maint ≠ 2 := by
  cases v <;> decide +kernel
/-- The first dirty line of a blank bolt waits at its slice. -/
def stF : Stripe := ⟨0, 2, 5, 0, 0⟩
def firstLine (victim : Bool) : OutLine := { outLine victim with bolt := stripeBolt live stF }
def blankOut (victim : Bool) : Dev := sliceIs 0 { held0 with outbox := [firstLine victim] }
theorem witness_zero_fill (v : Bool) : let s := st (blankOut v)
    idleSlice (slice s.dev 0) ∧ idlePanel s.dev (panelOf s.dev 0) ∧ mayCreate s.dev 0 = true ∧
    (slice s.dev 0).outbox = [firstLine v] ∧ (firstLine v).loc.tile = 0 ∧ (firstLine v).waiter = none ∧
    roleOf s.dev (firstLine v).loc = .data stF ∧ seated s.dev 0 ∧ isFar 0 = panelFar 0 ∧ (firstLine v).loc.col < 32 ∧
    stripeBolt s.dev stF = (firstLine v).bolt ∧ isValid s.dev (firstLine v).bolt = false ∧
    mget s.dev.blank.errs (mapWord (firstLine v).bolt) = none ∧ outMembers s.dev stF = [] ∧
    (svc s.dev (tileAt s.dev 0 stF.parityMember)).state ≠ .lifting ∧ boltRoom s.dev stF = true ∧
    findWay (slice s.dev 0) (firstLine v).loc = some 4 ∧ (firstLine v).victim = v ∧ s.dev.maint ≠ 2 := by
  cases v <;> decide +kernel
theorem witness_maint_starts : hostServed (st live).dev 0x6020 ∧ (st live).dev.maint = 0 ∧ ((1 : Nat) = 3 → (st live).dev.pins.ready = false) := by
  decide
theorem witness_maint_ignored : hostServed (st live).dev 0x6020 ∧ ((st live).dev.maint ≠ 0 ∨ ((3 : Nat) = 3 ∧ (st live).dev.pins.ready = true)) := by
  decide
theorem witness_maint_done : (st (maintRuns 1)).dev.maint ≠ 0 ∧ maintIdle (st (maintRuns 1)).dev = true ∧
    (st maintWaits).dev.maint ≠ 0 ∧ maintIdle (st maintWaits).dev = false := by decide +kernel
/-- One request to the line that tile 0 holds, its grant decided. -/
def hitWith (o : LineOp) (x : Txn) : Dev :=
  { sliceIs 0 { held0 with arb := [(3, [{ readPart .none with op := o }])], decided := some (3, false) } with txns := [(0, x)], nextTxn := 1 }
def writeTxn (left : Nat) : Txn := { txn .write with left := left }
def atomicTxn : Txn := { txn .atomic with left := 1 }
theorem witness_write_hit : ∀ n ∈ [1, 2],
    lineHit (st (hitWith (.write .none 0xF 5) (writeTxn n))).dev 0 3 4 { readPart .none with op := .write .none 0xF 5 } false (writeTxn n) ∧
    (writeTxn n).kind = .write ∧ (writeTxn n).src = .port 3 7 ∧ (writeTxn n).silent = false ∧ (writeTxn n).left = n ∧
    (st (hitWith (.write .none 0xF 5) (writeTxn n))).dev.pins.mask.getLsbD 3 = false := by decide +kernel
theorem witness_atomic_hit :
    lineHit (st (hitWith (.atomic 4 true 56 5 77) atomicTxn)).dev 0 3 4 { readPart .none with op := .atomic 4 true 56 5 77 } false atomicTxn ∧
    atomicTxn.left = 1 ∧ atomicTxn.kind = .atomic ∧ atomicTxn.src = .port 3 7 ∧ atomicTxn.silent = false ∧ atomicTxn.poisoned = false ∧
    (st (hitWith (.atomic 4 true 56 5 77) atomicTxn)).dev.pins.mask.getLsbD 3 = false := by decide +kernel
/-- Fifteen members of bolt 0 have granted a bolt operation; the part of tile 0 is the sixteenth. -/
def boltPart (o : LineOp) : Part := ⟨0, 0, 3, 0, o, ⟨0, 2, 5, 0⟩, stripeBolt live ⟨0, 2, 5, 0, 0⟩⟩
def gathered (zero : Bool) : BoltOp := ⟨0, stripeBolt live ⟨0, 2, 5, 0, 0⟩, zero, .none, ⟨0, 2, 5, 0, 0⟩, 3, (List.range 15).map (· + 1), []⟩
def lastOf (zero : Bool) (o : LineOp) : Dev :=
  { full (sliceIs 0 { Reset.slice with arb := [(3, [boltPart o])], decided := some (3, false) }) with
    txns := [(0, { txn .zero with left := 17 })], nextTxn := 1, panels := [(0, { Reset.panel with boltOps := [gathered zero] })] }
theorem witness_zero_last : lastMember (st (lastOf true .zeroBolt)).dev 0 3 (boltPart .zeroBolt) false (gathered true) ∧
    (gathered true).zero = true ∧ getTxn (st (lastOf true .zeroBolt)).dev 0 = some { txn .zero with left := 17 } := by decide +kernel
def boltWrite : LineOp := .writeBolt .none 7 8
theorem witness_writebolt_last : let d := (st (lastOf false boltWrite)).dev
    lastMember d 0 3 (boltPart boltWrite) false (gathered false) ∧ (gathered false).zero = false ∧ (gathered false).hint = .none ∧
    boltRoom d (gathered false).stripe = true ∧ (∀ k, k < 16 → mayCreate d (tileAt d (panelOf d 0) k) = true) ∧
    (∀ k, k < 16 → (slice d (tileAt d (panelOf d 0) k)).sets = []) := by decide +kernel
theorem witness_word_at_the_end : 60 * 8 + 32 ≤ 512 ∧ 56 * 8 + 64 ≤ 512 := by decide

/-- A resident tub: a sum of FP32 in one of its orders, its accumulators empty. -/
def inc0 : Incarnation := ⟨0, 0, 0, 0, 0, 0, false, false, 4, 1, [], []⟩
def tub0 : Tub := { Reset.tub with state := .open_, fmt := 0, expect := 4, tag := 0, gen := 8 }
def contribTxn : Txn := { txn .contrib with addr := 0, sectors := 2, beats := [(0xFFFFFFFFFFFFFFFF, 5)] }
def withTub (t : Tub) (x : Incarnation) : Dev := { live with mangle := { Reset.mangle with tubs := [(0, t)], incs := [(8, x)], gen := 9 } }
def stagedOne (drain : Bool) : Staged := ⟨0, 8, 0, 4, 1, 0, drain, [], 0, 0, 0⟩
def queued (drain : Bool) (k : Kind) : Dev :=
  { withTub tub0 inc0 with
    txns := [(0, { contribTxn with kind := k })], nextTxn := 1,
    mangle := { (withTub tub0 inc0).mangle with queue := [stagedOne drain] } }
def atInput : Dev :=
  { withTub tub0 inc0 with txns := [(0, contribTxn)], nextTxn := 1, mangle := { (withTub tub0 inc0).mangle with input := [0] } }
def otherKey : Dev := { withTub tub0 inc0 with mangle := { (withTub tub0 inc0).mangle with queue := [{ stagedOne false with key := 12 }] } }
def decided : Dev := { live with mangle := { Reset.mangle with next := some 12 } }

theorem witness_key_switch : (st otherKey).dev.mangle.next = none ∧ nextKey (st otherKey).dev = some 12 ∧
    readyKey (st otherKey).dev (st otherKey).dev.mangle.key = false := by decide +kernel
/-- Old-key work has ended; one CONTRIB of the next key waits, sent back at the decision. -/
def decidedOne : Dev := { otherKey with mangle := { otherKey.mangle with next := some 12 } }
theorem witness_batch_begin : (st decided).dev.mangle.next = some 12 := by decide
theorem witness_batch_begin_beat : (st decidedOne).dev.mangle.next = some 12 ∧
    (st decidedOne).dev.mangle.queue = [{ stagedOne false with key := 12 }] ∧ 12 ≠ (st decidedOne).dev.mangle.key ∧
    (stagedOne false).drain = false ∧ (stagedOne false).needs = [] ∧ (stagedOne false).sent = (stagedOne false).entered ∧
    (stagedOne false).entered < (stagedOne false).entries := by decide +kernel
theorem witness_drain_deliver : headAt (st (queued true .tubDrain)).dev 4 true = some (stagedOne true) ∧
    getTxn (st (queued true .tubDrain)).dev 0 = some { contribTxn with kind := .tubDrain } ∧
    getInc (st (queued true .tubDrain)).dev 8 = some inc0 ∧ inc0.failed = false ∧ contribTxn.src = .port 3 7 ∧
    contribTxn.silent = false ∧ contribTxn.poisoned = false ∧ (st (queued true .tubDrain)).dev.pins.mask.getLsbD 3 = false ∧
    ∀ f ∈ (st (queued true .tubDrain)).dev.mangle.flaws, f.gen ≠ 8 := by decide +kernel
theorem witness_contrib_staged : (st atInput).dev.mangle.input = [0] ∧ getTxn (st atInput).dev 0 = some contribTxn ∧
    contribTxn.kind = .contrib ∧ contribTxn.mark = none ∧ (getTub (st atInput).dev (tubIdOf contribTxn.addr)).state = .open_ ∧
    (getTub (st atInput).dev (tubIdOf contribTxn.addr)).tag = contribTxn.attr ∧
    rangeOk tub0 (tubSector contribTxn.addr) contribTxn.sectors = true ∧ getInc (st atInput).dev 8 = some inc0 ∧
    inc0.spill = [] ∧ stagingUsed (st atInput).dev + beatsOf contribTxn.sectors ≤ 8192 := by decide +kernel
theorem witness_contrib_reduced : headAt (st (queued false .contrib)).dev 4 false = some (stagedOne false) ∧
    getTxn (st (queued false .contrib)).dev 0 = some contribTxn ∧ getInc (st (queued false .contrib)).dev 8 = some inc0 ∧
    inc0.failed = false ∧ contribTxn.kind = .contrib ∧ contribTxn.src = .port 3 7 ∧ contribTxn.silent = false ∧
    contribTxn.poisoned = false ∧ (st (queued false .contrib)).dev.pins.mask.getLsbD 3 = false ∧
    ∀ f ∈ (st (queued false .contrib)).dev.mangle.flaws, f.gen ≠ 8 := by decide +kernel
theorem witness_exact_sum : ([.num false 3 0, .num true 1 (-2)] : List Val).Perm [.num true 1 (-2), .num false 3 0] ∧
    (([.num false 3 0, .num true 1 (-2)] : List Val).foldl (fun a v => let r := applyAcc 0 0 0 a.1 v; (r.1, a.2 ||| r.2))
      ((initAcc 0 1, 0) : Acc × NumFlags)).2 &&& fOverflow = 0 := by
  refine ⟨.swap _ _ _, by decide +kernel⟩
theorem witness_int_sum : isInt 10 = true ∧ ([-3, 5] : List Int).Perm [5, -3] := by
  refine ⟨by decide, .swap _ _ _⟩

def abortable (s : TubState) : Dev := withTub { tub0 with state := s } inc0
/-- The age of tub 0 is past its limit of one unit. -/
def agedTub : Dev := { withTub { tub0 with limit := 1 } inc0 with cycle := 0x100000000 }
theorem witness_amend : 16777215 < 2 ^ 24 := by decide
theorem witness_abort_fail : hostServed (st (abortable .spilled)).dev 0x8128 ∧ (getTub (st (abortable .spilled)).dev 0).state = .spilled := by
  decide +kernel
theorem witness_abort_no_effect : hostServed (st (abortable .failed)).dev 0x8128 ∧
    (getTub (st (abortable .failed)).dev 0).state ≠ .open_ ∧ (getTub (st (abortable .failed)).dev 0).state ≠ .spilled := by
  decide +kernel
theorem witness_straggler : (getTub (st agedTub).dev 0).state ≠ .free ∧ isAged (st agedTub).dev (getTub (st agedTub).dev 0) = true ∧
    (getTub (st agedTub).dev 0).aged = false := by decide +kernel
theorem witness_numq : hostServed (st agedTub).dev 0x8020 ∧ (getTub (st agedTub).dev 0).expect < 2 ^ 24 := by decide +kernel

/-- One tub command stands at Mangle control's input: its descriptor's two first words, and tub 0 in a state. -/
def tubAt (k : Kind) (s : TubState) (w0 w1 : Nat) : Dev :=
  { withTub { tub0 with state := s, size := 1, tag := 0 } inc0 with
    regs := [(0x6000, 2), (0x8100, 0x10000)],
    txns := [(0, { txn k with addr := 0, sectors := 1, beats := [(0xFFFFFFFFFFFFFFFF, BitVec.ofNat 4096 (2 ^ 32 * w1 + w0))] })], nextTxn := 1,
    mangle := { (withTub { tub0 with state := s, size := 1, tag := 0 } inc0).mangle with input := [0] } }
/-- No slice has a chunk free; the spill region has 512, or none. -/
def tubNoHome (spill : Nat) : Dev :=
  { tubAt .tubOpen .free 4 1 with
    regs := [(0x4014, BitVec.ofNat 32 spill), (0x6000, 2), (0x8100, 0x10000)],
    mangle := { (tubAt .tubOpen .free 4 1).mangle with taken := (List.range 256).map fun i => (i, 32) } }
theorem witness_tub_input : ∀ k ∈ [Kind.tubOpen, .tubAmend], let s := st (tubAt k .free 4 1)
    let x : Txn := { txn k with addr := 0, sectors := 1, beats := [(0xFFFFFFFFFFFFFFFF, BitVec.ofNat 4096 (2 ^ 32 + 4))] }
    s.dev.mangle.input = [0] ∧ getTxn s.dev 0 = some x ∧ x.mark = none ∧ x.src = .port 3 7 ∧ x.silent = false ∧ x.poisoned = false ∧
    s.dev.pins.mask.getLsbD 3 = false ∧ (descWord x.beats 0).toNat = 4 ∧ (descWord x.beats 1).toNat = 1 := by decide +kernel
theorem witness_tub_open : footprint 0 0 0 1 ≤ tubWays (tubAt .tubOpen .free 4 1) * 1024 ∧
    tubWays (tubAt .tubOpen .free 4 0x43) * 1024 < footprint 0 0 1 3 ∧
    (rget (tubAt .tubOpen .free 4 1) 0x8100).getLsbD 16 = true ∧ residentHome (tubAt .tubOpen .free 4 1) 0 (tubChunks 0 0 0 1) = some 0 ∧
    residentHome (tubNoHome 0) 0 (tubChunks 0 0 0 1) = none ∧ spillFree (tubNoHome 0) < tubChunks 0 0 0 1 ∧
    residentHome (tubNoHome 1) 0 (tubChunks 0 0 0 1) = none ∧ tubChunks 0 0 0 1 ≤ spillFree (tubNoHome 1) := by decide +kernel
theorem witness_tub_amend : amendExpect 4 4 = some 4 ∧ amendExpect 4 0 = none := by decide +kernel
/-- A spilled tub of one chunk, at chunk 3 of the spill region. -/
def incSpill : Incarnation := { inc0 with spill := [3] }
def wants (ls : List Lease) : Dev :=
  { live with mangle := { Reset.mangle with incs := [(8, incSpill)], gen := 9, leases := if ls = [] then [] else [(4, ls)],
                                            queue := [{ stagedOne false with needs := [0] }] } }
def lease (i : Nat) : Lease := ⟨7, i, 0, if i = 0 then 1 else 0⟩
def leases16 : List Lease := (List.range 16).map lease
def leasesFull : Dev := { wants leases16 with mangle := { (wants leases16).mangle with incs := [(7, { inc0 with spill := [2] }), (8, incSpill)] } }
def freedInc : Dev := { live with mangle := { Reset.mangle with incs := [(8, { inc0 with freed := true })], gen := 9, taken := [(4, 1)] } }
theorem witness_chunk_release : (st freedInc).dev.mangle.incs.find?
      (fun e => e.2.freed && !((st freedInc).dev.mangle.queue.any fun q => q.gen = e.1) && !m16Busy (st freedInc).dev e.1) =
      some (8, { inc0 with freed := true }) ∧ inc0.spill = [] := by decide +kernel
theorem witness_lease_read : wanted (st (wants [])).dev 4 = some (8, 0) ∧ getInc (st (wants [])).dev 8 = some incSpill ∧
    (mgetD [] (st (wants [])).dev.mangle.leases 4).length < 16 := by decide +kernel
theorem witness_lease_writeback : (wanted (st leasesFull).dev 4).isSome = true ∧
    16 ≤ (mgetD [] (st leasesFull).dev.mangle.leases 4).length ∧
    (mgetD [] (st leasesFull).dev.mangle.leases 4).filter (leaseIdle (st leasesFull).dev 4) = [lease 0] ∧
    getInc (st leasesFull).dev (lease 0).gen = some { inc0 with spill := [2] } ∧
    isSpent (st leasesFull).dev (lease 0) = false := by decide +kernel
/-- The tub of the leased chunks has failed: nothing will read them again. -/
def leasesSpent : Dev := { leasesFull with mangle := { leasesFull.mangle with incs := [(7, { inc0 with spill := [2], failed := true }), (8, incSpill)] } }
theorem witness_lease_spent : (wanted (st leasesSpent).dev 4).isSome = true ∧ 16 ≤ (mgetD [] (st leasesSpent).dev.mangle.leases 4).length ∧
    (mgetD [] (st leasesSpent).dev.mangle.leases 4).filter (leaseIdle (st leasesSpent).dev 4) = [lease 0] ∧
    isSpent (st leasesSpent).dev (lease 0) = true := by decide +kernel

/-! ## Channels -/

def fullAt (id : Nat) (urgent : Bool) : HEntry :=
  ⟨id, .full, 2, 5, id, 5, 9, ⟨77, 0⟩, false, none, false, false, false, urgent, false⟩
def readEntry : REntry := ⟨0, .fill, 2, 5, 5, [3], 5, .miss ⟨0, 2, 5, 3⟩, 1, false, 0, none⟩
/-- Channel 0 with two FULL entries, in a mode, its high mark 2 and its low mark 1. -/
def twoFull (m : Mode) (u : Bool) (high low : Nat) : Dev :=
  regIs (chanIs 0 { Reset.chan with ham := [fullAt 0 false, fullAt 1 u], nextId := 2, mode := m }) (tileOff 0 0)
    (BitVec.ofNat 32 (256 * low + high))
def drainable (m : Mode) (u : Bool) (high low : Nat) : Prop :=
  let s := st (twoFull m u high low)
  issues s.dev 0 = true ∧ (∀ e ∈ (chan s.dev 0).ham, roundable (chan s.dev 0) e = true → e.kind = .full) ∧
  roundOrder (chan s.dev 0) ≠ []

theorem witness_hwm_drain : drainable .read false 2 1 ∧ (chan (st (twoFull .read false 2 1)).dev 0).mode = .read ∧
    hwm (st (twoFull .read false 2 1)).dev 0 ≤ (chan (st (twoFull .read false 2 1)).dev 0).ham.length := by
  unfold drainable; decide +kernel
theorem witness_forced_drain : drainable .read true 3 1 ∧ (chan (st (twoFull .read true 3 1)).dev 0).mode = .read ∧
    (chan (st (twoFull .read true 3 1)).dev 0).ham.length < hwm (st (twoFull .read true 3 1)).dev 0 ∧
    (roundOrder (chan (st (twoFull .read true 3 1)).dev 0)).filter HEntry.urgent ≠ [] := by
  unfold drainable; decide +kernel
theorem witness_idle_drain : drainable .read false 3 1 ∧ (chan (st (twoFull .read false 3 1)).dev 0).mode = .read ∧
    (chan (st (twoFull .read false 3 1)).dev 0).ham.length < hwm (st (twoFull .read false 3 1)).dev 0 ∧
    hasUrgent (chan (st (twoFull .read false 3 1)).dev 0) = false ∧ readIdle (st (twoFull .read false 3 1)).dev 0 = true := by
  unfold drainable; decide +kernel
theorem witness_next_round : drainable .hwm false 2 1 ∧ (chan (st (twoFull .hwm false 2 1)).dev 0).mode = .hwm ∧
    (chan (st (twoFull .hwm false 2 1)).dev 0).round = [] ∧
    lwm (st (twoFull .hwm false 2 1)).dev 0 < (chan (st (twoFull .hwm false 2 1)).dev 0).ham.length := by
  unfold drainable; decide +kernel
theorem witness_last_round : drainable .hwm false 3 2 ∧ (chan (st (twoFull .hwm false 3 2)).dev 0).mode = .hwm ∧
    (chan (st (twoFull .hwm false 3 2)).dev 0).round = [] ∧
    (chan (st (twoFull .hwm false 3 2)).dev 0).ham.length ≤ lwm (st (twoFull .hwm false 3 2)).dev 0 := by
  unfold drainable; decide +kernel
/-- The ends of FORCED and IDLE rounds: at the high mark, with an urgent entry, and with none. -/
theorem witness_round_promoted : ∀ m ∈ [Mode.forced, .idle], (∀ u : Bool, drainable m u 2 1) ∧ drainable m true 3 1 ∧
    (chan (st (twoFull m true 3 1)).dev 0).mode = m ∧ (chan (st (twoFull m true 3 1)).dev 0).round = [] ∧
    hwm (st (twoFull m false 2 1)).dev 0 ≤ (chan (st (twoFull m false 2 1)).dev 0).ham.length ∧
    (chan (st (twoFull m true 3 1)).dev 0).ham.length < hwm (st (twoFull m true 3 1)).dev 0 ∧
    (roundOrder (chan (st (twoFull m true 3 1)).dev 0)).filter HEntry.urgent ≠ [] := by unfold drainable; decide +kernel
theorem witness_idle_goes_on : drainable .idle false 3 1 ∧ (chan (st (twoFull .idle false 3 1)).dev 0).round = [] ∧
    (chan (st (twoFull .idle false 3 1)).dev 0).ham.length < hwm (st (twoFull .idle false 3 1)).dev 0 ∧
    hasUrgent (chan (st (twoFull .idle false 3 1)).dev 0) = false ∧ readIdle (st (twoFull .idle false 3 1)).dev 0 = true := by
  unfold drainable; decide +kernel
/-- An IDLE drain whose Hamper has emptied, and one that finds a read. -/
def idleOver (reads : Bool) : Dev :=
  chanIs 0 { Reset.chan with mode := .idle, ham := if reads then [fullAt 0 false] else [], rq := if reads then [readEntry] else [], nextId := 1 }
theorem witness_drain_over : issues (st (twoFull .forced false 3 1)).dev 0 = true ∧ (chan (st (twoFull .forced false 3 1)).dev 0).mode = .forced ∧
    (chan (st (twoFull .forced false 3 1)).dev 0).ham.length < hwm (st (twoFull .forced false 3 1)).dev 0 ∧
    hasUrgent (chan (st (twoFull .forced false 3 1)).dev 0) = false ∧
    ∀ b : Bool, issues (st (idleOver b)).dev 0 = true ∧ (chan (st (idleOver b)).dev 0).mode = .idle ∧
      (chan (st (idleOver b)).dev 0).round = [] ∧ (chan (st (idleOver b)).dev 0).ham.length < hwm (st (idleOver b)).dev 0 ∧
      hasUrgent (chan (st (idleOver b)).dev 0) = false ∧ readIdle (st (idleOver b)).dev 0 = !b := by decide +kernel

def ageing : Dev := chanIs 0 { Reset.chan with ham := [fullAt 0 true, fullAt 1 false, fullAt 2 false], nextId := 3 }
def waiting : Dev :=
  chanIs 0 { Reset.chan with rq := [{ readEntry with aged := true }, { readEntry with id := 1 }], nextId := 2 }
def background : Dev := chanIs 0 { Reset.chan with bg := some { readEntry with kind := .bg } }
theorem witness_write_age : (chan (st ageing).dev 0).ham = [fullAt 0 true] ++ fullAt 1 false :: [fullAt 2 false] ∧
    (∀ e ∈ [fullAt 0 true], e.urgent = true) ∧ (fullAt 1 false).urgent = false ∧
    (([fullAt 0 true] ++ fullAt 1 false :: [fullAt 2 false]).map HEntry.id).Nodup := by decide +kernel
theorem witness_read_escalate : (chan (st waiting).dev 0).rq = [{ readEntry with aged := true }] ++ { readEntry with id := 1 } :: [] ∧
    (∀ e ∈ [{ readEntry with aged := true }], e.aged = true) ∧ readEntry.aged = false ∧
    (([{ readEntry with aged := true }] ++ { readEntry with id := 1 } :: []).map REntry.id).Nodup := by decide +kernel
theorem witness_bg_escalate : (chan (st background).dev 0).bg = some { readEntry with kind := .bg } ∧ readEntry.aged = false := by
  decide +kernel

/-- A rebuild that has begun, and so holds a slot of panel 0. -/
def slotted : Job := ⟨⟨0, 2, 5, 0, 0⟩, .rebuild 0 .nobody false .direct, 1, [], [], [(0, (⟨0, 0⟩, .good))], 0, [], 0, false⟩
/-- A FILL of tile 0 that waits in its read queue for a slot while all 32 are taken. -/
def slotless : Job := ⟨⟨0, 2, 5, 0, 0⟩, .rebuild 0 (.miss ⟨0, 2, 5, 0⟩) false .fill, 1, [1], [], [], 0, [], 4, false⟩
def allSlots : Dev :=
  { chanIs 0 { Reset.chan with rq := [{ readEntry with id := 5 }], nextId := 6 } with
    jobs := (List.range 32).map (fun i => (i, slotted)) ++ [(32, slotless)], nextJob := 33, panels := [(0, { Reset.panel with jobs := List.range 33 })] }
theorem witness_slot_escalate : (slotWaiters (st allSlots).dev 0).map (fun w => (w.job, w.born, w.prio, w.aged)) = [(32, 4, 1, false)] ∧
    getJob (st allSlots).dev 32 = some slotless ∧ (∀ e ∈ (chan (st allSlots).dev 0).rq, e.aged = true ∨ 4 ≤ e.id) ∧
    readIdle (st allSlots).dev 0 = false := by decide +kernel
/-- Row 5 of bank 2 is open, and a read of column 3 of it waits. -/
def rowOpen : SMap Bank := [(2, { Reset.bank with openRow := some 5, actAt := some 0 })]
def readable : Dev := chanIs 0 { Reset.chan with rq := [readEntry], nextId := 1, banks := rowOpen }
def writable : Dev :=
  chanIs 0 { Reset.chan with ham := [fullAt 0 false], nextId := 1, banks := rowOpen, mode := .hwm, round := [0] }
theorem witness_read_column : (chan (st readable).dev 0).mode = .read ∧ (chan (st readable).dev 0).tasks = [] ∧
    (rankedReads (st readable).dev 0).find? (fun e => colOk (st readable).dev 0 e.bank (nextRow (chan (st readable).dev 0) e) false 1000) = some readEntry ∧
    nextCol (chan (st readable).dev 0) readEntry = some 3 ∧ readEntry.kind ≠ .bg := by decide +kernel
/-- The BG entry of a Rinse job has one of its columns left, or two. -/
def bgEntry (cols : List Nat) : REntry := { readEntry with kind := .bg, cols := cols, owner := .job 3 0, oddRow := 5 }
def bgReadable (cols : List Nat) : Dev := chanIs 0 { Reset.chan with bg := some (bgEntry cols), nextId := 1, banks := rowOpen }
theorem witness_bg_column : ∀ cols ∈ [[2, 3], [3]], (chan (st (bgReadable cols)).dev 0).mode = .read ∧
    (chan (st (bgReadable cols)).dev 0).tasks = [] ∧
    (rankedReads (st (bgReadable cols)).dev 0).find? (fun e => colOk (st (bgReadable cols)).dev 0 e.bank (nextRow (chan (st (bgReadable cols)).dev 0) e) false 1000) = some (bgEntry cols) ∧
    nextCol (chan (st (bgReadable cols)).dev 0) (bgEntry cols) = cols.head? ∧
    (chan (st (bgReadable cols)).dev 0).bg = some (bgEntry cols) := by decide +kernel
/-- A round of one DATA or DELTA entry, whose old line is not read yet. -/
def drainable1 (k : EKind) : Dev :=
  chanIs 0 { Reset.chan with ham := [{ fullAt 0 false with kind := k }], nextId := 1, banks := rowOpen, mode := .idle, round := [0] }
theorem witness_drain_column : ∀ k ∈ [EKind.data, .delta], (chan (st (drainable1 k)).dev 0).mode ≠ .read ∧
    (chan (st (drainable1 k)).dev 0).tasks = [] ∧ roundReads (chan (st (drainable1 k)).dev 0) = [{ fullAt 0 false with kind := k }] ∧
    colOk (st (drainable1 k)).dev 0 2 5 false 1000 = true := by decide +kernel
theorem witness_write_column : (chan (st writable).dev 0).mode ≠ .read ∧ (chan (st writable).dev 0).tasks = [] ∧ roundReads (chan (st writable).dev 0) = [] ∧
    roundAll (chan (st writable).dev 0) = fullAt 0 false :: [] ∧ colOk (st writable).dev 0 2 5 true 1000 = true ∧
    writtenLine (fullAt 0 false) = some ⟨77, 0⟩ ∧ (fullAt 0 false).verify = false ∧
    idlePanel (st writable).dev (panelOf (st writable).dev 0) := by decide +kernel

def rowClosed : Dev := chanIs 0 { Reset.chan with rq := [readEntry], nextId := 1 }
def rowUnwanted : Dev := regIs (chanIs 0 { Reset.chan with banks := rowOpen }) (tileOff 0 8) 0x00001000
def rankIdle (off : Nat) (down wanted : Bool) : Dev :=
  let ranks := if down then [(0, { Reset.rank with down := true })] else []
  let rq := if wanted then [readEntry] else []
  regIs (chanIs 0 { Reset.chan with rq := rq, nextId := 1, ranks := ranks }) (tileOff 0 off) 0x00000010
theorem witness_activate : refreshStep (st rowClosed).dev 0 1000 = none ∧ (chan (st rowClosed).dev 0).mode = .read ∧
    rankedReads (st rowClosed).dev 0 = [readEntry] ∧ (getBank (chan (st rowClosed).dev 0) 2).openRow = none ∧
    actOk (st rowClosed).dev 0 2 1000 = true := by decide +kernel
theorem witness_idle_close : (getBank (chan (st rowUnwanted).dev 0) 2).openRow = some 5 ∧
    rbits (st rowUnwanted).dev (tileOff 0 0x008) 15 8 ≠ 0 ∧ rowWanted (chan (st rowUnwanted).dev 0) 2 5 = false ∧
    issues (st rowUnwanted).dev 0 = true ∧ openTo (st rowUnwanted).dev 0 1000 = true ∧ preOk (st rowUnwanted).dev 0 2 1000 = true := by decide +kernel
/-- A trained instance whose clock runs, and whose tile 0 has nothing to do. -/
def quietRank : Dev := bootIs (rankIdle 12 false false) fun b => { b with trainDone := true }
theorem witness_power_down : (ranksOf 0).contains 0 = true ∧ rbits (st quietRank).dev (tileOff 0 0x00C) 15 0 ≠ 0 ∧
    rankWanted (st quietRank).dev 0 0 = false ∧
    refreshPending (chan (st quietRank).dev 0) 0 0 = false ∧ issues (st quietRank).dev 0 = true ∧
    openTo (st quietRank).dev 0 1000 = true ∧ isFrozen (st quietRank).dev 0 = false ∧
    scheduleRuns (st quietRank).dev 0 0 = true ∧ (st quietRank).dev.pins.ck = true ∧ owed (chan (st quietRank).dev 0) 0 = 0 ∧
    (∀ b ∈ banksOf 0 0, (getBank (chan (st quietRank).dev 0) b).openRow = none ∧
      (getBank (chan (st quietRank).dev 0) b).busyTo ≤ 1000) ∧
    rankUp (getRank (chan (st quietRank).dev 0) 0) (timing (st quietRank).dev 0) 1000 = true ∧
    slotFree (chan (st quietRank).dev 0) true (safeRank (st quietRank).dev 0 0) 1000 = true := by decide +kernel
theorem witness_power_up : (getRank (chan (st (rankIdle 12 true true)).dev 0) 0).down = true ∧
    rankWanted (st (rankIdle 12 true true)).dev 0 0 = true ∧ issues (st (rankIdle 12 true true)).dev 0 = true ∧
    (getRank (chan (st (rankIdle 12 true true)).dev 0) 0).downAt + (timing (st (rankIdle 12 true true)).dev 0).pd ≤ 1000 ∧
    slotFree (chan (st (rankIdle 12 true true)).dev 0) true (safeRank (st (rankIdle 12 true true)).dev 0 0) 1000 = true := by decide +kernel

/-- Rank 0 of tile 0 is in power-down, and a refresh of it is owed that nothing keeps back. -/
def owingRank : Dev := chanIs 0 { Reset.chan with ranks := [(0, { Reset.rank with down := true })], owed := [(0, 1)] }
theorem witness_power_up_owed : (getRank (chan (st owingRank).dev 0) 0).down = true ∧ repays (st owingRank).dev 0 0 = true ∧
    refreshPending (chan (st owingRank).dev 0) 0 0 = false ∧ rankWanted (st owingRank).dev 0 0 = false ∧
    (getRank (chan (st owingRank).dev 0) 0).downAt + (timing (st owingRank).dev 0).pd ≤ 1000 ∧
    slotFree (chan (st owingRank).dev 0) true (safeRank (st owingRank).dev 0 0) 1000 = true := by decide +kernel
def fly0 (x : DLine) : Fly := ⟨.fill, .miss l0, 2, 5, 5, 0, 10, some x, 1, 0, none, true, 0⟩
def coming (x : DLine) : Dev :=
  full (tileIs 0 { Reset.tile with chan := { Reset.chan with fly := [fly0 x] },
                                   slice := { Reset.slice with miss := [⟨l0, 9, .waiting, 1, [readPart .none]⟩] } })
def st0 : Stripe := ⟨0, 2, 5, 0, 0⟩
theorem witness_line_return : (∀ x ∈ [coded l0 77, stainAt l0], (chan (st (coming x)).dev 0).fly = [fly0 x] ∧
      (chan (st (coming x)).dev 0).alert = none ∧ (fly0 x).owner = .miss l0 ∧ (fly0 x).master = none ∧ (fly0 x).content = some x ∧
      roleOf (st (coming x)).dev l0 = .data st0 ∧ isValid (st (coming x)).dev (stripeBolt (st (coming x)).dev st0) = true ∧
      mget (st (coming x)).dev.lastUse (lineKey 0 2 5 0) = none ∧ idlePanel (st (coming x)).dev (panelOf (st (coming x)).dev 0) ∧
      (svc (st (coming x)).dev 0).state ≠ .lifting) ∧
    checkLine l0 (coded l0 77) false = .good ∧ checkLine l0 (stainAt l0) false = .stain := by decide +kernel
theorem witness_parity_order : ([⟨1, 1⟩, ⟨3, 3⟩] : List DLine).Perm ([] ++ [⟨1, 1⟩] ++ [xorLines ([] ++ ⟨2, 2⟩ :: [⟨1, 1⟩])]) := by
  have h : ([⟨1, 1⟩, ⟨3, 3⟩] : List DLine) = [] ++ [⟨1, 1⟩] ++ [xorLines ([] ++ ⟨2, 2⟩ :: [⟨1, 1⟩])] := by decide +kernel
  rw [h]

/-! ## Jobs -/

/-- Panel 0 runs job 3. -/
def runs (k : JobKind) (got : SMap (DLine × Check)) : Dev :=
  { full live with jobs := [(3, ⟨st0, k, 1, [], [], got, 0, [], 0, false⟩)], nextJob := 4, panels := [(0, { Reset.panel with jobs := [3] })] }
def lines15 (m : Nat) : SMap (DLine × Check) :=
  (List.range 16).filterMap fun i => if i = m then none else some (i, (⟨BitVec.ofNat 512 i, 0⟩, .good))
/-- The lines that leave 77 as the missing one. -/
def gotAll : SMap (DLine × Check) := [(0, (coded l0 77, .good))]
def rebuilds : Dev := runs (.rebuild 0 (.miss l0) false .fill) gotAll
def converts : Dev := runs (.convert 2 .nobody none) (lines15 2)
def reconstructs : Dev := runs (.reconstruct 1 ⟨5, 6⟩) (lines15 1)
theorem witness_rebuild : oneJob (st rebuilds).dev 0 3 ∧ st0.panel = 0 ∧
    getJob (st rebuilds).dev 3 = some ⟨st0, .rebuild 0 (.miss l0) false .fill, 1, [], [], gotAll, 0, [], 0, false⟩ ∧ gotAll ≠ [] ∧
    (∀ e ∈ gotAll, e.2.2 ≠ .fail) ∧ isValid (st rebuilds).dev (stripeBolt (st rebuilds).dev st0) = true ∧
    checkLine (stripeDataLoc (st rebuilds).dev st0 0) (xorLines (gotAll.map fun e => e.2.1)) false = .good ∧
    mget (st rebuilds).dev.lastUse (lineKey 0 2 5 0) = none := by decide +kernel
theorem witness_convert : oneJob (st converts).dev 0 3 ∧
    getJob (st converts).dev 3 = some ⟨st0, .convert 2 .nobody none, 1, [], [], lines15 2, 0, [], 0, false⟩ ∧ 2 < 16 ∧
    (∀ i, i < 16 → i ≠ 2 → (mgetD ((⟨0, 0⟩, .fail) : DLine × Check) (lines15 2) i).2 ≠ .fail) ∧ mget (lines15 2) 2 = none ∧
    isValid (st converts).dev (stripeBolt (st converts).dev st0) = true ∧ outMembers (st converts).dev st0 = [] ∧
    deltasPending (st converts).dev st0 none = false := by decide +kernel
theorem witness_reconstruct : oneJob (st reconstructs).dev 0 3 ∧
    getJob (st reconstructs).dev 3 = some ⟨st0, .reconstruct 1 ⟨5, 6⟩, 1, [], [], lines15 1, 0, [], 0, false⟩ ∧ lines15 1 ≠ [] ∧
    (∀ e ∈ lines15 1, e.2.2 ≠ .fail) ∧ isValid (st reconstructs).dev (stripeBolt (st reconstructs).dev st0) = true := by decide +kernel
/-- The parity write of a reconstruction stands at the head of M17's input of its tile. -/
def parLoc : Loc := stripeParityLoc live st0
def putPart : Part := ⟨0, 0, 17, 7, .unit (.put .full ⟨9, 9⟩ false (some 3)), parLoc, 0⟩
def unitTxn : Txn := { txn .write with src := .unit, master := 17, addr := 0, beats := [], left := 1, at_ := 5 }
def putting : Dev :=
  { reconstructs with
    jobs := [(3, ⟨st0, .reconstruct 1 ⟨5, 6⟩, 1, [], [], lines15 1, 1, [], 0, false⟩)], txns := [(0, unitTxn)], nextTxn := 1,
    tiles := [(parLoc.tile, { Reset.tile with slice := { Reset.slice with arb := [(17, [putPart])], decided := some (17, true) } })] }
theorem witness_put_granted : let s := st putting
    oneJob s.dev (panelOf s.dev parLoc.tile) 3 ∧ idleSlice (slice s.dev parLoc.tile) ∧
    getJob s.dev 3 = some ⟨st0, .reconstruct 1 ⟨5, 6⟩, 1, [], [], lines15 1, 1, [], 0, false⟩ ∧ st0.panel = panelOf s.dev parLoc.tile ∧
    accepts s.dev parLoc.tile = true ∧ allSent s.dev ∧ isGranted s.dev parLoc.tile 17 putPart true ∧
    getTxn s.dev 0 = some unitTxn ∧ roleOf s.dev parLoc = .parity st0 ∧
    countsOut s.dev parLoc.tile (stripeBolt s.dev st0) = false ∧ unitMay s.dev parLoc.tile = true ∧
    hamRoom (chan s.dev parLoc.tile) 1 = true := by decide +kernel

/-! ## Refresh -/

def trained (d : Dev) : Dev := bootIs d fun b => { b with trainDone := true }
def postponing (n : Nat) : Dev :=
  trained (regIs (chanIs 0 { Reset.chan with rq := [readEntry], nextId := 1, owed := if n = 0 then [] else [(0, n)] }) 0x4000 4)
def atOnce : Dev := trained (regIs live 0x4000 0)
def farTurn : Dev := trained (chanIs 300 { Reset.chan with rotor := 47 })
def repays (near : Bool) : Dev :=
  chanIs 0 { Reset.chan with owed := [(0, 3)], banks := if near then [] else [(0, { Reset.bank with openRow := some 1 })] }
/-- Nothing reads, and the tile is in service or out. -/
def idleRank (v : Svc) : Dev := trained (regIs (svcIs 0 v) 0x4000 4)
theorem witness_refresh_postponed : (0 : Nat) < 256 ∧ (0 : BitVec 6).toNat < 2 ∧ scheduleRuns (st (postponing 0)).dev 0 0 = true ∧
    patternRuns (st (postponing 0)).dev 0 = false ∧
    rbits (st (postponing 0)).dev 0x4000 3 2 = 1 ∧ inService (st (postponing 0)).dev 0 = true ∧
    owed (chan (st (postponing 0)).dev 0) 0 < owedLimit (st (postponing 0)).dev ∧ readWaits (st (postponing 0)).dev 0 0 = true := by
  decide +kernel
theorem witness_refresh_forced : scheduleRuns (st (postponing 8)).dev 0 0 = true ∧ patternRuns (st (postponing 8)).dev 0 = false ∧
    rbits (st (postponing 8)).dev 0x4000 3 2 = 1 ∧ inService (st (postponing 8)).dev 0 = true ∧
    owedLimit (st (postponing 8)).dev ≤ owed (chan (st (postponing 8)).dev 0) 0 := by decide +kernel
theorem witness_refresh_at_once : scheduleRuns (st atOnce).dev 0 1 = true ∧ patternRuns (st atOnce).dev 0 = false ∧ rbits (st atOnce).dev 0x4000 3 2 ≠ 1 ∧
    (chan (st atOnce).dev 0).dueRef = [] ∧ refreshReady (st atOnce).dev 0 1 (nextDue (st atOnce).dev 0 1) = true := by decide +kernel
theorem witness_refresh_no_read : let d := (st (idleRank Reset.svc)).dev
    scheduleRuns d 0 0 = true ∧ patternRuns d 0 = false ∧ rbits d 0x4000 3 2 = 1 ∧ inService d 0 = true ∧
    owed (chan d 0) 0 < owedLimit d ∧ readWaits d 0 0 = false ∧ refreshReady d 0 0 (nextDue d 0 0) = true := by decide +kernel
theorem witness_refresh_out : let d := (st (idleRank { Reset.svc with state := .out, reason := .held })).dev
    scheduleRuns d 0 0 = true ∧ patternRuns d 0 = false ∧ inService d 0 = false := by decide +kernel
theorem witness_refresh_far : 256 ≤ 300 ∧ (47 : BitVec 6).toNat = (chan (st farTurn).dev 300).rotor ∧ (47 : BitVec 6).toNat < 48 ∧
    scheduleRuns (st farTurn).dev 300 0 = true ∧ patternRuns (st farTurn).dev 300 = false ∧ (chan (st farTurn).dev 300).dueRef = [] ∧
    refreshReady (st farTurn).dev 300 47 (nextDue (st farTurn).dev 300 0) = true := by decide +kernel
theorem witness_repay : ∀ b : Bool, owed (chan (st (repays b)).dev 0) 0 = 2 + 1 ∧ readWaits (st (repays b)).dev 0 0 = false ∧
    (chan (st (repays b)).dev 0).dueRef.contains 0 = false ∧ inBurst (st (repays b)).dev 0 = false := by decide +kernel
def clocked : Dev := trained live
theorem witness_rfm : 256 ≤ 300 ∧ (3 : BitVec 6).toNat < 48 ∧ (chan (st live).dev 300).rfm = [] ∧ scheduleRuns (st live).dev 300 0 = false ∧
    (chan (st clocked).dev 300).rfm = [] ∧ scheduleRuns (st clocked).dev 300 0 = true ∧ (st clocked).dev.pins.ck = true ∧
    patternRuns (st clocked).dev 300 = false := by decide +kernel
theorem witness_interval : 256 ≤ 319 ∧ 255 < 256 ∧ let d := { live with layer := { Reset.layer with mr6 := 0 } }
    safeRank d 255 0 = false ∧ safeRank d 255 1 = false := by decide +kernel
/-- Every tile of region 2 is out of service. -/
def region2Out : Dev := { trained live with tiles := (regionTiles 2).map fun t => (t, { Reset.tile with svc := { Reset.svc with state := .out } }) }
theorem witness_temp_poll : (st (trained live)).dev.boot.trainDone = true ∧ pollDue (st (trained live)).dev = true ∧ allIdle (st (trained live)).dev ∧
    (∀ g : Fin 3, (regionTiles g.val).any (inService (st (trained live)).dev) = true) := by decide +kernel
theorem witness_temp_poll_out : (st region2Out).dev.boot.trainDone = true ∧ pollDue (st region2Out).dev = true ∧ allIdle (st region2Out).dev ∧
    (regionTiles 2).any (inService (st region2Out).dev) = false := by decide +kernel

/-! ## Service -/

def outAs (r : Reason) : Svc := { Reset.svc with state := .out, reason := r }
def alerted : Dev := chanIs 0 { Reset.chan with alert := some ⟨1, 10, []⟩ }
def frozenTile : Dev := svcIs 0 { outAs .frozen with snap := some ⟨1, 0, 0, [], []⟩ }
/-- One bit of the row bus is sampled wrong on edge 0. -/
def oneFlip : BusFlips := ⟨1, 0, 0, 0⟩
/-- One bit of the column bus. -/
def colFlip : BusFlips := ⟨0, 0, 0, 1⟩
def unclocked (d : Dev) : Dev := { d with pins := { d.pins with ck := false } }
/-- The layers are out of SAFE mode, and tile 0 has a report that has not been acted on. -/
def reporting : Dev := { alerted with layer := { Reset.layer with mr6 := 0 } }
theorem witness_parity_report : (1 : BitVec 2) ≠ 0 ∧ (st reporting).dev.pins.ck = true ∧ 256 ≤ 300 ∧
    (svc (st reporting).dev 0).state ≠ .out ∧ (svc (st reporting).dev 300).state ≠ .out ∧
    failingCycle (st reporting).dev 0 1 oneFlip 12 = some (8, true, false) ∧ failingCycle (st reporting).dev 1 1 colFlip 12 = some (8, false, true) ∧
    isSafe (layerOf (st reporting).dev 0 0) = false ∧ isSafe (layerOf (st reporting).dev 0 1) = false ∧
    (st (unclocked alerted)).dev.pins.ck = false := by decide +kernel
/-- An MRW of MR2 went in the cycle whose column bus failed. -/
def modeLost : Dev :=
  { chanIs 0 { Reset.chan with mrws := [⟨8, 0, .mr 2 3⟩] } with layer := { Reset.layer with mr6 := 0 } }
theorem witness_mode_lost : failingCycle (st modeLost).dev 0 1 colFlip 12 = some (8, false, true) ∧ (st modeLost).dev.pins.ck = true ∧
    (chan (st modeLost).dev 0).mrws = [⟨8, 0, .mr 2 3⟩] ∧ (1 : BitVec 2).getLsbD 0 = true := by decide +kernel
theorem witness_parity_even : isOdd (3 : BitVec 11) = false ∧ isOdd (0 : BitVec 11) = false ∧ isOdd (0 : BitVec 9) = false := by
  decide +kernel
theorem witness_freeze : (chan (st alerted).dev 0).alert = some ⟨1, 10, []⟩ ∧ bareChan (chan (st alerted).dev 0) ∧
    (svc (st alerted).dev 0).state = .in_ ∧ (svc (st alerted).dev 0).move = none ∧ (svc (st alerted).dev 0).slot = none ∧
    idlePanel (st alerted).dev (panelOf (st alerted).dev 0) := by decide +kernel
theorem witness_frz_release : hostServed (st frozenTile).dev (tileOff 0 0x04C) ∧ (svc (st frozenTile).dev 0).state = .out ∧
    (svc (st frozenTile).dev 0).reason = .frozen := by decide +kernel
/-- The tile was retrained while it was frozen, and its TRAIN section waits. -/
def frozenTrained : Dev := svcIs 0 { outAs .frozen with snap := some ⟨1, 0, 0, [], []⟩, led := [⟨0x40, 63, 126⟩] }
theorem witness_frz_train_waits : hostServed (st frozenTrained).dev (tileOff 0 0x04C) ∧ (svc (st frozenTrained).dev 0).state = .out ∧
    (svc (st frozenTrained).dev 0).reason = .frozen ∧ trainWaits (st frozenTrained).dev 0 = true ∧
    trainWaits (st frozenTile).dev 0 = false := by decide +kernel
theorem witness_frz_ignored : hostServed (st live).dev (tileOff 319 0x04C) ∧
    ¬((svc (st live).dev 319).state = .out ∧ (svc (st live).dev 319).reason = .frozen) := by decide +kernel

def liftable : Dev := regIs live 0x4020 0x80000000
def draining : Dev := svcIs 0 { Reset.svc with draining := true }
def lifting : Dev := { svcIs 0 { Reset.svc with state := .lifting, slot := some 1 } with lifts := [(1, ⟨1, 0, liftBolts 0, []⟩)] }
theorem witness_take_out : hostServed (st live).dev 0xB000 ∧ svcErr (st live).dev 1 319 0 = 0 := by decide +kernel
theorem witness_take_out_lift : hostServed (st liftable).dev 0xB000 ∧ svcErr (st liftable).dev 2 0 0 = 0 ∧
    findLift (st liftable).dev 0 = none := by decide +kernel
theorem witness_svc_return : hostServed (st (svcIs 0 (outAs .held))).dev 0xB000 ∧
    svcErr (st (svcIs 0 (outAs .held))).dev 3 0 0 = 0 ∧ svcErr (st (svcIs 0 (outAs .held))).dev 4 0 0 = 0 := by decide +kernel
theorem witness_svc_refused : hostServed (st live).dev 0xB000 ∧ svcErr (st live).dev 1 511 0 ≠ 0 ∧ svcErr (st live).dev 2 0 0 ≠ 0 ∧
    svcErr (st live).dev 3 0 0 ≠ 0 ∧ svcErr (st live).dev 4 0 0 ≠ 0 := by decide +kernel
theorem witness_drained : (svc (st draining).dev 0).draining = true ∧ channelEmpty (st draining).dev 0 = true ∧
    (chan (st draining).dev 0).alert = none ∧ (svc (st draining).dev 0).slot = none ∧
    idlePanel (st draining).dev (panelOf (st draining).dev 0) := by decide +kernel
theorem witness_marked : (svc (st (svcIs 0 (outAs .marking))).dev 0).state = .out ∧
    (svc (st (svcIs 0 (outAs .marking))).dev 0).reason = .marking := by decide +kernel
theorem witness_lift_ready : (svc (st lifting).dev 0).state = .lifting ∧ (svc (st lifting).dev 0).draining = false ∧
    (svc (st lifting).dev 0).slot = some 1 ∧ findLift (st lifting).dev 0 = none ∧
    liftBolts 0 ≤ (getLift (st lifting).dev 1).copied ∧ (chan (st lifting).dev 0).alert = none := by
  decide +kernel

def stW : Stripe := walkStripe 0 3
/-- Tile 0 is RETURNING and its panel walks; the bolts in `diff` are marked. -/
def walking (diff : List Nat) : Dev :=
  { svcIs 0 { Reset.svc with state := .returning } with
    layer := { Reset.layer with mr6 := 0 }, panels := [(0, { Reset.panel with walkTile := some 0 })], mend := ⟨[], diff, []⟩ }
def rinsing (open_ : Bool) : Dev :=
  let j : Job := ⟨st0, .rinse, 0, if open_ then [0, 32] else [], [], [], 0, [], 0, false⟩
  full { bootIs (regIs live 0xB010 0x80000000) (fun b => { b with step := 9, done := true }) with
    jobs := [(3, j)], nextJob := 4, panels := [(0, { Reset.panel with jobs := [3], rinsePos := panelBolts 0 - 1 })] }
def rinseJob (open_ : Bool) : Job := ⟨st0, .rinse, 0, if open_ then [0, 32] else [], [], [], 0, [], 0, false⟩
theorem witness_walk_bolt : let s := st (walking [stripeBolt live stW])
    (getPanel s.dev 0).walkTile = some 0 ∧ (getPanel s.dev 0).jobs = [] ∧ s.dev.pins.ck = true ∧ (svc s.dev 0).hem.use = .idle ∧ inNormal s.dev 0 = true ∧
    nextMarked s.dev 0 (getPanel s.dev 0).walkPos = some 3 ∧ isValid s.dev (stripeBolt s.dev stW) = false ∧
    otherOut s.dev stW (memberOf s.dev 0) = [] ∧ s.dev.mend.diff.Nodup ∧ s.dev.mend.errs = [] := by decide +kernel
/-- Every bolt is valid, and the walk of panel 0 meets the marked one at position n: with tile 1 out too where `two` holds. -/
def walkingFull (n : Nat) (two : Bool) : Dev :=
  let d := full (walking [stripeBolt live (walkStripe 0 n)])
  if two then { d with tiles := d.tiles ++ [(1, { Reset.tile with svc := outAs .held })] } else d
theorem witness_walk_reads : ∀ n ∈ [0, 3], ∀ b : Bool, let s := st (walkingFull n b)
    (getPanel s.dev 0).walkTile = some 0 ∧ (getPanel s.dev 0).jobs = [] ∧ s.dev.pins.ck = true ∧ (svc s.dev 0).hem.use = .idle ∧
    inNormal s.dev 0 = true ∧ nextMarked s.dev 0 (getPanel s.dev 0).walkPos = some n ∧
    isValid s.dev (stripeBolt s.dev (walkStripe 0 n)) = true ∧ liftWriting s.dev (stripeBolt s.dev (walkStripe 0 n)) = false ∧
    boltSettled s.dev (walkStripe 0 n) = true ∧ (svc s.dev 0).hasCopy = false ∧ s.dev.mend.errs = [] ∧
    (otherOut s.dev (walkStripe 0 n) (memberOf s.dev 0) = [] ↔ b = false) := by decide +kernel
/-- The walk's reads have returned: those of line 0 of member k with a FAIL, if it is below 17. -/
def walkJob (n k : Nat) : Job :=
  let slots := (List.range 17).flatMap fun m => [m, m + 32]
  ⟨walkStripe 0 n, .walk 0, 0, [], [], (slots.filter fun x => x % 32 ≠ 0).map fun x => (x, (⟨x, x⟩, if x = k then .fail else .good)), 0, [], 0, false⟩
def walkRead (n k : Nat) (two : Bool) : Dev :=
  { walkingFull n two with jobs := [(3, walkJob n k)], nextJob := 4, panels := [(0, { Reset.panel with walkTile := some 0, walkPos := n, jobs := [3] })] }
theorem witness_walk_writes : ∀ n ∈ [0, 3], ∀ k ∈ [5, 16, 17], ∀ b : Bool, let s := st (walkRead n k b)
    (getPanel s.dev 0).walkTile = some 0 ∧ oneJob s.dev 0 3 ∧ getJob s.dev 3 = some (walkJob n k) ∧ (walkJob n k).stripe.panel = 0 ∧
    s.dev.pins.ck = true ∧ (svc s.dev 0).hem.use = .idle ∧ inNormal s.dev 0 = true ∧ memberOf s.dev 0 < 16 ∧
    isValid s.dev (stripeBolt s.dev (walkStripe 0 n)) = true ∧ jobReady (walkJob n k) = true ∧ walkSettled s.dev (walkJob n k) = true := by
  decide +kernel
/-- The last of its writes stands at the head of M17's input of the returning tile. -/
def walkLoc : Loc := stripeDataLoc live (walkStripe 0 3) 0
def walkPart : Part := ⟨0, 0, 17, 7, .unit (.put .full ⟨9, 9⟩ false (some 3)), walkLoc, 0⟩
def walkLast (two : Bool) : Dev :=
  let d := walkRead 3 17 two
  { d with jobs := [(3, { walkJob 3 17 with puts := 1 })], txns := [(0, { txn .write with src := .unit, master := 17, beats := [], left := 1 })],
           nextTxn := 1, tiles := d.tiles.map fun e => if e.1 = 0 then
             (0, { e.2 with slice := { Reset.slice with arb := [(17, [walkPart])], decided := some (17, true) } }) else e }
theorem witness_walk_put : ∀ b : Bool, let s := st (walkLast b)
    oneJob s.dev (panelOf s.dev 0) 3 ∧ idleSlice (slice s.dev 0) ∧ getJob s.dev 3 = some { walkJob 3 17 with puts := 1 } ∧
    (walkJob 3 17).stripe.panel = panelOf s.dev 0 ∧ accepts s.dev 0 = true ∧ allSent s.dev ∧ isGranted s.dev 0 17 walkPart true ∧
    (getTxn s.dev 0).isSome = true ∧ walkLoc.tile = 0 ∧ (svc s.dev 0).state ≠ .out ∧ unitMay s.dev 0 = true ∧
    hamRoom (chan s.dev 0) 1 = true ∧ walkFits s.dev 0 3 = true ∧ s.dev.mend.errs = [] ∧ s.dev.mend.diff.Nodup := by decide +kernel
theorem witness_returned : let s := st (walking [])
    (getPanel s.dev 0).walkTile = some 0 ∧ (getPanel s.dev 0).walkQueue = [] ∧ panelOf s.dev 0 = 0 ∧
    nextMarked s.dev 0 (getPanel s.dev 0).walkPos = none ∧ (svc s.dev 0).slot = none ∧ hemQuiet s.dev 0 = true ∧ inNormal s.dev 0 = true ∧
    idlePanel s.dev 0 := by decide +kernel
def walkingBusy : Dev := { walking [] with tiles := [(0, { Reset.tile with svc := { Reset.svc with state := .returning, hem := { Reset.hem with use := .training } } })] }
theorem witness_not_returned : (getPanel (st walkingBusy).dev 0).walkTile = some 0 ∧ hemQuiet (st walkingBusy).dev 0 = false := by decide +kernel
theorem witness_rinse_entry : let s := st (rinsing true)
    rinseRuns s.dev (panelOf s.dev 0) = true ∧ (chan s.dev 0).bg = none ∧ rateChanging s.dev 0 = false ∧
    s.dev.pins.mask.getLsbD 18 = false ∧ findJob s.dev (panelOf s.dev 0) isRinse = some (3, rinseJob true) ∧
    boltSettled s.dev st0 = true ∧
    (rinseJob true).toRead.find? (fun x => x < 32 && (rinseJob true).toRead.contains (x + 32) && (slotLoc s.dev st0 x).tile = 0) = some 0 ∧
    countsOut s.dev 0 (stripeBolt s.dev st0) = false ∧ (getPanel s.dev (panelOf s.dev 0)).boltOps = [] ∧
    (∀ m, m < 16 → idleSlice (slice s.dev (tileAt s.dev (panelOf s.dev 0) m))) ∧ idleSlice (slice s.dev 0) ∧
    (∀ k, k < 320 → (slice s.dev k).arb = []) ∧ (slice s.dev 0).decided = none ∧ accepts s.dev 0 = true ∧ allSent s.dev ∧
    quotaSpent s.dev 0 = false ∧ (getMaster s.dev 18).queue = [] ∧ creditOk s.dev 18 = true := by decide +kernel
theorem witness_rinse_done : let s := st (rinsing false)
    oneJob s.dev 0 3 ∧ getJob s.dev 3 = some (rinseJob false) ∧ jobReady (rinseJob false) = true ∧
    isValid s.dev (stripeBolt s.dev st0) = true ∧ rinseFix s.dev (rinseJob false) 0 = none ∧
    rinseFix s.dev (rinseJob false) 1 = none ∧ rinseFails s.dev (rinseJob false) 0 = [] ∧
    rinseFails s.dev (rinseJob false) 1 = [] := by decide +kernel

def bad : Track := ⟨2, 5, 3, 0, true, false⟩
def moveOf (ptr : Nat) (job : Option Nat) : Move := ⟨0, 2, 5, 0, none, ptr, job, false⟩
def patching (v : Svc) (l : Loc) : Dev :=
  { full (svcIs 0 v) with jobs := [(3, patchJob l)], nextJob := 4, panels := [(0, { Reset.panel with jobs := [3] })] }
where patchJob (l : Loc) : Job := ⟨st0, .patch 0 false l, 0, [], [], [], 0, [], 0, false⟩
theorem witness_patch_start : let s := st (svcIs 0 { Reset.svc with tracker := [bad] })
    isIn s.dev 0 = true ∧ (svc s.dev 0).move = none ∧
    (svc s.dev 0).tracker.find? (fun x => rowDue s.dev x && !x.told && !isLedgerRow (isFar 0) x.row) = some bad ∧ entryOf (svc s.dev 0) bad.bank bad.row = none ∧
    (List.range 16).find? (fun e => (patchOf (svc s.dev 0) e).state = .free) = some 0 ∧
    freeSpare (svc s.dev 0) (isFar 0) bad.bank = some 0 := by decide +kernel
theorem witness_patch_column : let s := st (patching { Reset.svc with move := some (moveOf 31 (some 3)) } ⟨0, 2, 5, 31⟩)
    isIn s.dev 0 = true ∧ (svc s.dev 0).move = some (moveOf 31 (some 3)) ∧ (moveOf 31 (some 3)).ptr < 32 ∧
    getJob s.dev 3 = some (patching.patchJob ⟨0, 2, 5, 31⟩) ∧
    isValid s.dev (stripeBolt s.dev st0) = true ∧ jobReady (patching.patchJob ⟨0, 2, 5, 31⟩) = true := by decide +kernel
theorem witness_row_patched : let s := st (svcIs 0 { Reset.svc with move := some (moveOf 32 none) })
    (svc s.dev 0).move = some (moveOf 32 none) ∧ 32 ≤ (moveOf 32 none).ptr ∧ isIn s.dev 0 = true ∧
    (moveOf 32 none).saved = false := by decide +kernel
def moveSaved : Dev := svcIs 0 { Reset.svc with move := some { moveOf 32 none with saved := true } }
theorem witness_row_saved : (svc (st moveSaved).dev 0).move = some { moveOf 32 none with saved := true } ∧
    isIn (st moveSaved).dev 0 = true ∧ ∀ j ∈ (svc (st moveSaved).dev 0).led, j.off ≠ 0x1000 := by decide +kernel
theorem witness_retire : hostServed (st { live with retire := [5] }).dev 0xB030 ∧ (st { live with retire := [5] }).dev.retire = [5] := by
  decide +kernel

/-! ## Hems -/

def hemIs (v : Svc) (u : HemUse) (stop byReturn : Bool) : Dev :=
  svcIs 0 { v with hem := { Reset.hem with use := u, stop := stop, byReturn := byReturn } }
theorem witness_hem_starts : let s := st (hemIs (outAs .held) .idle false false)
    hostServed s.dev (tileOff 0 0x300) ∧ (svc s.dev 0).state = .out ∧ (svc s.dev 0).hem.use = .idle ∧ rateChanging s.dev 0 = false ∧
    s.dev.pins.ck = true := by
  decide +kernel
theorem witness_hem_unclocked : let s := st (unclocked (hemIs (outAs .held) .idle false false))
    hostServed s.dev (tileOff 0 0x300) ∧ (svc s.dev 0).state = .out ∧ (svc s.dev 0).hem.use = .idle ∧ rateChanging s.dev 0 = false ∧
    s.dev.pins.ck = false := by decide +kernel
theorem witness_hem_stop : let s := st (hemIs (outAs .held) .farEnd false false)
    hostServed s.dev (tileOff 0 0x300) ∧ (svc s.dev 0).hem.use = .farEnd ∧ (svc s.dev 0).state = .out ∧ (svc s.dev 0).hem.use ≠ .idle := by
  decide +kernel
theorem witness_hem_in_service : hostServed (st live).dev (tileOff 0 0x300) ∧ (svc (st live).dev 0).state ≠ .out := by decide +kernel
theorem witness_training : let s := st (hemIs (outAs .held) .training false false)
    (svc s.dev 0).hem.use = .training ∧ s.dev.pins.ck = true ∧ failStep (trialIds s.dev 0 goodTrial) 0 goodTrial = none ∧
    failStep (trialIds s.dev 0 { goodTrial with eyeRead := 15 }) 0 { goodTrial with eyeRead := 15 } = some 4 := by
  decide +kernel
theorem witness_training_frozen : let s := st (hemIs (outAs .frozen) .training false false)
    (svc s.dev 0).hem.use = .training ∧ s.dev.pins.ck = true ∧ failStep (trialIds s.dev 0 goodTrial) 0 goodTrial = none ∧
    isFrozen s.dev 0 = true ∧ s.dev.boot.warmState ≠ 3 ∧ isFrozen (st (hemIs (outAs .held) .training false false)).dev 0 = false := by
  decide +kernel
theorem witness_loopback : (svc (st (hemIs (outAs .held) .nearEnd true true)).dev 0).hem.use = .nearEnd ∧
    (svc (st (hemIs (outAs .held) .nearEnd true true)).dev 0).hem.stop = true := by decide +kernel
def calibrated : Dev := trained (regIs live 0xD020 0xC0010000)
def calibrating : Dev := chanIs 288 { Reset.chan with tasks := [.zq, .gap] }
theorem witness_zq_command : (chan (st calibrating).dev 288).tasks = .zq :: [.gap] ∧ taskOk (st calibrating).dev 288 100 .zq = true := by
  decide +kernel
theorem witness_zq : (rget (st calibrated).dev 0xD020).getLsbD 31 = true ∧ (st calibrated).dev.boot.trainDone = true ∧
    isFar 288 = true ∧ isFirstOfStack (st calibrated).dev 288 = true := by decide +kernel
def drifted : Dev := trained (regIs (svcIs 0 { Reset.svc with hem := { Reset.hem with drift := 1 } }) 0xD020 0x40010000)
theorem witness_tracking : (rget (st drifted).dev 0xD020).getLsbD 30 = true ∧ (st drifted).dev.boot.trainDone = true ∧
    (svc (st drifted).dev 0).state ≠ .out ∧ (svc (st drifted).dev 0).hem.use = .idle ∧ lbPinFits 0 271 = true := by decide +kernel

/-! ## Energy -/

def energyIs (f : Energy → Energy) : Dev := { live with energy := f live.energy }
def sampled : Dev := energyIs fun e => { e with counts := [(16 * 319 + 2, 5), (16 * 319 + 3, 6), (16 * 330 + 1, 7), (16 * 344, 8)], coefs := [(7, 3), (17, 4)] }
def worker (d : Dev) : Dev := bootIs d fun b => { b with mgr := 1 }
def windowEnds (fresh : Bool) : Dev :=
  worker (energyIs fun e => { e with started := true, fresh := fresh, winPj := 7000000, staleCnt := 15 })
def rails1 (out : Bool) (misses : Nat) : Dev :=
  { live with regs := [(0xE110, 0x81000000), (0xE120, if out then 0x80000001 else 0xC0000001)],
              energy := { live.energy with rails := [(0, { Reset.rail with misses := misses })] } }
def changing (r : Nat) : Dev := energyIs fun e => { e with chg := true, changing := [r], target := 1 }
def drooping : Dev := { regIs live 0xE160 0x00010000 with pins := { live.pins with droop := false } }
theorem witness_energy_sample : (st sampled).dev.pins.rstAsserted = false ∧ (∀ e ∈ (st sampled).dev.energy.counts, e.1 / 16 < 345) ∧
    (st sampled).dev.energy.started = false := by decide +kernel
/-- Rail 0 is measured at 9 mW per reading of the window, which the estimate is far from. -/
def measuredWin : Dev :=
  { windowEnds true with regs := [(0xE110, 0x81000000), (0xE120, 0x80000001), (0xE0E0, 0x00000101)],
                         energy := { (windowEnds true).energy with diverged := true, winPj := 5000000000000, rails := [(0, ⟨true, false, 0, 9, 18, 2⟩)] } }
theorem witness_energy_window : (∀ b : Bool, (st (windowEnds b)).dev.energy.started = true ∧
    (st (windowEnds b)).dev.pins.rstAsserted = false ∧ isManager (st (windowEnds b)).dev = false ∧
    (st (windowEnds b)).dev.energy.fresh = b ∧ (st (windowEnds b)).dev.energy.stale = false ∧
    max 1 (rbits (st (windowEnds b)).dev 0xE0C8 31 24) ≤ (st (windowEnds b)).dev.energy.staleCnt + 1) ∧
    (st measuredWin).dev.energy.started = true ∧ (st measuredWin).dev.pins.rstAsserted = false ∧ isManager (st measuredWin).dev = false ∧
    (st measuredWin).dev.energy.diverged = true ∧ (measured (st measuredWin).dev).2 = true := by decide +kernel
theorem witness_rail_good : (st (rails1 true 0)).dev.pins.rstAsserted = false ∧ (rget (st (rails1 true 0)).dev 0xE110).getLsbD 31 = true ∧
    nextSlotOf (st (rails1 true 0)).dev = some 0 ∧ pmFits (st (rails1 true 0)).dev 0 (.pout 5) = true ∧
    railPower (st (rails1 true 0)).dev 0 (.pout 5) = some 39 := by decide +kernel
theorem witness_rail_failed : nextSlotOf (st (rails1 false 0)).dev = some 0 ∧ pmFits (st (rails1 false 0)).dev 0 .pec = true ∧
    railPower (st (rails1 false 0)).dev 0 .pec = none ∧ (rget (st (rails1 false 0)).dev 0xE110).getLsbD 31 = true := by decide +kernel
theorem witness_rate_change : ∀ r : Fin 3, (st (changing r)).dev.energy.chg = true ∧ (st (changing r)).dev.energy.changing = [r.val] ∧
    (∀ t ∈ regionTiles r.val, (svc (st (changing r)).dev t).hem.use = .idle) ∧ (st (changing r)).dev.energy.exhausted = false := by decide +kernel
/-- The purse ran out while the change of region 2 to point 1 runs; the floor of the phase is point 3. -/
def spentChanging : Dev :=
  { changing 2 with regs := [(0xE000, 0x80000000), (0xE080, 0x30)], energy := { (changing 2).energy with exhausted := true, started := true } }
theorem witness_rate_change_spent : let d := (st spentChanging).dev
    d.energy.chg = true ∧ d.energy.changing = [2] ∧ d.energy.exhausted = true ∧ d.energy.started = true ∧ purseActs d = true ∧
    d.energy.midwin = false ∧ d.energy.target < floorOf d d.energy.phase.toNat ∧
    d.energy.heldOff.getLsbD (floorOf d d.energy.phase.toNat) = false ∧ allIdle d ∧
    (∀ t ∈ regionTiles 2, (svc d t).hem.use = .idle) := by decide +kernel
/-- Point 3 was chosen while the change of region 0 ran. -/
def wishing : Dev := { changing 0 with energy := { (changing 0).energy with wish := some 3 } }
theorem witness_rate_change_wish : let d := (st wishing).dev
    d.energy.chg = true ∧ d.energy.changing = [0] ∧ d.energy.exhausted = false ∧ d.energy.wish = some 3 ∧
    d.energy.heldOff.getLsbD 3 = false ∧ allIdle d ∧ (∀ t ∈ regionTiles 0, (svc d t).hem.use = .idle) := by decide +kernel
theorem witness_rate_change_idle : allIdle (st (changing 2)).dev := by decide +kernel
theorem witness_droop : (st drooping).dev.pins.rstAsserted = false ∧ rbits (st drooping).dev 0xE160 23 16 ≠ 0 ∧
    (st drooping).dev.pins.droop = false := by decide +kernel
theorem witness_energy_writes : hostServed (st live).dev 0xE0E0 ∧ hostServed (st live).dev 0xE0C0 ∧
    (st live).dev.pins.rstAsserted = false ∧ hostServed (st live).dev (0xE060 + 4 * 3) := by decide +kernel

/-! ## The die link -/

def reqMsg : Msg := ⟨2, 0, .req 5 3 9 1 0x40 3 0 0 0 [(0, 0)]⟩
def rspMsg : Msg := ⟨2, 0, .rsp 0 .okay [1] [7]⟩
def expects : Dev := peerIs live 2 { Reset.peer with unreach := false, seqIn := 5 }
def late : Dev := regIs (peerIs live 2 { Reset.peer with seqIn := 5, reorder := [(7, reqMsg)] }) 0xF004 0x01000000
def forwarded : Dev :=
  regIs { live with txns := [(0, { txn .read with fwd := some (2, 5) })], nextTxn := 1,
                    link := { live.link with fwds := [(0, 2, 0)] } } 0xF004 0x01000000
def ring : Dev := { live with link := { live.link with links := [(0, ⟨.up, 31, []⟩), (1, ⟨.up, 31, []⟩)], far := 3 } }
theorem witness_req_message : (st expects).dev.pins.rstAsserted = false ∧ reqMsg.dst = (st expects).dev.boot.inst ∧
    reqMsg.src ≠ (st expects).dev.boot.inst ∧ (getPeer (st expects).dev 2).skipped = [] ∧
    (getPeer (st expects).dev 2).reorder = [] ∧ (getPeer (st expects).dev 2).seqIn = 5 ∧ (st expects).dev.pins.ready = true := by
  decide +kernel
theorem witness_seq_skip : (st late).dev.pins.rstAsserted = false ∧ rbits (st late).dev 0xF004 31 24 ≠ 0 ∧
    (getPeer (st late).dev 2).reorder ≠ [] ∧
    mget (getPeer (st late).dev 2).reorder ((getPeer (st late).dev 2).seqIn + 1).toNat = none := by decide +kernel
theorem witness_rsp_message : (st forwarded).dev.pins.rstAsserted = false ∧ rspMsg.dst = (st forwarded).dev.boot.inst ∧
    (0, rspMsg.src, 0) ∈ (st forwarded).dev.link.fwds ∧
    getTxn (st forwarded).dev 0 = some { txn .read with fwd := some (2, 5) } ∧ (txn .read).src = .port 3 7 ∧
    (txn .read).silent = false ∧ (st forwarded).dev.pins.mask.getLsbD 3 = false := by decide +kernel
theorem witness_remote_timeout : (st forwarded).dev.link.fwds = (0, 2, 0) :: [] ∧ rbits (st forwarded).dev 0xF004 31 24 ≠ 0 ∧
    getTxn (st forwarded).dev 0 = some { txn .read with fwd := some (2, 5) } := by decide +kernel
theorem witness_relay : (⟨1, 2, .leave⟩ : Msg).dst ≠ (st ring).dev.boot.inst ∧ (st ring).dev.pins.rstAsserted = false ∧
    linkUp (st ring).dev 0 = true ∧ linkUp (st ring).dev 1 = true := by decide +kernel

def beats (p : Peer) : Dev := peerIs live 2 { p with beating := true }
def silent15 : Peer := { Reset.peer with misses := 14, hbWaiting := true }
theorem witness_beat_limit : ∀ p ∈ [Reset.peer, silent15], asManager (st (beats p)).dev ∧ isOther (st (beats p)).dev 2 ∧
    (st (beats p)).dev.link.fwds = [] ∧ (getPeer (st (beats p)).dev 2).beating = true ∧
    (getPeer (st (beats p)).dev 2).marked = false := by decide +kernel
theorem witness_heartbeat : asWorker (st (worker live)).dev ∧ (st (worker live)).dev.link.fwds = [] := by decide +kernel
def applying : Dev := { worker live with link := { live.link with applyAt := true } }
theorem witness_manager_lost : asWorker (st applying).dev ∧ (st applying).dev.link.applyAt = true ∧
    (st applying).dev.link.mgrLost = false := by decide +kernel
theorem witness_hb_ack : asManager (st live).dev ∧ (0 : BitVec 8) = (st live).dev.link.hbSeq := by decide +kernel
theorem witness_report : asManager (st ring).dev ∧ isAbsent (st (peerIs ring 2 { Reset.peer with unreach := false })).dev 2 = false := by
  decide +kernel

def markedPeer : Peer := { Reset.peer with marked := true, cause := 4, unreach := false }
def sentTo (n : Nat) : Peer := { Reset.peer with bcast := n, unreach := false, verified := n = 1 }
theorem witness_absent_set : (st (worker live)).dev.link.fwds = [] ∧ asWorker (st (worker live)).dev ∧ isOther (st (worker live)).dev 2 := by
  decide +kernel
theorem witness_isolated : asWorker (st (worker live)).dev ∧ (0 : BitVec 2) = (st (worker live)).dev.boot.inst ∧
    (st (worker live)).dev.link.isolated = false := by decide +kernel
theorem witness_absent_clear : asWorker (st (worker (peerIs live 2 markedPeer))).dev ∧
    isOther (st (worker (peerIs live 2 markedPeer))).dev 2 ∧ (getPeer (st (worker (peerIs live 2 markedPeer))).dev 2).marked = true := by
  decide +kernel
theorem witness_marks : asManager (st (peerIs live 2 (sentTo 1))).dev ∧ isOther (st (peerIs live 2 (sentTo 1))).dev 2 ∧
    (getPeer (st (peerIs live 2 (sentTo 1))).dev 2).marked = false ∧ (getPeer (st (peerIs live 2 (sentTo 1))).dev 2).bcast = 1 ∧
    hostServed (st (peerIs live 2 (sentTo 1))).dev 0xF034 := by decide +kernel
theorem witness_evict_worker : hostServed (st (worker live)).dev 0xF034 ∧ isManager (st (worker live)).dev = false := by decide +kernel

/-- Both links train, as after reset. -/
def training : Dev := { live with link := { live.link with links := [(0, ⟨.training, 0, []⟩), (1, ⟨.training, 0, []⟩)] } }
theorem witness_hello : (st training).dev.pins.rstAsserted = false ∧ (getLink (st training).dev 1).state = .training ∧
    (2 : BitVec 2) = (st training).dev.boot.inst ^^^ BitVec.ofNat 2 ((1 : Fin 2).val + 1) ∧ (0 : BitVec 2) = (st training).dev.boot.mgr ∧
    Config.revision = Config.revision ∧ (3 : BitVec 5) ≠ 0 ∧ (getLink (st ring).dev 1).state ≠ .training :=
  ⟨by decide +kernel, by decide +kernel, by decide +kernel, by decide +kernel, rfl, by decide, by decide +kernel⟩
theorem witness_hello_wrong : (st training).dev.pins.rstAsserted = false ∧ (getLink (st training).dev 1).state = .training ∧
    ((1 : BitVec 2) ≠ (st training).dev.boot.inst ^^^ BitVec.ofNat 2 ((1 : Fin 2).val + 1) ∨ (0 : BitVec 2) ≠ (st training).dev.boot.mgr) := by
  decide +kernel
theorem witness_hello_far : (st ring).dev.pins.rstAsserted = false ∧ linkUp (st ring).dev 0 = true ∧
    (getPeer (st ring).dev (Nat.xor (me (st ring).dev) 3)).unreach = true := by decide +kernel
theorem witness_module_down : (st ring).dev.pins.rstAsserted = false ∧ (getLink (st ring).dev (9 / 5)).modules.getLsbD (9 % 5) = true ∧
    (getLink (st ring).dev (9 / 5)).modules ≠ BitVec.ofNat 5 (2 ^ (9 % 5)) := by decide +kernel
def reachable : Dev := peerIs live 2 { Reset.peer with unreach := false }
/-- The mismatch of a link that trains, whose other one still reaches every instance. -/
def reachAll : Dev :=
  { ring with link := { ring.link with links := [(0, ⟨.up, 31, []⟩), (1, ⟨.training, 0, []⟩)],
                                       peers := [(1, { Reset.peer with unreach := false }), (2, { Reset.peer with unreach := false }),
                                                 (3, { Reset.peer with unreach := false })] } }
theorem witness_mismatch_keeps : (getLink (st reachAll).dev 1).state = .training ∧ ∀ i ∈ others (st reachAll).dev,
    (getPeer (st reachAll).dev i).unreach = true ∨ pathOk (st reachAll).dev i (1 - 1) = true := by decide +kernel
theorem witness_link_down : (st reachable).dev.pins.rstAsserted = false ∧ isOther (st reachable).dev 2 ∧
    (st reachable).dev.link.fwds = [] ∧ linkUp (st reachable).dev 0 = false ∧ linkUp (st reachable).dev 1 = false ∧
    (getPeer (st reachable).dev 2).unreach = false := by decide +kernel

/-- An unsigned image of the header alone: MAGIC, FORMAT 1, UNSIGNED, LENGTH 256, the target. -/
def plain : SMap Word := [(0, 0x4E525450), (1, 0x00010001), (2, 256), (4, 0xD4700100)]
def loaded (n : Nat) : Dev := bootIs live fun b => { b with image := plain, imgState := n }
theorem witness_image : asWorker (st (worker live)).dev ∧ (st (worker live)).dev.boot.imgState = 0 ∧
    ([5, 6] : List Word)[1]? = some 6 ∧ (0xFFFF8 : BitVec 20).toNat / 4 + ([5, 6] : List Word).length ≤ 262144 := by decide +kernel
theorem witness_apply : asWorker (st (worker (loaded 2))).dev ∧ (st (worker (loaded 2))).dev.boot.imgState = 2 := by decide +kernel
theorem witness_reg_write : asWorker (st (worker live)).dev ∧ hostServed (st (worker live)).dev 0xE0C4 := by decide +kernel
theorem witness_broadcast : ∀ a : Bool, let d := peerIs live 2 { sentTo 1 with acked := a }
    asManager (st d).dev ∧ isOther (st d).dev 2 ∧ (st d).dev.link.fwds = [] ∧ (getPeer (st d).dev 2).bcast = 1 ∧
    (getPeer (st d).dev 2).verified = true ∧ (getPeer (st d).dev 2).acked = a := by decide +kernel
/-- The JOIN of instance 2 runs; its worker has acknowledged APPLY. -/
def joinEnds : Dev := { peerIs live 2 { sentTo 1 with acked := true } with
                          link := { (peerIs live 2 { sentTo 1 with acked := true }).link with joining := some 2, bcastBusy := true } }
theorem witness_join_ends : (st joinEnds).dev.link.joining = some 2 ∧ (getPeer (st joinEnds).dev 2).acked = true ∧
    ∀ k ∈ others (st joinEnds).dev, k ≠ 2 → (getPeer (st joinEnds).dev k).bcast ≠ 1 := by decide +kernel
theorem witness_join : hostServed (st (peerIs live 2 markedPeer)).dev 0xF034 ∧ (getPeer (st (peerIs live 2 markedPeer)).dev 2).marked = true ∧
    (getPeer (st (peerIs live 2 markedPeer)).dev 2).unreach = false ∧ (st (peerIs live 2 markedPeer)).dev.link.bcastBusy = false := by
  decide +kernel
theorem witness_join_ignored : asManager (st live).dev ∧ hostServed (st live).dev 0xF034 ∧ (getPeer (st live).dev 2).marked = false := by decide +kernel

theorem witness_img_write : hostServed (st live).dev 0x100C ∧ (st live).dev.boot.applied = false ∧ isManager (st live).dev = true ∧
    (st live).dev.boot.imgState = 0 := by decide +kernel
theorem witness_img_ignored : hostServed (st (worker live)).dev 0x100C ∧ isManager (st (worker live)).dev = false := by decide +kernel
theorem witness_go : hostServed (st (loaded 3)).dev 0x1000 ∧ (st (loaded 3)).dev.boot.applied = false ∧ isManager (st (loaded 3)).dev = true ∧
    (st (loaded 3)).dev.boot.imgState ≠ 1 ∧ (st (loaded 3)).dev.boot.imgState ≠ 2 ∧ (st (loaded 3)).dev.link.bcastBusy = false := by
  decide +kernel
def inForce4 : Dev := bootIs live fun b => { b with applied := true, imgState := 4 }
def broadcasting : Dev := { live with link := { live.link with bcastBusy := true } }
theorem witness_load_ignored : (∀ d ∈ [inForce4, worker live, loaded 1, loaded 2, broadcasting], hostServed (st d).dev 0x1000 ∧ hostServed (st d).dev 0x100C) ∧
    (st inForce4).dev.boot.applied = true ∧ (st (loaded 1)).dev.boot.imgState = 1 ∧ (st (loaded 2)).dev.boot.imgState = 2 ∧
    (st broadcasting).dev.link.bcastBusy = true := by decide +kernel
theorem witness_verify : (st (loaded 1)).dev.pins.rstAsserted = false ∧ (st (loaded 1)).dev.boot.imgState = 1 ∧ (st (loaded 1)).dev.link.fwds = [] ∧
    isManager (st (loaded 1)).dev = true ∧ linksTrain (st (loaded 1)).dev = false := by decide +kernel
def loadedEarly : Dev := { loaded 1 with link := training.link }
theorem witness_verify_waits : (st loadedEarly).dev.pins.rstAsserted = false ∧ (st loadedEarly).dev.boot.imgState = 1 ∧
    (st loadedEarly).dev.link.fwds = [] ∧ isManager (st loadedEarly).dev = true ∧ linksTrain (st loadedEarly).dev = true := by decide +kernel
theorem witness_apply_manager : asManager (st (loaded 2)).dev ∧ (st (loaded 2)).dev.boot.imgState = 2 ∧ bcastReady (st (loaded 2)).dev = true := by
  decide +kernel
theorem witness_accepted : verifyImage Reset.fuses (loaded 1) = (0, 0) := by decide +kernel

/-! ## Resets, starts, warm entries, the wrapper -/

theorem witness_reset_assert : (st { live with pins := { live.pins with srDone := true } }).dev.pins.rstPin = false := by decide +kernel
theorem witness_reset_deassert : (st Reset.dev).dev.pins.rstPin = true ∧ (st Reset.dev).dev.pins.testMode = false ∧
    (st Reset.dev).dev.pins.testTainted = false := by decide +kernel
def startable (warm orderly : Bool) : Dev :=
  bootIs live fun b => { b with applied := true, step := 3, warm := warm, warmOk := true, ledOrderly := orderly }
theorem witness_trains : trains (st (startable false false)).dev ⟨noTemps, 40, [], [], []⟩ ∧
    trains (st (startable true false)).dev ⟨noTemps, 40, [], [], []⟩ ∧ ∀ v, trains (st (startable false false)).dev ⟨noTemps, 40, [], [⟨.blank, 0, v⟩], []⟩ :=
  have h : identityOk Reset.layer = true := by decide +kernel
  ⟨⟨rfl, by decide, fun _ _ _ _ => h⟩, ⟨rfl, by decide, fun _ _ _ _ => h⟩, fun _ => ⟨rfl, show 16 ≤ 40 by decide, fun _ _ _ _ => h⟩⟩
theorem witness_cold_start : (5 : BitVec 9).toNat < phaseVectors 0 ∧ mayStart (st (startable false false)).dev false = true ∧ (st (startable false false)).dev.link.isolated = false := by
  decide +kernel
theorem witness_warm_start : mayStart (st (startable true false)).dev true = true ∧ (st (startable true false)).dev.boot.warmOk = true ∧
    (st (startable true false)).dev.link.isolated = false ∧ (st (startable true false)).dev.boot.ledOrderly = false := by decide +kernel
def ended : Dev := bootIs live fun b => { b with applied := true, step := 9, done := true, trainDone := true }
theorem witness_orderly : hostServed (st ended).dev 0x1018 ∧ orderlyErr (st ended).dev = 0 ∧ (st ended).dev.boot.applied = true := by
  decide +kernel
theorem witness_orderly_refused : hostServed (st live).dev 0x1018 ∧ orderlyErr (st live).dev ≠ 0 ∧ (st live).dev.boot.applied = false := by
  decide +kernel
/-- An orderly entry is at a step, with tile 319 in some state. -/
def entering (k : Nat) (v : Svc) (c : Chan) : Dev := bootIs (tileIs 319 ⟨Reset.slice, c, v⟩) fun b => { b with applied := true, step := 10, warmState := k }
theorem witness_entry_turn : ∀ k ∈ [1, 2, 3, 4], ∀ c ∈ [Reset.chan, { Reset.chan with ham := [fullAt 0 false] }],
    entryTurn (st (entering k Reset.svc c)) k := by decide +kernel
theorem witness_entry_held : (svc (st (entering 1 (outAs .held) Reset.chan)).dev 319).state = .out ∧
    (svc (st (entering 1 (outAs .held) Reset.chan)).dev 319).reason = .held ∧ entryTurn (st (entering 1 (outAs .held) Reset.chan)) 1 := by
  decide +kernel
/-- A master still holds a credit. -/
def credited : Dev := { entering 1 Reset.svc Reset.chan with reg := { Reset.regulator with masters := [(23, { Reset.master with held := 1 })] } }
theorem witness_entry_waits : entryTurn (st credited) 1 ∧ ofE2 23 ∧ (getMaster (st credited).dev 23).held ≠ 0 := by decide +kernel
theorem witness_entry_quiet : quiesced (st (entering 1 Reset.svc Reset.chan)).dev := by
  refine ⟨fun m _ => rfl, ?_⟩
  decide +kernel
theorem witness_entry_empty : (∀ k ∈ [2, 3], allEmpty (st (entering k Reset.svc Reset.chan)).dev ∧
      ¬allEmpty (st (entering k Reset.svc { Reset.chan with ham := [fullAt 0 false] })).dev) ∧
    ∀ e ∈ (st (entering 3 Reset.svc Reset.chan)).dev.tiles, e.2.svc.led = [] ∧ e.2.chan.alert = none := by decide +kernel
/-- Every rank is in self-refresh. -/
def asleep : Dev :=
  let r : Rank := { Reset.rank with selfRefresh := true }
  { entering 4 Reset.svc Reset.chan with tiles := (List.range 320).map fun t => (t, { Reset.tile with chan := { Reset.chan with ranks := [(0, r), (1, r)] } }) }
theorem witness_entry_asleep : entryTurn (st asleep) 4 ∧ allSleep (st asleep).dev ∧ ¬allSleep (st (entering 4 Reset.svc Reset.chan)).dev := by
  decide +kernel
theorem witness_test_mode : (st live).dev.pins.testMode = false := by decide +kernel
theorem witness_fuse_prog : (st live).fuses.keys.length = 4 := by decide +kernel

/-! ## Registers -/

def notReady : Dev := { live with pins := { live.pins with ready := false } }
def clearing : Dev := { live with blank := { live.blank with busy := true } }
theorem witness_blank_clear : hostServed (st notReady).dev 0xA000 ∧ (st notReady).dev.pins.ready = false ∧ (st notReady).dev.blank.busy = false := by
  decide +kernel
theorem witness_blank_clear_ignored : hostServed (st live).dev 0xA000 ∧ (st live).dev.pins.ready = true := by decide +kernel
theorem witness_blank_clear_done : (st clearing).dev.blank.busy = true := by decide +kernel
def mapped : Dev := { live with blank := ⟨[(3, 5), (62914559, 62914559)], [], false, true, []⟩ }
theorem witness_blank_query : hostServed (st mapped).dev 0xA004 ∧ (st mapped).dev.blank.known = true ∧
    mget (st mapped).dev.blank.errs (mapWord 62914559) = none := by decide +kernel
def record : LintRec := ⟨[1, 2, 3, 4, 5, 6, 7, 8]⟩
def writes (tail : Word) : Dev := regIs { live with lint := { live.lint with queue := [(0, record)], head := 8191 } } 0xA044 tail
theorem witness_lint_write : (st (writes 1)).dev.lint.queue = (0, record) :: [] ∧ (st (writes 1)).dev.lint.head + 1 ≠ lintTail (st (writes 1)).dev ∧
    (st (writes 1)).dev.lint.bad.contains (diagLine (st (writes 1)).dev.lint.head.toNat) = false := by
  decide +kernel
theorem witness_lint_full : (st (writes 0)).dev.lint.queue = (0, record) :: [] ∧ (st (writes 0)).dev.lint.head + 1 = lintTail (st (writes 0)).dev := by
  decide +kernel
theorem witness_lint_tail : hostServed (st (writes 8190)).dev 0xA044 ∧ lintTailOk (st (writes 8190)).dev 8191 = true ∧
    lintTailOk (st (writes 8190)).dev 8189 = false := by decide +kernel
def saturated (r : BitVec 8) : Dev := { live with tally := { live.tally with counts := [(7, countMax)], satRaised := r } }
theorem witness_tally : hostServed (st live).dev 0x10000 ∧ mgetD 0 (st (saturated 0)).dev.tally.counts 7 = countMax ∧
    (st (saturated 0)).dev.tally.satRaised.getLsbD 7 = false ∧ mgetD 0 (st (saturated 128)).dev.tally.counts 7 = countMax ∧
    (st (saturated 128)).dev.tally.satRaised.getLsbD 7 = true := by decide +kernel
theorem witness_irq : ∀ n : Fin 8, hostServed (st live).dev (irqPend n.val) := by decide +kernel
theorem witness_rc_read : hostServed (st live).dev (0x100314 : BitVec 24).toNat ∧ isPairLow (0x100314 : BitVec 24).toNat = false ∧
    isPairHigh (0x100314 : BitVec 24).toNat = false ∧ isCapture (0x100314 : BitVec 24).toNat = false ∧
    lintRead (st live).dev (0x100314 : BitVec 24).toNat = (st live).dev :=
  ⟨by decide +kernel, by decide +kernel, by decide +kernel, by decide +kernel, rfl⟩
theorem witness_capture_read : hostServed (st live).dev (0x6034 : BitVec 24).toNat ∧ isCapture (0x6034 : BitVec 24).toNat = true := by decide +kernel
theorem witness_tc_bytes : ∀ n : Fin 4, hostServed (st live).dev (0x2140 + 8 * n.val) ∧ isPairLow (0x2140 + 8 * n.val) = true := by decide +kernel
theorem witness_retire_met : hostServed (st { live with retire := [5] }).dev 0xB030 ∧ (st { live with retire := [5] }).dev.retire = 5 :: [] ∧
    (0x80000007 : Word).getLsbD 31 = true ∧ (st { live with retire := [5] }).dev.pins.rstAsserted = false := by decide +kernel
theorem witness_port_err : ∀ n : Fin 16, hostServed (st live).dev (0x2040 + 4 * n.val) ∧ (st live).dev.pins.rstAsserted = false ∧
    rbits (st live).dev (0x2040 + 4 * n.val) 5 0 = 0 := by decide +kernel
def captured (a : Bool) : Dev :=
  { live with ycp := { live.ycp with capHost := if a then some (0x10008, 7) else none, capMgr := some (0x10008, 9) } }
theorem witness_split_low : hostServed (st live).dev (0x10008 : BitVec 24).toNat ∧ isPairLow (0x10008 : BitVec 24).toNat = true := by
  decide +kernel
theorem witness_split_high : hostServed (st (captured true)).dev (0x1000C : BitVec 24).toNat ∧
    isPairHigh (0x1000C : BitVec 24).toNat = true ∧
    capOf? (st (captured true)).dev .host = some ((0x1000C : BitVec 24).toNat - 4, 7) ∧
    capOf? (st (captured true)).dev .manager = some ((0x1000C : BitVec 24).toNat - 4, 9) := by decide +kernel
def logging : Dev := { live with lint := { live.lint with open_ := true } }
theorem witness_owner : hostServed (st logging).dev 0xE0C4 ∧ (st logging).dev.lint.open_ = true ∧ (st logging).dev.lint.queue.length < 64 ∧
    (st logging).dev.pins.rstAsserted = false ∧ (st logging).dev.pins.rstPin = false ∧ hostServed (st logging).dev 0xE0C0 := by decide +kernel
theorem witness_sched_limits : hostServed (st live).dev (tileOff 319 0) ∧
    (1 ≤ bits 0x5F60 6 0 ∧ bits 0x5F60 6 0 ≤ 96 ∧ bits 0x5F60 14 8 < bits 0x5F60 6 0) ∧
    ¬(1 ≤ bits 0x61 6 0 ∧ bits 0x61 6 0 ≤ 96 ∧ bits 0x61 14 8 < bits 0x61 6 0) := by decide +kernel
def checked (v : Word) : Dev := regIs live 0x14 v
theorem witness_ycp_parity : (st (checked 0x80000000)).dev.pins.rstPin = false ∧
    (rget (st (checked 0x80000000)).dev 0x14).getLsbD 31 = true ∧ oddOnes true 0 1 true = true := by decide +kernel
theorem witness_ycp_not_served : (st { live with pins := { live.pins with pllCore := false } }).dev.pins.rstPin = false ∧
    served (st { live with pins := { live.pins with pllCore := false } }).dev ((0x800 : BitVec 22).toNat * 4) = false := by decide +kernel

/-! ## The worked examples of the spec -/

/-- After R86: instance address 0x01_2345_6780, row group 149,130, under the four fold orders. -/
theorem test_fold_orders : foldGroup 0 16 32 1920 149130 = (2, 10, 820) ∧ foldGroup 1 16 32 1920 149130 = (2, 14, 820) ∧
    foldGroup 2 16 32 1920 149130 = (2, 13, 1290) ∧ foldGroup 3 16 32 1920 149130 = (10, 8, 291) ∧
    unfoldGroup 3 16 32 1920 10 8 291 = 149130 := by decide +kernel
/-- The same address under PLAIN: data tile N043, column 1536; parity tile N032, bank 11, row 1971, column 512. -/
theorem test_fold_tiles : let d := regIs live 0x4000 0
    stripeOf d 0 0x0123456780 = (⟨2, 10, 820, 12, 0⟩, 15) ∧ stripeDataLoc d ⟨2, 10, 820, 12, 0⟩ ((15 + 12) % 16) = ⟨43, 10, 820, 24⟩ ∧
    stripeParityLoc d ⟨2, 10, 820, 12, 0⟩ = ⟨32, 11, 1971, 8⟩ := by decide +kernel
/-- After R125: the headers of QP4 while DL2 is ABSENT. -/
theorem test_header_answers :
    frontCheck .read 0 (0x600 / 32) 128 0 = some .length ∧ frontCheck .writebolt 0 (0x800 / 32) 64 0 = none ∧
    frontCheck .writebolt 0 (0x800 / 32) 65 0 = some .length ∧
    foldCheck live 4 .read (BitVec.ofNat 34 (0x077FFFFF00 / 32)) 16 = .answer .range ∧
    foldCheck live 4 .read (BitVec.ofNat 34 (0x1E00000000 / 32)) 1 = .answer .range ∧
    frontCheck .atomic 4 (BitVec.ofNat 34 (0x2000000040 / 32)) 1 0x003C = some .length ∧
    frontCheck .atomic 5 (BitVec.ofNat 34 (0x2000000040 / 32)) 1 0x0035 = some .denied ∧
    foldCheck live 4 .read (BitVec.ofNat 34 (0x4000000000 / 32)) 1 = .answer .absent := by decide +kernel
def bf16 (l : List Nat) (mode : Nat) : Acc :=
  l.foldl (fun a v => (applyAcc 0 1 (-40) a (decodeFp (fpOf 1) v)).1) (initAcc 0 mode)
/-- After R212: 2^24, 1 and -2^24 in BF16 under ARRIVAL, in two orders, and under EXACT. -/
theorem test_bf16_sums : bf16 [0x4B80, 0x3F80, 0xCB80] 0 = .w32 0 ∧ bf16 [0x4B80, 0xCB80, 0x3F80] 0 = .w32 0x3F800000 ∧
    bf16 [0x4B80, 0x3F80, 0xCB80] 1 = .win (2 ^ 40) 0 ∧ bf16 [0x3F80, 0x4B80, 0xCB80, 0x2B00] 1 = .win (2 ^ 40) 0 ∧
    drainElem 1 (drainVal 1 (-40) (.win (2 ^ 40) 0)) = (0x3F80, false) ∧
    (applyAcc 0 1 (-40) (.win (2 ^ 40) 0) (decodeFp (fpOf 1) 0x2B00)).2 = fInexact := by decide +kernel
/-- After R212: one MXFP4 block of 10, -3 and 0.75. -/
theorem test_mxfp4_block :
    drainBlock 9 ([.num false 10 0, .num true 3 0, .num false 3 (-2)] ++ List.replicate 29 (.num false 0 0)) =
      (0x80, [0x6, 0xB, 0x1] ++ List.replicate 29 0, false) := by decide +kernel

/-- After R405: the ACT and the RD that near hem N043 drives for the read of the fold's example. -/
theorem test_seam_buses : rowEdges 1 0 10 820 = (0x1A1, 0x134) ∧ parityOf (rowEdges 1 0 10 820) = (false, false) ∧
    colEdges 1 0 10 24 false = (0xA1, 0x18) ∧ parityOf (colEdges 1 0 10 24 false) = (true, false) := by decide +kernel
/-- After R333: SLOT 2, rank 1 of N100. -/
theorem test_due_points : let d := { regIs live 0xC030 2 with layer := { Reset.layer with mr6 := 0 } }
    phase d 100 1 = 18 ∧ pointFrom d 100 1 0 false = 274 ∧ pointFrom d 100 1 0 true = 137 ∧
    pointFrom d 100 1 275 false = 274 + 3906 ∧ safeRank d 100 0 = false ∧ safeRank d 100 1 = false := by
  decide +kernel

/-- The manager of the example after R454: its cap, floors and points, and the demands of the four instances. -/
def pkg (ds : List Nat) : Dev :=
  { live with
    regs := [(0xE060, 0x01000000), (0xE064, 0x00E60000), (0xE068, 0x00CD0000), (0xE06C, 0x00BE0000), (0xE080, 0x00000030),
             (0xE180, 1572864), (0xE184, 150000), (0xE188, 150000), (0xE18C, 150000), (0xE190, 150000)],
    energy := { live.energy with hist := (List.range 4).map fun i => (16 * i, ds.getD i 0) },
    link := { live.link with peers := [(1, { Reset.peer with unreach := false }), (2, { Reset.peer with unreach := false }),
                                       (3, { Reset.peer with unreach := false })] } }
/-- The example's purses; for DL1 at the first boundary it prints 494,479, where R453's division rounds down (log entry 33). -/
theorem test_purses : (List.range 4).map (fun i => (purseOf (pkg [485000, 470000, 300000, 240000]) i).1) = [510260, 494478, 315624, 252499] ∧
    (List.range 4).map (fun i => (purseOf (pkg [600000, 600000, 300000, 240000]) i).1) = [534025, 534025, 278008, 226805] := by
  decide +kernel
def wishes (demand purse : Nat) : Dev :=
  { pkg [] with regs := (0xE0C4, BitVec.ofNat 32 demand) :: (pkg []).regs, energy := { live.energy with pEff := purse } }
theorem test_points : choosePoint (wishes 485000 510260) = 0 ∧ choosePoint (wishes 600000 534025) = 2 ∧
    choosePoint (wishes 300000 278008) = 1 ∧ choosePoint (wishes 240000 226805) = 1 := by decide +kernel
/-- SHA-384 of no byte, as FIPS 180-4 defines it. -/
theorem test_sha384 : Sha.beNat (Sha.sha384 []) =
    0x38B060A751AC96384CD9327EB1B1E36A21FDB71114BE07434C0CC7BF63F6E1DA274EDEBFE76F65FBD51AD2F14898B95B := by decide +kernel
/-- No row of the table has bits: no word spells a command. -/
theorem test_no_words : decodeTableWord 32 5 = none ∧ (State.reset.withFetchWord 32 5).pending = [] := by decide
/-- A clear of the Blank map that waits is run by the next step, and it does not wait any more. -/
theorem test_step : (match step { st notReady with pending := [.blankClear, .maintDone] } with
    | .next t => t.dev.blank.busy && decide (t.pending = [.maintDone])
    | _ => false) = true := by decide +kernel

/-! ## The block -/

theorem witness_empty_queue : (st live).pending = [] ∧ (st live).dev.pins.rstAsserted = false ∧ (st live).dev.pins.pllCore = true ∧
    (st Reset.dev).pending = [] ∧ (st Reset.dev).dev.pins.rstAsserted = true := by decide +kernel
/-- A memory with one line, and a command whose step answers a next state. -/
def oneLine : State := { st live with dram := [(5, ⟨1, 2⟩)], pending := [.maintDone] }
theorem witness_memory_step : Memory.wf oneLine.dram = true ∧ step oneLine = .next { oneLine with pending := [] } :=
  ⟨by decide +kernel, rfl⟩
theorem witness_run : core.run 2 oneLine = .next (tick { oneLine with pending := [] }) := by rfl
theorem witness_exec : exec .maintDone oneLine = .next oneLine ∧ touchesMemory .maintDone = false := ⟨rfl, rfl⟩
theorem witness_flipped_bit : 511 < 512 ∧ 31 < 32 := by decide
theorem witness_warm_undefined : mayStart (st { startable true false with boot := { (startable true false).boot with warmOk := false } }).dev true =
    true := by decide
theorem witness_through : request (.read { hdr with flow := .through }) = some (.read, 0, { hdr with flow := .through }) ∧
    request (.read hdr) = some (.read, 0, { hdr with flow := .hold }) ∧ portFree live hdr ∧
    exec (.read hdr) (st live) = .next { st live with dev := acceptHeader live .read 0 hdr } :=
  ⟨rfl, rfl, by decide +kernel, rfl⟩
theorem witness_through_beat : (getPort (st owedTxn).dev 3).owing = some (.txn 0 2) ∧
    exec (.dataBeat 3 7 1 2 .hold) (st owedTxn) = .next { st owedTxn with dev := acceptData owedTxn 3 7 1 2 .hold } :=
  ⟨by decide +kernel, rfl⟩
theorem witness_short : request (.read { hdr with tag := 9 }) = some (.read, 0, { hdr with tag := 9 }) ∧ hdr.flow = .hold ∧
    reqReady (st owedTxn).dev 3 = true ∧ (getPort (st owedTxn).dev 3).owing = some (.txn 0 2) ∧
    getTxn (st owedTxn).dev 0 = some { txn .write with owed := 2 } ∧ 0 ≠ (st owedTxn).dev.nextTxn ∧
    tagOut (st owedTxn).dev 3 9 = false := by decide +kernel

/-! ## SRAM errors -/

/-- Tile 0 has granted nothing yet to a READ of a line whose check fails. -/
def hitBad (dirty : Bool) : Dev :=
  full { sliceIs 0 { Reset.slice with
      sets := [(setIndex l0, ⟨[(4, ⟨true, dirty, false, false, 2, 5, 9, 77, 0⟩)], [4]⟩)], arb := [(3, [readPart .none])], decided := some (3, false) } with
    txns := [(0, { txn .read with addr := 0 })], nextTxn := 1 }
theorem witness_sram_dirty : let s := st (hitBad true)
    idleSlice (slice s.dev 0) ∧ idlePanel s.dev (panelOf s.dev 0) ∧ accepts s.dev 0 = true ∧ allSent s.dev ∧
    isGranted s.dev 0 3 (readPart .none) false ∧ (readPart .none).op = .read .none ∧ (readPart .none).loc.tile = 0 ∧
    lineBusy (slice s.dev 0) l0 9 = false ∧ findWay (slice s.dev 0) l0 = some 4 ∧ (wayOf s.dev l0 4).crc ≠ entryCrc (wayOf s.dev l0 4).data ∧
    getTxn s.dev 0 = some { txn .read with addr := 0 } ∧ 2 ≤ 2 ∧ (rget s.dev 0x6034).getLsbD 31 = false ∧
    (wayOf s.dev l0 4).dirty = true := by decide +kernel
theorem witness_sram_clean : let s := st (hitBad false)
    idleSlice (slice s.dev 0) ∧ idlePanel s.dev (panelOf s.dev 0) ∧ accepts s.dev 0 = true ∧ allSent s.dev ∧
    isGranted s.dev 0 3 (readPart .none) false ∧ (readPart .none).loc.tile = 0 ∧
    lineBusy (slice s.dev 0) l0 9 = false ∧ findWay (slice s.dev 0) l0 = some 4 ∧ (wayOf s.dev l0 4).crc ≠ entryCrc (wayOf s.dev l0 4).data ∧
    getTxn s.dev 0 = some { txn .read with addr := 0 } ∧ 2 ≤ 2 ∧ (rget s.dev 0x6034).getLsbD 31 = false ∧
    (wayOf s.dev l0 4).dirty = false ∧ isValid s.dev 9 = true ∧ mayCreate s.dev 0 = true ∧
    mget s.dev.blank.errs (mapWord 9) = none ∧ (svc s.dev 0).state = .in_ ∧
    (∀ k, k < 16 → k ≠ 4 → (wayOf s.dev l0 k).valid = false) ∧ (slice s.dev 0).miss = [] := by decide +kernel
/-- The tub line of accumulator 15, the last that the contribution reads, is damaged. -/
def flaw15 : TubFlaw := ⟨8, 15, 1, 4, 3, 9⟩
def queuedBad : Dev :=
  { queued false .contrib with mangle := { (queued false .contrib).mangle with flaws := [flaw15] } }
theorem witness_sram_tub : let s := st queuedBad
    headAt s.dev 4 false = some (stagedOne false) ∧ getTxn s.dev 0 = some contribTxn ∧ getInc s.dev 8 = some inc0 ∧
    inc0.failed = false ∧ contribTxn.kind = .contrib ∧ contribTxn.src = .port 3 7 ∧ contribTxn.silent = false ∧
    s.dev.pins.mask.getLsbD 3 = false ∧ s.dev.mangle.tubs = [(0, tub0)] ∧ tub0.gen = 8 ∧ tub0.state = .open_ ∧
    s.dev.mangle.flaws = [flaw15] ∧ flaw15.gen = 8 ∧
    (let r := (elemRange inc0.fmt (tubSector contribTxn.addr) contribTxn.sectors).1
     flaw15.lo < r + beatCut inc0.fmt contribTxn.sectors (stagedOne false).entries ∧
       r + beatCut inc0.fmt contribTxn.sectors (stagedOne false).written < flaw15.lo + flaw15.n) ∧
    beatCut inc0.fmt contribTxn.sectors (stagedOne false).written ≤ beatCut inc0.fmt contribTxn.sectors (stagedOne false).entries := by
  decide +kernel
def mappedBad (uncorr : Bool) : Dev := { mapped with blank := { mapped.blank with errs := [(983039, uncorr)] } }
theorem witness_sram_blank (u : Bool) : hostServed (st (mappedBad u)).dev 0xA004 ∧ (st (mappedBad u)).dev.blank.known = true ∧
    (62914559 : BitVec 26).toNat ≤ 62914559 ∧
    (st (mappedBad u)).dev.blank.errs = [(mapWord (62914559 : BitVec 26).toNat, u)] := by cases u <;> decide +kernel
def walkingBad (uncorr : Bool) : Dev :=
  { walking [] with mend := ⟨[], [], [(mapWord (stripeBolt live (walkStripe 0 0)), uncorr)]⟩ }
theorem witness_sram_mend (u : Bool) : let s := st (walkingBad u)
    (getPanel s.dev 0).walkTile = some 0 ∧ (getPanel s.dev 0).jobs = [] ∧ (svc s.dev 0).hem.use = .idle ∧ inNormal s.dev 0 = true ∧
    (getPanel s.dev 0).walkPos < panelBolts 0 ∧
    s.dev.mend.errs = [(mapWord (stripeBolt s.dev (walkStripe 0 (getPanel s.dev 0).walkPos)), u)] ∧ s.dev.mend.diff.Nodup := by
  cases u <;> decide +kernel
/-- Records 8184 and 8188 share a diagnostic line, which is damaged; INDEX selects the latter. -/
def lintBad : Dev :=
  { live with regs := [(0xA044, 8184), (0xA048, 8188)],
              lint := { live.lint with ring := [(8184, record), (8188, record)], head := 8190, bad := [diagLine 8188] } }
theorem witness_sram_lint : let s := st lintBad
    hostServed s.dev (0xA060 : BitVec 24).toNat ∧ (0xA060 : BitVec 24).toNat % 4 = 0 ∧ lintLive s.dev = true ∧
    (mget s.dev.lint.ring ((rget s.dev 0xA048).toNat % 8192)).isSome = true ∧
    s.dev.lint.bad.contains (diagLine ((rget s.dev 0xA048).toNat % 8192)) = true ∧ diagLine 8184 = diagLine 8188 := by
  decide +kernel

end Sys2Proof.Tests
end

section
/-!
What an instance reads as where its maps hold nothing, and when a port is not ready: the facts that fix the state after
reset.
-/
namespace Sys2Proof.Machine

@[simp] theorem mget_nil {α : Type} (k : Nat) : mget ([] : SMap α) k = none := rfl

/-- A map that holds nothing reads as its default at every key. -/
@[simp] theorem mgetD_nil {α : Type} (a : α) (k : Nat) : mgetD a [] k = a := by simp [mgetD]

/-- With no line defined, the memory reads as undefined everywhere. -/
@[simp] theorem memGet_nil (k : Nat) : memGet [] k = none := by simp [memGet]

/-- With no register stored, every register holds its reset value (R537). -/
theorem rget_eq_regReset_of_regs_nil {d : Dev} (h : d.regs = []) (off : Nat) : rget d off = regReset off := by
  simp [rget, h]

/-- With no port stored, every port is in its reset state. -/
theorem getPort_eq_reset_of_ports_nil {d : Dev} (h : d.ports = []) (n : Nat) : getPort d n = Reset.port := by
  simp [getPort, h]

/-- While dl_ready is 0 no port takes a request. -/
theorem reqReady_eq_false_of_not_ready {d : Dev} (h : d.pins.ready = false) (n : Nat) : reqReady d n = false := by
  simp [reqReady, h]

end Sys2Proof.Machine

section
open Sys2Proof.Machine

/-- Settles O5. The maps of the reset state hold nothing, so what is read of them is the default of each (registers, ports,
lines), and dl_ready is 0, so no port is ready (R478, R537). -/
theorem resetState : Obligations.ResetState := by
  have hRegs : State.reset.dev.regs = [] := rfl
  have hPorts : State.reset.dev.ports = [] := rfl
  have hReady : State.reset.dev.pins.ready = false := rfl
  exact ⟨rfl, rfl, memGet_nil, rget_eq_regReset_of_regs_nil hRegs, rfl, getPort_eq_reset_of_ports_nil hPorts,
    reqReady_eq_false_of_not_ready hReady, hReady, rfl, rfl⟩

end
end

section
/-!
Bits hi to lo of a register word, and words whose fields are replaced one after the other (R15, R27): a field reads as what
was put there, and every field apart from it as before.
-/
namespace Sys2Proof.Machine

theorem testBit_bits (w : Word) (hi lo i : Nat) :
    (bits w hi lo).testBit i = (decide (i < hi + 1 - lo) && w.getLsbD (lo + i)) := by
  rw [bits, Nat.testBit_mod_two_pow, Nat.testBit_shiftRight]; rfl

theorem bits_lt (w : Word) (hi lo : Nat) : bits w hi lo < 2 ^ (hi + 1 - lo) := Nat.mod_lt _ (Nat.two_pow_pos _)

@[simp] theorem bits_zero (hi lo : Nat) : bits 0 hi lo = 0 := by simp [bits]

theorem bits_or (w v : Word) (hi lo : Nat) : bits (w ||| v) hi lo = bits w hi lo ||| bits v hi lo := by
  apply Nat.eq_of_testBit_eq
  intro i
  simp [testBit_bits, Bool.and_or_distrib_left]

/-- Two words that agree on bits hi to lo show the same field there. -/
theorem bits_congr {w v : Word} {hi lo : Nat} (h : ∀ i, lo ≤ i → i ≤ hi → w.getLsbD i = v.getLsbD i) :
    bits w hi lo = bits v hi lo := by
  apply Nat.eq_of_testBit_eq
  intro i
  by_cases hi' : i < hi + 1 - lo
  · simp [testBit_bits, h (lo + i) (by omega) (by omega)]
  · simp [testBit_bits, hi']

theorem bits_eq_zero {w : Word} {hi lo : Nat} (h : ∀ i, lo ≤ i → i ≤ hi → w.getLsbD i = false) : bits w hi lo = 0 :=
  (bits_congr fun i hl hh => (h i hl hh).trans BitVec.getLsbD_zero.symm).trans (bits_zero hi lo)

/-- A field of one bit. -/
theorem bits_one (w : Word) (i : Nat) : bits w i i = bit (w.getLsbD i) := by
  have h : i + 1 - i = 1 := by omega
  rw [bits, h, pow_one, Nat.shiftRight_eq_div_pow, ← Nat.toNat_testBit, BitVec.testBit_toNat]
  cases w.getLsbD i <;> rfl

theorem getLsbD_setBits (w : Word) {hi : Nat} (hhi : hi < 32) (lo v i : Nat) :
    (setBits w hi lo v).getLsbD i = if lo ≤ i ∧ i ≤ hi then v.testBit (i - lo) else w.getLsbD i := by
  by_cases h32 : i < 32
  · have hmask : (decide (lo ≤ i) && decide (i - lo < hi + 1 - lo)) = decide (lo ≤ i ∧ i ≤ hi) := by
      rw [← Bool.decide_and]
      exact decide_eq_decide.mpr (by omega)
    simp only [setBits, BitVec.getLsbD_or, BitVec.getLsbD_and, BitVec.getLsbD_not, BitVec.getLsbD_ofNat, Nat.testBit_shiftLeft,
      Nat.testBit_two_pow_sub_one, h32, hmask, ge_iff_le, decide_true, Bool.true_and]
    by_cases h : lo ≤ i ∧ i ≤ hi
    · simp [h]
    · simp [h]
  · rw [BitVec.getLsbD_of_ge _ _ (by omega), BitVec.getLsbD_of_ge _ _ (by omega), if_neg (by omega)]

theorem bits_setBits (w : Word) {hi lo : Nat} (hhi : hi < 32) (v : Nat) :
    bits (setBits w hi lo v) hi lo = v % 2 ^ (hi + 1 - lo) := by
  apply Nat.eq_of_testBit_eq
  intro i
  by_cases hi' : i < hi + 1 - lo
  · simp [testBit_bits, getLsbD_setBits w hhi, Nat.testBit_mod_two_pow, hi', show lo + i ≤ hi by omega]
  · simp [testBit_bits, Nat.testBit_mod_two_pow, hi']

theorem bits_setBits_apart (w : Word) {hi lo hi' lo' : Nat} (hhi : hi < 32) (v : Nat) (h : hi < lo' ∨ hi' < lo) :
    bits (setBits w hi lo v) hi' lo' = bits w hi' lo' :=
  bits_congr fun i _ _ => by rw [getLsbD_setBits w hhi, if_neg (by omega)]

/-- All 32 bits replaced. -/
theorem setBits_whole (w v : Word) : setBits w 31 0 v.toNat = v := by
  apply BitVec.eq_of_getLsbD_eq
  intro i hi
  rw [getLsbD_setBits w (by omega), if_pos ⟨Nat.zero_le i, by omega⟩, Nat.sub_zero, BitVec.testBit_toNat]

theorem bits_whole (w : Word) : bits w 31 0 = w.toNat := by
  simp [bits, Nat.mod_eq_of_lt w.isLt]

/-! ## Fields of a register -/

/-- The field lies in the register. -/
def Field.Fits (x : Field) : Prop := x.lo ≤ x.hi ∧ x.hi < 32

/-- The fields share no bit. -/
def Field.Apart (x y : Field) : Prop := x.hi < y.lo ∨ y.hi < x.lo

theorem Field.Apart.symm {x y : Field} (h : x.Apart y) : y.Apart x := Or.symm h

/-- The word whose fields `fs` take, in turn, the value that `g` makes of what they hold. -/
def mapFields (g : Field → Nat → Nat) (fs : List Field) (w : Word) : Word :=
  fs.foldl (fun w x => setBits w x.hi x.lo (g x (bits w x.hi x.lo))) w

section MapFields
variable (g : Field → Nat → Nat) {fs : List Field} (hfit : ∀ x ∈ fs, x.Fits)
include hfit

theorem bits_mapFields_apart {y : Field} (hy : ∀ x ∈ fs, x.Apart y) (w : Word) :
    bits (mapFields g fs w) y.hi y.lo = bits w y.hi y.lo := by
  induction fs generalizing w with
  | nil => rfl
  | cons x xs ih =>
    rw [List.forall_mem_cons] at hfit hy
    calc bits (mapFields g (x :: xs) w) y.hi y.lo
        = bits (setBits w x.hi x.lo (g x (bits w x.hi x.lo))) y.hi y.lo := ih hfit.2 hy.2 _
      _ = bits w y.hi y.lo := bits_setBits_apart w hfit.1.2 _ hy.1

theorem bits_mapFields_mem (hap : fs.Pairwise Field.Apart) {y : Field} (hy : y ∈ fs) (w : Word) :
    bits (mapFields g fs w) y.hi y.lo = g y (bits w y.hi y.lo) % 2 ^ (y.hi + 1 - y.lo) := by
  induction fs generalizing w with
  | nil => simp at hy
  | cons x xs ih =>
    rw [List.forall_mem_cons] at hfit
    rw [List.pairwise_cons] at hap
    obtain rfl | hy := List.mem_cons.mp hy
    · calc bits (mapFields g (y :: xs) w) y.hi y.lo
          = bits (setBits w y.hi y.lo (g y (bits w y.hi y.lo))) y.hi y.lo :=
            bits_mapFields_apart g hfit.2 (fun x hx => (hap.1 x hx).symm) _
        _ = _ := bits_setBits w hfit.1.2 _
    · calc bits (mapFields g (x :: xs) w) y.hi y.lo
          = g y (bits (setBits w x.hi x.lo (g x (bits w x.hi x.lo))) y.hi y.lo) % 2 ^ (y.hi + 1 - y.lo) := ih hfit.2 hap.2 hy _
        _ = _ := by rw [bits_setBits_apart w hfit.1.2 _ (hap.1 y hy)]

end MapFields

/-- The device whose register at `off` has its fields `fs` mapped by `g`. -/
def mapRegFields (g : Field → Nat → Nat) (off : Nat) (fs : List Field) (d : Dev) : Dev :=
  fs.foldl (fun d x => rsetBits d off x.hi x.lo (g x (rbits d off x.hi x.lo))) d

section MapRegFields
variable (g : Field → Nat → Nat) (off : Nat) (fs : List Field) (d : Dev)

/-- Mapping fields changes registers alone. -/
theorem mapRegFields_eq : ∃ r, mapRegFields g off fs d = { d with regs := r } := by
  induction fs generalizing d with
  | nil => exact ⟨d.regs, rfl⟩
  | cons x xs ih =>
    obtain ⟨r, hr⟩ := ih (rsetBits d off x.hi x.lo (g x (rbits d off x.hi x.lo)))
    exact ⟨r, hr⟩

@[simp] theorem mapRegFields_ycp : (mapRegFields g off fs d).ycp = d.ycp := by
  obtain ⟨r, h⟩ := mapRegFields_eq g off fs d; rw [h]
@[simp] theorem mapRegFields_tiles : (mapRegFields g off fs d).tiles = d.tiles := by
  obtain ⟨r, h⟩ := mapRegFields_eq g off fs d; rw [h]

theorem rget_mapRegFields : rget (mapRegFields g off fs d) off = mapFields g fs (rget d off) := by
  induction fs generalizing d with
  | nil => rfl
  | cons x xs ih =>
    have h := ih (rsetBits d off x.hi x.lo (g x (rbits d off x.hi x.lo)))
    unfold rsetBits at h
    rw [rget_rset] at h
    exact h

theorem rget_mapRegFields_ne {k : Nat} (hk : k ≠ off) : rget (mapRegFields g off fs d) k = rget d k := by
  induction fs generalizing d with
  | nil => rfl
  | cons x xs ih => exact (ih _).trans (rget_rset_ne d off k _ hk)

end MapRegFields

/-! ## The fields of the register map -/

theorem findIn_mem {l : List RegDesc} {off i j : Nat} {r : RegDesc} (h : RegMap.findIn l off = some (r, i, j)) : r ∈ l := by
  induction l with
  | nil => simp [RegMap.findIn] at h
  | cons x xs ih =>
    rw [RegMap.findIn] at h
    split at h
    · cases h; exact List.mem_cons_self
    · exact List.mem_cons_of_mem _ (ih h)

/-- The fields of each register lie in 32 bits and share none (R27). -/
theorem regMap_fields_apart : ∀ r ∈ RegMap.all, (∀ x ∈ r.fields, x.lo ≤ x.hi ∧ x.hi < 32) ∧
    r.fields.Pairwise fun x y => x.hi < y.lo ∨ y.hi < x.lo := by decide +kernel

theorem fieldsAt_nil_or_mem (off : Nat) : fieldsAt off = [] ∨ ∃ r ∈ RegMap.all, fieldsAt off = r.fields := by
  unfold fieldsAt
  split
  · rename_i r i j h
    exact .inr ⟨r, findIn_mem h, rfl⟩
  · exact .inl rfl

theorem fieldsAt_fits (off : Nat) : ∀ x ∈ fieldsAt off, x.Fits := by
  obtain h | ⟨r, hr, h⟩ := fieldsAt_nil_or_mem off
  · simp [h]
  · rw [h]; exact (regMap_fields_apart r hr).1

theorem fieldsAt_apart (off : Nat) : (fieldsAt off).Pairwise Field.Apart := by
  obtain h | ⟨r, hr, h⟩ := fieldsAt_nil_or_mem off
  · simp [h]
  · rw [h]; exact (regMap_fields_apart r hr).2

/-- The fields of a register with an access code. -/
def fieldsOf (a : Access) (off : Nat) : List Field := (fieldsAt off).filter fun x => x.acc = a

theorem mem_fieldsOf {a : Access} {off : Nat} {x : Field} : x ∈ fieldsOf a off ↔ x ∈ fieldsAt off ∧ x.acc = a := by
  simp [fieldsOf]

theorem fieldsOf_fits (a : Access) (off : Nat) : ∀ x ∈ fieldsOf a off, x.Fits :=
  fun x hx => fieldsAt_fits off x (mem_fieldsOf.mp hx).1

theorem fieldsOf_apart (a : Access) (off : Nat) : (fieldsOf a off).Pairwise Field.Apart := (fieldsAt_apart off).filter _

/-- A field with another code shares no bit with those of code `a`. -/
theorem apart_of_acc_ne {a : Access} {off : Nat} {y : Field} (hy : y ∈ fieldsAt off) (ha : y.acc ≠ a) :
    ∀ x ∈ fieldsOf a off, x.Apart y := by
  intro x hx
  obtain ⟨hx, hxa⟩ := mem_fieldsOf.mp hx
  have : Std.Symm Field.Apart := ⟨fun _ _ h => h.symm⟩
  exact (fieldsAt_apart off).forall hx hy fun h => ha (h ▸ hxa)

section Register
variable (g : Field → Nat → Nat) {a : Access} {off : Nat} {y : Field} (hy : y ∈ fieldsAt off) (w : Word)
include hy

/-- A mapped field of a register reads as the value that `g` makes, cut to its width. -/
theorem bits_mapFields_fieldsOf (ha : y.acc = a) :
    bits (mapFields g (fieldsOf a off) w) y.hi y.lo = g y (bits w y.hi y.lo) % 2 ^ (y.hi + 1 - y.lo) :=
  bits_mapFields_mem g (fieldsOf_fits a off) (fieldsOf_apart a off) (mem_fieldsOf.mpr ⟨hy, ha⟩) w

/-- The fields of the other codes stay. -/
theorem bits_mapFields_fieldsOf_other (ha : y.acc ≠ a) : bits (mapFields g (fieldsOf a off) w) y.hi y.lo = bits w y.hi y.lo :=
  bits_mapFields_apart g (fieldsOf_fits a off) (apart_of_acc_ne hy ha) w

end Register

end Sys2Proof.Machine
end

section
/-!
Reads of a register: what a host read and a manager read leave, the RC fields they clear (R33), and what the hardware adds in
the same MCLK (R30).
-/
namespace Sys2Proof.Machine

section Answer
variable (d : Dev) (c : BitVec 2) (v : Word)

@[simp] theorem answer_rsp : (answer d c v).ycp.rsp = some (c, v) := rfl
@[simp] theorem answer_tiles : (answer d c v).tiles = d.tiles := rfl
@[simp] theorem answer_retire : (answer d c v).retire = d.retire := rfl
@[simp] theorem rget_answer (k : Nat) : rget (answer d c v) k = rget d k := rfl
@[simp] theorem rbits_answer (k hi lo : Nat) : rbits (answer d c v) k hi lo = rbits d k hi lo := rfl

/-- The device after a read of the manager: its value has been returned. -/
def returned (d : Dev) (v : Word) : Dev := { d with ycp := { d.ycp with mgr := some v } }

@[simp] theorem returned_mgr : (returned d v).ycp.mgr = some v := rfl
@[simp] theorem returned_rsp : (returned d v).ycp.rsp = d.ycp.rsp := rfl

end Answer

/-! ## The clears of a host read (R33) -/

section ClearRc
variable (d : Dev) (off : Nat)

/-- A clear changes registers alone. -/
theorem clearRc_eq : ∃ r, clearRc d off = { d with regs := r } := by
  unfold clearRc
  dsimp only
  split
  · exact ⟨d.regs, rfl⟩
  · exact ⟨_, rfl⟩

@[simp] theorem clearRc_tiles : (clearRc d off).tiles = d.tiles := by obtain ⟨r, h⟩ := clearRc_eq d off; rw [h]
@[simp] theorem clearRc_retire : (clearRc d off).retire = d.retire := by obtain ⟨r, h⟩ := clearRc_eq d off; rw [h]

theorem rget_clearRc : rget (clearRc d off) off = mapFields (fun _ _ => 0) (fieldsOf .rc off) (rget d off) := by
  unfold clearRc
  dsimp only
  split
  · rename_i h
    rw [show fieldsOf .rc off = [] from List.isEmpty_iff.mp h]
    rfl
  · exact rget_rset d off _

theorem rget_clearRc_ne {k : Nat} (hk : k ≠ off) : rget (clearRc d off) k = rget d k := by
  unfold clearRc
  dsimp only
  split
  · rfl
  · exact rget_rset_ne d off k _ hk

variable {off} {x : Field} (hx : x ∈ fieldsAt off)
include hx

theorem rbits_clearRc_rc (ha : x.acc = .rc) : rbits (clearRc d off) off x.hi x.lo = 0 := by
  rw [rbits, rget_clearRc, bits_mapFields_fieldsOf _ hx _ ha, Nat.zero_mod]

theorem rbits_clearRc_other (ha : x.acc ≠ .rc) : rbits (clearRc d off) off x.hi x.lo = rbits d off x.hi x.lo := by
  rw [rbits, rget_clearRc, bits_mapFields_fieldsOf_other _ hx _ ha, rbits]

end ClearRc

/-! ## One read of a register that is in no pair -/

section Single
variable {f : Fuses} {d : Dev} {off : Nat} (hpin : d.pins.rstPin = false) (hserved : served d off = true)
  (hlow : isPairLow off = false) (hhigh : isPairHigh off = false) (hlint : lintRead d off = d)
include hpin hserved hlow hhigh hlint

/-- The host driver's read answers the value and clears the RC fields (R33). -/
theorem readBy_host (hoff : off ≠ 0xB030) : readBy f d .host off = answer (clearRc d off) 0 (regRead f d off) := by
  simp [readBy, readAccess, readEffect, hpin, hserved, hlow, hhigh, hlint, hoff]

/-- The manager's read returns the value and leaves the device as it is (R33). -/
theorem readBy_manager : readBy f d .manager off = returned d (regRead f d off) := by
  simp [readBy, readAccess, returned, hpin, hserved, hlow, hhigh, hlint]

end Single

/-! ## What the hardware adds in the same MCLK (R30) -/

/-- A field that counts takes what `met` brings it, and holds at all-ones. -/
def addTo (met : Word) (x : Field) (n : Nat) : Nat := min (n + bits met x.hi x.lo) (2 ^ (x.hi + 1 - x.lo) - 1)

theorem addTo_mod (met : Word) (x : Field) (n : Nat) : addTo met x n % 2 ^ (x.hi + 1 - x.lo) = addTo met x n := by
  have := Nat.two_pow_pos (x.hi + 1 - x.lo)
  exact Nat.mod_eq_of_lt (by unfold addTo; omega)

theorem addTo_no_met (w : Word) (x : Field) : addTo 0 x (bits w x.hi x.lo) = bits w x.hi x.lo := by
  have := bits_lt w x.hi x.lo
  rw [addTo, bits_zero]
  omega

theorem addTo_cleared (met : Word) (x : Field) : addTo met x 0 = bits met x.hi x.lo := by
  have := bits_lt met x.hi x.lo
  rw [addTo]
  omega

/-- The register at `off` takes `add` in its RC fields, and nothing else of it, of the other registers, of the responses and of the
tiles changes. -/
structure Takes (off : Nat) (add : Word) (e t : Dev) : Prop where
  rc    : ∀ x ∈ fieldsAt off, x.acc = .rc → rbits t off x.hi x.lo = addTo add x (rbits e off x.hi x.lo)
  other : ∀ x ∈ fieldsAt off, x.acc ≠ .rc → rbits t off x.hi x.lo = rbits e off x.hi x.lo
  rest  : ∀ k, k ≠ off → rget t k = rget e k
  ycp   : t.ycp = e.ycp
  tiles : t.tiles = e.tiles

theorem takes_nothing (off : Nat) (e : Dev) : Takes off 0 e e where
  rc _ _ _ := (addTo_no_met _ _).symm
  other _ _ _ := rfl
  rest _ _ := rfl
  ycp := rfl
  tiles := rfl

theorem takes_mapRegFields (off : Nat) (met : Word) (e : Dev) :
    Takes off met e (mapRegFields (addTo met) off (fieldsOf .rc off) e) where
  rc x hx ha := by rw [rbits, rget_mapRegFields, bits_mapFields_fieldsOf _ hx _ ha, addTo_mod, rbits]
  other x hx ha := by rw [rbits, rget_mapRegFields, bits_mapFields_fieldsOf_other _ hx _ ha, rbits]
  rest k hk := rget_mapRegFields_ne _ _ _ _ hk
  ycp := mapRegFields_ycp _ _ _ _
  tiles := mapRegFields_tiles _ _ _ _

theorem isCapture_retire : isCapture 0xB030 = true := by decide +kernel

/-- A register that captures nothing takes in its RC fields what the MCLK of the read adds; in reset that is nothing. -/
theorem countRead_takes {f : Fuses} {d : Dev} {a : Agent} {r : CountRead} (hlow : isPairLow r.off.toNat = false)
    (hcap : isCapture r.off.toNat = false) :
    Takes r.off.toNat (if d.pins.rstAsserted then 0 else r.met) (readBy f d a r.off.toNat) (countRead f d a r) := by
  have hoff : r.off.toNat ≠ 0xB030 := fun h => by rw [h, isCapture_retire] at hcap; cases hcap
  unfold countRead
  split
  · exact takes_nothing _ _
  · have h : meetCount r.off.toNat r.met (readBy f d a r.off.toNat) =
        mapRegFields (addTo r.met) r.off.toNat (fieldsOf .rc r.off.toNat) (readBy f d a r.off.toNat) := by
      simp only [meetCount, hlow, hcap, hoff, Bool.false_and, Bool.false_eq_true, if_false]
      rfl
    rw [h]
    exact takes_mapRegFields _ _ _

/-! ## Captures -/

/-- No register of a pair captures a record. -/
theorem pairs_not_capture : ∀ lo ∈ pairLows, isCapture lo = false ∧ isCapture (lo + 4) = false := by decide +kernel

theorem lint_words_not_capture : ∀ i < 0x20, isCapture (0xA060 + i) = false := by decide +kernel

section Capture
variable {off : Nat} (hcap : isCapture off = true)
include hcap

theorem isPairLow_of_isCapture : isPairLow off = false := by
  by_contra h
  have := (pairs_not_capture off (by simpa [isPairLow] using h)).1
  simp [hcap] at this

theorem isPairHigh_of_isCapture : isPairHigh off = false := by
  by_contra h
  obtain ⟨h4, hm⟩ : 4 ≤ off ∧ off - 4 ∈ pairLows := by simpa [isPairHigh] using h
  have := (pairs_not_capture _ hm).2
  rw [Nat.sub_add_cancel h4, hcap] at this
  cases this

theorem lintRead_of_isCapture (d : Dev) : lintRead d off = d := by
  unfold lintRead
  split
  · rename_i h
    have := lint_words_not_capture (off - 0xA060) (by omega)
    rw [Nat.add_sub_cancel' h.1, hcap] at this
    cases this
  · rfl

/-- VALID of a capture is an RC field, bit 31. -/
theorem valid_field : ∃ x ∈ fieldsAt off, x.acc = .rc ∧ x.hi = 31 ∧ x.lo = 31 := by
  simpa [isCapture, and_assoc] using hcap

end Capture

/-- A capture after a read that has left `e`, with VALID `held`: in its MCLK a record has come (`new`) or not. -/
structure Captures (off : Nat) (met : Word) (held new : Bool) (e t : Dev) : Prop where
  valid : rbits t off 31 31 = bit (held || new)
  ro    : ∀ x ∈ fieldsAt off, x.acc = .ro →
    rbits t off x.hi x.lo = if new && !held then bits met x.hi x.lo else rbits e off x.hi x.lo
  rest  : ∀ k, k ≠ off → rget t k = rget e k
  ycp   : t.ycp = e.ycp
  tiles : t.tiles = e.tiles

/-- VALID counts too: it is 1 after the MCLK where it was 1 or is added to. -/
theorem Takes.valid {off : Nat} {add : Word} {e t : Dev} (h : Takes off add e t) (hcap : isCapture off = true) :
    rbits t off 31 31 = bit ((rget e off).getLsbD 31 || add.getLsbD 31) := by
  obtain ⟨x, hx, ha, hhi, hlo⟩ := valid_field hcap
  have hv := h.rc x hx ha
  rw [addTo, hhi, hlo] at hv
  rw [hv, rbits, bits_one, bits_one]
  cases (rget e off).getLsbD 31 <;> cases add.getLsbD 31 <;> rfl

/-- Where no record is captured, the count of VALID is all that may change. -/
theorem captures_of_takes {off : Nat} {add met : Word} {held new : Bool} {e t : Dev} (hcap : isCapture off = true)
    (h : Takes off add e t) (hheld : (rget e off).getLsbD 31 = held) (hadd : add.getLsbD 31 = new) (hnew : (new && !held) = false) :
    Captures off met held new e t where
  valid := by rw [h.valid hcap, hheld, hadd]
  ro x hx ha := by rw [h.other x hx (by rw [ha]; decide), hnew]; rfl
  rest := h.rest
  ycp := h.ycp
  tiles := h.tiles

/-- The record's fields over the counted VALID. -/
theorem captures_of_record {off : Nat} {met : Word} {e c : Dev} (hcap : isCapture off = true) (h : Takes off met e c)
    (hfree : (rget e off).getLsbD 31 = false) (hnew : met.getLsbD 31 = true) :
    Captures off met false true e (mapRegFields (fun x _ => bits met x.hi x.lo) off (fieldsOf .ro off) c) where
  valid := by
    obtain ⟨x, hx, ha, hhi, hlo⟩ := valid_field hcap
    have hkeep := bits_mapFields_fieldsOf_other (a := .ro) (fun x _ => bits met x.hi x.lo) hx (rget c off) (by rw [ha]; decide)
    rw [hhi, hlo] at hkeep
    rw [rbits, rget_mapRegFields, hkeep, ← rbits, h.valid hcap, hfree, hnew]
  ro x hx ha := by
    rw [rbits, rget_mapRegFields, bits_mapFields_fieldsOf _ hx _ ha, Nat.mod_eq_of_lt (bits_lt _ _ _)]
    rfl
  rest k hk := (rget_mapRegFields_ne _ _ _ _ hk).trans (h.rest k hk)
  ycp := (mapRegFields_ycp _ _ _ _).trans h.ycp
  tiles := (mapRegFields_tiles _ _ _ _).trans h.tiles

/-- A capture with VALID 0 after the read takes the record of that MCLK; one that still holds its record keeps it (R30). -/
theorem countRead_captures {f : Fuses} {d e : Dev} {a : Agent} {r : CountRead} {held : Bool} (hcap : isCapture r.off.toNat = true)
    (hretire : r.off.toNat ≠ 0xB030) (hdeny : r.off.toNat ≠ 0x4050) (he : readBy f d a r.off.toNat = e)
    (hheld : (rget e r.off.toNat).getLsbD 31 = held) :
    Captures r.off.toNat r.met held (!d.pins.rstAsserted && r.met.getLsbD 31) e (countRead f d a r) := by
  have hlow := isPairLow_of_isCapture hcap
  have hcount := takes_mapRegFields r.off.toNat r.met e
  unfold countRead
  rw [he]
  by_cases hrst : d.pins.rstAsserted = true
  · rw [if_pos hrst, hrst]
    exact captures_of_takes hcap (takes_nothing _ _) hheld rfl rfl
  rw [if_neg hrst, Bool.eq_false_iff.mpr hrst, Bool.not_false, Bool.true_and]
  by_cases hnew : r.met.getLsbD 31 = true ∧ held = false
  · obtain ⟨hnew, rfl⟩ := hnew
    have h : meetCount r.off.toNat r.met e = mapRegFields (fun x _ => bits r.met x.hi x.lo) r.off.toNat (fieldsOf .ro r.off.toNat)
        (mapRegFields (addTo r.met) r.off.toNat (fieldsOf .rc r.off.toNat) e) := by
      simp only [meetCount, takeRecord, hlow, hcap, hretire, hdeny, hheld, hnew, Bool.false_and, Bool.false_eq_true, if_false,
        Bool.true_and, Bool.not_false, if_true]
      rfl
    rw [h, hnew]
    exact captures_of_record hcap hcount hheld hnew
  · have hno : (r.met.getLsbD 31 && !held) = false := by simpa using hnew
    have h : meetCount r.off.toNat r.met e = mapRegFields (addTo r.met) r.off.toNat (fieldsOf .rc r.off.toNat) e := by
      simp only [meetCount, hlow, hcap, hretire, hheld, hno, Bool.false_and, Bool.false_eq_true, if_false, Bool.true_and]
      rfl
    rw [h]
    exact captures_of_takes hcap hcount hheld rfl hno

/-! ## The 64-bit counts and the retirement list -/

/-- Both halves of DLQ_TC_BYTESn are RC as a whole. -/
theorem fieldsAt_tcBytes : ∀ n : Fin 4, fieldsAt (0x2140 + 8 * n.val) = [⟨31, 0, .rc, 0, .none⟩] ∧
    fieldsAt (0x2144 + 8 * n.val) = [⟨31, 0, .rc, 0, .none⟩] ∧ isPairLow (0x2140 + 8 * n.val) = true := by decide +kernel

/-- A register that is one RC field reads 0 after the clear. -/
theorem rget_clearRc_whole {d : Dev} {off r : Nat} {o : Own} (h : fieldsAt off = [⟨31, 0, .rc, r, o⟩]) :
    rget (clearRc d off) off = 0 := by
  rw [rget_clearRc, fieldsOf, h]
  exact setBits_whole _ 0

/-- A host read of DLQ_TC_BYTESn_LO answers it, captures the upper half and clears both (R33, R36). -/
theorem readBy_host_pairLow {f : Fuses} {d : Dev} {off : Nat} (hpin : d.pins.rstPin = false) (hserved : served d off = true)
    (hlow : isPairLow off = true) (hlint : lintRead d off = d) (hoff : off ≠ 0xB030) :
    readBy f d .host off = answer (clearRc (clearRc (setCap d .host (some (off, regRead f d (off + 4)))) off) (off + 4)) 0
      (regRead f d off) := by
  simp [readBy, readAccess, readEffect, hpin, hserved, hlow, hlint, hoff]

/-- A count of 64 bits is stored as two registers, and changes nothing else. -/
theorem add64_eq (d : Dev) (lo n : Nat) : ∃ v w, add64 d lo n = rset (rset d lo v) (lo + 4) w := ⟨_, _, rfl⟩

/-- A count of 64 bits that stands at 0 takes a 32-bit number in its lower half. -/
theorem rget_add64_of_zero {d : Dev} {lo : Nat} (hlo : rget d lo = 0) (hhi : rget d (lo + 4) = 0) (n : Word) :
    rget (add64 d lo n.toNat) lo = n ∧ rget (add64 d lo n.toNat) (lo + 4) = 0 := by
  have hn := n.isLt
  have hv : min ((rget d lo).toNat + (rget d (lo + 4)).toNat * 2 ^ 32 + n.toNat) (2 ^ 64 - 1) = n.toNat := by
    simp only [hlo, hhi, show (0 : Word).toNat = 0 from rfl]
    omega
  constructor
  · rw [add64, hv, rget_rset_ne _ _ _ _ (by omega), rget_rset, Nat.mod_eq_of_lt hn, BitVec.ofNat_toNat, BitVec.setWidth_eq]
  · rw [add64, hv, rget_rset, Nat.div_eq_of_lt hn]
    rfl

/-- Only the words of the Lint window check a line when they are read. -/
theorem lintRead_of_lt {d : Dev} {off : Nat} (h : off < 0xA060) : lintRead d off = d := if_neg (by omega)

/-- Only the reads of a pair's lower half add to 64 bits. -/
theorem meetCount_pairLow {off : Nat} (hlow : isPairLow off = true) (hrc : (fieldsAt off).any isRc = true) (hoff : off ≠ 0xB030)
    (met : Word) (d : Dev) : meetCount off met d = add64 d off met.toNat := by
  have hcap := (pairs_not_capture off (by simpa [isPairLow] using hlow)).1
  simp only [meetCount, hlow, hrc, hcap, hoff, Bool.and_self, if_true, if_false, Bool.false_and, Bool.false_eq_true]

theorem find_retire : RegMap.find 0xB030 = some (⟨0xB030, 1, 0x1000000, 1, 4, [⟨31, 31, .rc, 0, .none⟩, ⟨30, 29, .ro, 0, .none⟩,
    ⟨28, 28, .ro, 0, .none⟩, ⟨24, 16, .ro, 0, .none⟩, ⟨15, 0, .ro, 0, .none⟩]⟩, 0, 0) := by decide +kernel

/-- DLD_RETIRE shows the oldest report with VALID (R390). -/
theorem regRead_retire {f : Fuses} {d : Dev} {w : Retire} {l : List Retire} (h : d.retire = w :: l) :
    regRead f d 0xB030 = BitVec.ofNat 32 (2 ^ 31 + w.toNat) := by
  simp [regRead, find_retire, unitView, serviceView, h]

/-- The host's read of DLD_RETIRE takes the oldest report off the list (R390). -/
theorem readBy_host_retire {f : Fuses} {d : Dev} (hpin : d.pins.rstPin = false) (hserved : served d 0xB030 = true) :
    readBy f d .host 0xB030 = answer (clearRc { d with retire := d.retire.tail } 0xB030) 0 (regRead f d 0xB030) := by
  have hlow := isPairLow_of_isCapture isCapture_retire
  have hhigh := isPairHigh_of_isCapture isCapture_retire
  simp [readBy, readAccess, readEffect, hpin, hserved, hlow, hhigh, lintRead_of_isCapture isCapture_retire]

/-- The report of the read's MCLK joins the list where it has room (R30, R390). -/
theorem meetCount_retire {met : Word} {d : Dev} (hmet : met.getLsbD 31 = true) (hroom : d.retire.length < 64) :
    meetCount 0xB030 met d = { d with retire := d.retire ++ [met &&& 0x7FFFFFFF] } := by
  simp only [meetCount, hmet, if_true, pushRetire, Nat.not_le.mpr hroom, if_false]

end Sys2Proof.Machine
end

section
/-!
The RC fields clear with the host driver's read alone, and what the MCLK of a read adds stays in the register.
-/
namespace Sys2Proof.Machine
open Sys2Proof.Claims

/-- RC_READ ends in what the read and the additions of its MCLK leave. -/
theorem ends_rcRead {a : Agent} {r : CountRead} {s : State} {P : Dev → Prop} (hP : P (countRead s.fuses s.dev a r)) :
    EndsDev (.rcRead a r) s P := ⟨countRead s.fuses s.dev a r, rfl, hP⟩

section Read
variable {off : BitVec 24} {met : Word} {s : State} (hs : hostServed s.dev off.toNat)
include hs

section Counter
variable (hlow : isPairLow off.toNat = false) (hhigh : isPairHigh off.toNat = false) (hcap : isCapture off.toNat = false)
  (hlint : lintRead s.dev off.toNat = s.dev)
include hlow hhigh hcap hlint

/-- The host's read answers the value and leaves in the RC fields what the MCLK adds (R30, R33). -/
theorem host_rcRead_clears : EndsDev (.rcRead .host ⟨off, met⟩) s fun d =>
    d.ycp.rsp = some (0, regRead s.fuses s.dev off.toNat) ∧
    (∀ x ∈ fieldsAt off.toNat, x.acc = .rc →
      rbits d off.toNat x.hi x.lo = bits (if s.dev.pins.rstAsserted then 0 else met) x.hi x.lo) ∧
    (∀ x ∈ fieldsAt off.toNat, x.acc ≠ .rc → rbits d off.toNat x.hi x.lo = rbits s.dev off.toNat x.hi x.lo) ∧
    (∀ k, k ≠ off.toNat → rget d k = rget s.dev k) ∧ d.tiles = s.dev.tiles := by
  obtain ⟨hpin, hserved⟩ := hs
  have hoff : off.toNat ≠ 0xB030 := fun h => by rw [h, isCapture_retire] at hcap; cases hcap
  have ht := countRead_takes (f := s.fuses) (d := s.dev) (a := .host) (r := ⟨off, met⟩) hlow hcap
  rw [readBy_host hpin hserved hlow hhigh hlint hoff] at ht
  refine ends_rcRead ⟨by rw [ht.ycp, answer_rsp], fun x hx ha => ?_, fun x hx ha => ?_, fun k hk => ?_, ?_⟩
  · rw [ht.rc x hx ha, rbits_answer, rbits_clearRc_rc s.dev hx ha, addTo_cleared]
  · rw [ht.other x hx ha, rbits_answer, rbits_clearRc_other s.dev hx ha]
  · rw [ht.rest k hk, rget_answer, rget_clearRc_ne _ _ hk]
  · rw [ht.tiles, answer_tiles, clearRc_tiles]

/-- The manager's read returns the value and clears nothing (R33). -/
theorem manager_rcRead_keeps : EndsDev (.rcRead .manager ⟨off, met⟩) s fun d =>
    d.ycp.mgr = some (regRead s.fuses s.dev off.toNat) ∧ d.ycp.rsp = s.dev.ycp.rsp ∧
    (∀ x ∈ fieldsAt off.toNat, x.acc = .rc → rbits d off.toNat x.hi x.lo =
      min (rbits s.dev off.toNat x.hi x.lo + bits (if s.dev.pins.rstAsserted then 0 else met) x.hi x.lo) (2 ^ (x.hi + 1 - x.lo) - 1)) ∧
    (∀ x ∈ fieldsAt off.toNat, x.acc ≠ .rc → rbits d off.toNat x.hi x.lo = rbits s.dev off.toNat x.hi x.lo) ∧
    (∀ k, k ≠ off.toNat → rget d k = rget s.dev k) ∧ d.tiles = s.dev.tiles := by
  obtain ⟨hpin, hserved⟩ := hs
  have ht := countRead_takes (f := s.fuses) (d := s.dev) (a := .manager) (r := ⟨off, met⟩) hlow hcap
  rw [readBy_manager hpin hserved hlow hhigh hlint] at ht
  exact ends_rcRead ⟨by rw [ht.ycp, returned_mgr], by rw [ht.ycp, returned_rsp], ht.rc, ht.other, ht.rest, ht.tiles⟩

end Counter

section Capture
variable (hcap : isCapture off.toNat = true) (hretire : off.toNat ≠ 0xB030) (hdeny : off.toNat ≠ 0x4050)
include hcap hretire hdeny

/-- The host's read of a capture releases it; a record of that MCLK is captured at once (R30, R33). -/
theorem host_rcRead_captures : EndsDev (.rcRead .host ⟨off, met⟩) s fun d =>
    d.ycp.rsp = some (0, regRead s.fuses s.dev off.toNat) ∧
    rbits d off.toNat 31 31 = bit (!s.dev.pins.rstAsserted && met.getLsbD 31) ∧
    (∀ x ∈ fieldsAt off.toNat, x.acc = .ro → rbits d off.toNat x.hi x.lo =
      if !s.dev.pins.rstAsserted && met.getLsbD 31 then bits met x.hi x.lo else rbits s.dev off.toNat x.hi x.lo) ∧
    (∀ k, k ≠ off.toNat → rget d k = rget s.dev k) ∧ d.tiles = s.dev.tiles := by
  obtain ⟨hpin, hserved⟩ := hs
  have hread := readBy_host (f := s.fuses) hpin hserved (isPairLow_of_isCapture hcap) (isPairHigh_of_isCapture hcap)
    (lintRead_of_isCapture hcap _) hretire
  have hreleased : (rget (answer (clearRc s.dev off.toNat) 0 (regRead s.fuses s.dev off.toNat)) off.toNat).getLsbD 31 = false := by
    obtain ⟨x, hx, ha, hhi, hlo⟩ := valid_field hcap
    have h := rbits_clearRc_rc s.dev hx ha
    rw [rbits, hhi, hlo, bits_one] at h
    rw [rget_answer]
    by_contra hb
    rw [Bool.not_eq_false] at hb
    rw [hb] at h
    cases h
  have ht := countRead_captures (r := ⟨off, met⟩) hcap hretire hdeny hread hreleased
  refine ends_rcRead ⟨by rw [ht.ycp, answer_rsp], ht.valid, fun x hx ha => ?_, fun k hk => ?_, ?_⟩
  · rw [ht.ro x hx ha, rbits_answer, rbits_clearRc_other s.dev hx (by rw [ha]; decide), Bool.not_false, Bool.and_true]
  · rw [ht.rest k hk, rget_answer, rget_clearRc_ne _ _ hk]
  · rw [ht.tiles, answer_tiles, clearRc_tiles]

/-- The manager's read of a capture releases nothing: a record of that MCLK is captured where VALID was 0 (R30, R33). -/
theorem manager_rcRead_captures : EndsDev (.rcRead .manager ⟨off, met⟩) s fun d =>
    d.ycp.mgr = some (regRead s.fuses s.dev off.toNat) ∧
    rbits d off.toNat 31 31 = bit ((rget s.dev off.toNat).getLsbD 31 || !s.dev.pins.rstAsserted && met.getLsbD 31) ∧
    (∀ x ∈ fieldsAt off.toNat, x.acc = .ro → rbits d off.toNat x.hi x.lo =
      if (!s.dev.pins.rstAsserted && met.getLsbD 31) && !(rget s.dev off.toNat).getLsbD 31 then bits met x.hi x.lo
      else rbits s.dev off.toNat x.hi x.lo) ∧
    (∀ k, k ≠ off.toNat → rget d k = rget s.dev k) ∧ d.tiles = s.dev.tiles := by
  obtain ⟨hpin, hserved⟩ := hs
  have hread := readBy_manager (f := s.fuses) hpin hserved (isPairLow_of_isCapture hcap) (isPairHigh_of_isCapture hcap)
    (lintRead_of_isCapture hcap _)
  have ht := countRead_captures (r := ⟨off, met⟩) hcap hretire hdeny hread rfl
  exact ends_rcRead ⟨by rw [ht.ycp, returned_mgr], ht.valid, ht.ro, ht.rest, ht.tiles⟩

end Capture
end Read

/-- The host's read of the lower half of an RC pair answers it and clears both halves (R33). -/
theorem readBy_host_clears_pair {f : Fuses} {d : Dev} {lo r r' : Nat} {o o' : Own} (hlow : isPairLow lo = true) (hlt : lo < 0xA060)
    (hlo : fieldsAt lo = [⟨31, 0, .rc, r, o⟩]) (hhi : fieldsAt (lo + 4) = [⟨31, 0, .rc, r', o'⟩])
    (hpin : d.pins.rstPin = false) (hserved : served d lo = true) :
    let e := readBy f d .host lo
    e.ycp.rsp = some (0, regRead f d lo) ∧ rget e lo = 0 ∧ rget e (lo + 4) = 0 ∧ e.tiles = d.tiles := by
  intro e
  have he : e = answer (clearRc (clearRc (setCap d .host (some (lo, regRead f d (lo + 4)))) lo) (lo + 4)) 0 (regRead f d lo) :=
    readBy_host_pairLow hpin hserved hlow (lintRead_of_lt hlt) (by omega)
  refine ⟨by rw [he, answer_rsp], ?_, ?_, ?_⟩
  · rw [he, rget_answer, rget_clearRc_ne _ _ (by omega), rget_clearRc_whole hlo]
  · rw [he, rget_answer, rget_clearRc_whole hhi]
  · rw [he, answer_tiles, clearRc_tiles, clearRc_tiles]
    rfl

/-- A cleared pair then holds what the MCLK adds (R30). -/
theorem meetCount_cleared_pair {d : Dev} {lo r : Nat} {o : Own} (hlow : isPairLow lo = true)
    (hlo : fieldsAt lo = [⟨31, 0, .rc, r, o⟩]) (hoff : lo ≠ 0xB030) (hlo0 : rget d lo = 0) (hhi0 : rget d (lo + 4) = 0)
    (met : Word) :
    let t := meetCount lo met d
    t.ycp = d.ycp ∧ rget t lo = met ∧ rget t (lo + 4) = 0 ∧ t.tiles = d.tiles := by
  intro t
  have ht : t = add64 d lo met.toNat := meetCount_pairLow hlow (by rw [hlo]; rfl) hoff met d
  obtain ⟨hl, hh⟩ := rget_add64_of_zero hlo0 hhi0 met
  obtain ⟨v, w, hset⟩ := add64_eq d lo met.toNat
  exact ⟨by rw [ht, hset, rset_ycp, rset_ycp], ht ▸ hl, ht ▸ hh, by rw [ht, hset, rset_tiles, rset_tiles]⟩

/-- The host's read of DLQ_TC_BYTESn_LO clears the pair, and leaves in it what the MCLK adds (R30, R33). -/
theorem host_rcRead_tcBytes (n : Fin 4) (met : Word) {s : State} (hs : hostServed s.dev (0x2140 + 8 * n.val)) :
    EndsDev (.rcRead .host ⟨BitVec.ofNat 24 (0x2140 + 8 * n.val), met⟩) s fun d =>
      d.ycp.rsp = some (0, regRead s.fuses s.dev (0x2140 + 8 * n.val)) ∧
      rget d (0x2140 + 8 * n.val) = (if s.dev.pins.rstAsserted then 0 else met) ∧ rget d (0x2144 + 8 * n.val) = 0 ∧
      d.tiles = s.dev.tiles := by
  obtain ⟨hpin, hserved⟩ := hs
  obtain ⟨hlo, hhi, hlow⟩ := fieldsAt_tcBytes n
  have hoff : (BitVec.ofNat 24 (0x2140 + 8 * n.val)).toNat = 0x2140 + 8 * n.val := Nat.mod_eq_of_lt (by omega)
  have hup : 0x2144 + 8 * n.val = 0x2140 + 8 * n.val + 4 := by omega
  have hlt : 0x2140 + 8 * n.val < 0xA060 := by omega
  rw [hup] at hhi ⊢
  refine ends_rcRead ?_
  rw [countRead, hoff]
  obtain ⟨hrsp, hlo0, hhi0, htiles⟩ := readBy_host_clears_pair (f := s.fuses) hlow hlt hlo hhi hpin hserved
  split
  · exact ⟨hrsp, hlo0, hhi0, htiles⟩
  · obtain ⟨hycp, hl, hh, ht⟩ := meetCount_cleared_pair hlow hlo (by omega) hlo0 hhi0 met
    exact ⟨hycp ▸ hrsp, hl, hh, ht.trans htiles⟩

/-- The host's read of DLD_RETIRE pops the oldest report, and the report of that MCLK joins the list (R30, R390). -/
theorem host_rcRead_retire {met : Word} {w : Retire} {rest : List Retire} {s : State} (hs : hostServed s.dev 0xB030)
    (hrst : s.dev.pins.rstAsserted = false) (hlist : s.dev.retire = w :: rest) (hroom : rest.length < 64)
    (hmet : met.getLsbD 31 = true) :
    EndsDev (.rcRead .host ⟨0xB030, met⟩) s fun d =>
      d.ycp.rsp = some (0, BitVec.ofNat 32 (2 ^ 31 + w.toNat)) ∧ d.retire = rest ++ [met &&& 0x7FFFFFFF] := by
  have hread := readBy_host_retire (f := s.fuses) hs.1 hs.2
  rw [regRead_retire hlist, hlist, List.tail_cons] at hread
  have hleft : (readBy s.fuses s.dev .host 0xB030).retire = rest := by rw [hread, answer_retire, clearRc_retire]
  refine ends_rcRead ?_
  have hcount : countRead s.fuses s.dev .host ⟨0xB030, met⟩ = meetCount 0xB030 met (readBy s.fuses s.dev .host 0xB030) := by
    rw [countRead, hrst, if_neg Bool.false_ne_true]
    rfl
  rw [hcount, meetCount_retire hmet (by rw [hleft]; exact hroom), hleft, hread]
  exact ⟨rfl, rfl⟩

end Sys2Proof.Machine

section
open Sys2Proof.Machine Sys2Proof.Claims

/-- Settles O57. A host read is its clears and then what the MCLK adds, a manager's read the additions alone (R30, R33); a capture
is the case in which VALID is the RC field, DLQ_TC_BYTESn that of a pair, and DLD_RETIRE that of the list (R390). -/
theorem onlyTheHostsReadClears : Obligations.OnlyTheHostsReadClears := by
  refine ⟨fun off met s hs hlow hhigh hcap hlint =>
      ⟨host_rcRead_clears hs hlow hhigh hcap hlint, manager_rcRead_keeps hs hlow hhigh hcap hlint⟩,
    fun a off met s hs hcap hretire hdeny => ?_, fun n met s hs => host_rcRead_tcBytes n met hs,
    fun met w rest s hs hrst hlist hroom hmet => host_rcRead_retire hs hrst hlist hroom hmet⟩
  have hretire' : off.toNat ≠ 0xB030 := fun h => hretire (BitVec.eq_of_toNat_eq h)
  have hdeny' : off.toNat ≠ 0x4050 := fun h => hdeny (BitVec.eq_of_toNat_eq h)
  cases a with
  | host =>
    obtain ⟨d, hexec, hrsp, hvalid, hro, hrest, htiles⟩ := host_rcRead_captures (met := met) hs hcap hretire' hdeny'
    exact ⟨d, hexec, fun _ => hrsp, nofun, hvalid, by simpa using hro, hrest, htiles⟩
  | manager =>
    obtain ⟨d, hexec, hmgr, hvalid, hro, hrest, htiles⟩ := manager_rcRead_captures (met := met) hs hcap hretire' hdeny'
    exact ⟨d, hexec, nofun, fun _ => hmgr, hvalid, hro, hrest, htiles⟩

end
end

section
/-!
A write of a read-only pair is logged as ignored. With the Lint queue full the record is lost, which raises LINT_DROP (R357); a
programmable counter may count that event, and its own count is a pair: DLC_CNTn_LO and DLC_CNTn_HI (R35, R518).
-/
namespace Sys2Proof.Machine
open Sys2Proof.Claims

/-- The Lint queue is full, no record has been lost yet, and counter 0 is enabled and counts LINT_DROP. -/
def countsLintDrops : State :=
  { State.reset with dev := { Reset.dev with
      pins := { Reset.pins with rstAsserted := false, rstPin := false, pllCore := true }
      regs := [(0x10100, BitVec.ofNat 32 (2 ^ 31 + Ev.LINT_DROP))]
      lint := { Reset.lint with open_ := true, queue := List.replicate 64 (0, ⟨List.replicate 8 0⟩) } } }

/-- The device after a host write of DLC_CNT0_LO in that state. -/
def afterIgnoredWrite : Dev := (portWrite countsLintDrops.dram countsLintDrops.dev 0x10110 0).2

theorem countsLintDrops_served : hostServed countsLintDrops.dev 0x10110 := by decide +kernel

theorem counter_before_ignored_write : regRead countsLintDrops.fuses countsLintDrops.dev 0x10110 = 0 := by decide +kernel

theorem counter_after_ignored_write : regRead countsLintDrops.fuses afterIgnoredWrite 0x10110 = 1 := by decide +kernel

end Sys2Proof.Machine

section
open Sys2Proof Sys2Proof.Machine Sys2Proof.Claims

/-- Refutes O58: a host write of DLC_CNT0_LO may change what DLC_CNT0_LO reads as. The ignored write offers a Lint record; the full
queue loses it, LINT_DROP is raised, and counter 0, which counts that event, reads 1 where it read 0. -/
theorem not_splitPairsAreCaptured : ¬ Obligations.SplitPairsAreCaptured := by
  rintro ⟨-, -, hwrite, -⟩
  obtain ⟨d, hexec, -, hsame, -⟩ := hwrite (.splitLoWrite .host 0x10110 0) 0x10110 0 countsLintDrops countsLintDrops_served
    (.inl (by decide)) (.inl rfl)
  have hd : d = afterIgnoredWrite := by
    have hnext : ∃ m, exec (.splitLoWrite .host 0x10110 0) countsLintDrops =
        .next { countsLintDrops with dram := m, dev := afterIgnoredWrite } := ⟨_, rfl⟩
    obtain ⟨m, hnext⟩ := hnext
    rw [hnext] at hexec
    injection hexec with hstate
    exact (congrArg State.dev hstate).symm
  have hcontra : (1 : Word) = 0 :=
    calc (1 : Word)
      _ = regRead countsLintDrops.fuses d 0x10110 := by rw [hd, counter_after_ignored_write]
      _ = regRead countsLintDrops.fuses countsLintDrops.dev 0x10110 := hsame
      _ = 0 := counter_before_ignored_write
  exact absurd hcontra (by decide)

end
end

section
/-!
Writes of registers that only hold fields: who may write which field (R31, R32), what is stored and what is logged as ignored.
-/
namespace Sys2Proof.Machine

/-! ## Registers that only hold fields -/

/-- Registers whose write, beside its fields or instead of them, is a command. -/
def commandOffs : List Nat :=
  [0x1000, 0x1008, 0x100C, 0x1018, 0x6020, 0x8020, 0x8128, 0xA000, 0xA004, 0xB000, 0xF034, 0x10000, 0xE0E0, 0xE060, 0xE064, 0xE068,
    0xE06C]

/-- The register is in no 64-bit pair, and a write of it is no command: in a tile's block, DLT_SCHED_CTRL. -/
structure OnlyFields (off : Nat) : Prop where
  command : off ∉ commandOffs
  low     : isPairLow off = false
  high    : isPairHigh off = false
  tile    : 0x100000 ≤ off → off % 0x1000 = 0

section OnlyFields
variable {off : Nat} (h : OnlyFields off)
include h

theorem OnlyFields.regCmd_eq_none (m : SMap DLine) (d : Dev) (v : Word) : regCmd m d off v = none := by
  have hc := h.command
  unfold regCmd
  split
  case h_11 =>
    split
    · rename_i ht
      rw [h.tile ht.1]
      rfl
    · rfl
  all_goals exact absurd (by decide) hc

theorem OnlyFields.fieldWrite_eq (d : Dev) (v : Word) : fieldWrite d off v = plainWrite d .host d.boot.applied off v := by
  have hc := h.command
  simp only [commandOffs, List.mem_cons, List.not_mem_nil, or_false, not_or] at hc
  have hop : ¬(0xE060 ≤ off ∧ off < 0xE070 ∧ off % 4 = 0) := by omega
  simp [fieldWrite, hc, hop]

/-- A write access is a plain write of the agent's fields. -/
theorem OnlyFields.writeAccess_eq (m : SMap DLine) (d : Dev) (a : Agent) (v : Word) :
    writeAccess m d a off v =
      ((m, (plainWrite (setHold d a none) a d.boot.applied off v).1), (plainWrite (setHold d a none) a d.boot.applied off v).2) := by
  have hlow : isWritablePair off = false := by simp [isWritablePair, h.low]
  have hhigh : (4 ≤ off && isWritablePair (off - 4)) = false := by
    have := h.high
    simp only [isPairHigh, isWritablePair, isPairLow] at this ⊢
    rw [← Bool.and_assoc, this, Bool.false_and]
  cases a with
  | host => simp [writeAccess, writeSingle, hostWrite, hlow, hhigh, h.regCmd_eq_none, h.fieldWrite_eq, setHold]
  | manager => simp [writeAccess, writeSingle, hlow, hhigh, setHold]

/-- A host write at the port. -/
theorem OnlyFields.portWrite_eq {d : Dev} (hpin : d.pins.rstPin = false) (hserved : served d off = true) (m : SMap DLine) (v : Word) :
    portWrite m d off v = (m, answerWrite (plainWrite (setHold d .host none) .host d.boot.applied off v).1
      (plainWrite (setHold d .host none) .host d.boot.applied off v).2) := by
  simp [portWrite, hpin, hserved, h.writeAccess_eq]

end OnlyFields

/-! ## The three ends of a plain write (R32, R534) -/

section PlainWrite
variable {d : Dev} {a : Agent} {locked : Bool} {off : Nat} (hwritable : anyWritable off = true)
include hwritable

/-- A register whose writable fields are all another agent's: logged, and nothing is stored. -/
theorem plainWrite_not_owner (hforeign : hasForeign off a = true) (hopen : openFields off a locked = []) (v : Word) :
    plainWrite d a locked off v = (logNotOwner d off a, false) := by
  rw [anyWritable] at hwritable
  simp [plainWrite, hwritable, hforeign, hopen]

variable (hforeign : hasForeign off a = false) {fs : List Field} (hopen : openFields off a locked = fs) (hfs : fs ≠ [])
include hforeign hopen hfs

theorem plainWrite_stores {v : Word} (hrule : ruleAllows d off v = true) :
    plainWrite d a locked off v = (storeWrite d off fs v, true) := by
  rw [anyWritable] at hwritable
  simp [plainWrite, hwritable, hforeign, hopen, hfs, hrule]

/-- A write that a rule does not let act is logged as ignored. -/
theorem plainWrite_ruled_out {v : Word} (hrule : ruleAllows d off v = false) :
    plainWrite d a locked off v = (logIgnored d off v, false) := by
  rw [anyWritable] at hwritable
  simp [plainWrite, hwritable, hforeign, hopen, hfs, hrule]

end PlainWrite

/-! ## What is stored -/

/-- A write of the register brings nothing about beside its fields. -/
structure NoAftermath (off : Nat) : Prop where
  grant : off ≠ 0xE0C0
  coef  : off ≠ 0xE008 ∧ ¬(0xE010 ≤ off ∧ off < 0xE054)
  wear  : off ≠ 0xB01C
  irq   : ¬(0xC0 ≤ off ∧ off < 0xE0)
  pm    : off ≠ 0xE110

theorem NoAftermath.storeWrite_eq {off : Nat} (h : NoAftermath off) (d : Dev) (fs : List Field) (v : Word) :
    storeWrite d off fs v = rset d off (putFields fs (rget d off) v) := by
  simp [storeWrite, afterWrite, h.grant, h.coef, h.wear, h.irq, h.pm]

/-- A field of all 32 bits takes the value written. -/
theorem putFields_whole (r : Nat) (o : Own) (cur v : Word) : putFields [⟨31, 0, .rw, r, o⟩] cur v = v := by
  simp only [putFields, List.foldl_cons, List.foldl_nil, putField, bits_whole, setBits_whole]

section LowField
variable {hi : Nat} (hhi : hi < 32) (r : Nat) (o : Own) (cur v : Word)
include hhi

theorem bits_putFields_single : bits (putFields [⟨hi, 0, .rw, r, o⟩] cur v) hi 0 = bits v hi 0 := by
  simp only [putFields, List.foldl_cons, List.foldl_nil, putField]
  rw [bits_setBits _ hhi, Nat.mod_eq_of_lt (bits_lt _ _ _)]

end LowField

/-- Bits written 1 clear in W1C fields (R28). -/
theorem getLsbD_putFields_w1c {fs : List Field} (hfit : ∀ x ∈ fs, x.Fits) (hacc : ∀ x ∈ fs, x.acc = .w1c) (cur v : Word) (i : Nat) :
    (putFields fs cur v).getLsbD i = (cur.getLsbD i && !(v.getLsbD i && fs.any fun x => decide (x.lo ≤ i ∧ i ≤ x.hi))) := by
  induction fs generalizing cur with
  | nil => simp [putFields]
  | cons x xs ih =>
    rw [List.forall_mem_cons] at hfit hacc
    have hx : (putField v cur x).getLsbD i = (cur.getLsbD i && !(v.getLsbD i && decide (x.lo ≤ i ∧ i ≤ x.hi))) := by
      by_cases h32 : i < 32
      · simp only [putField, hacc.1, BitVec.getLsbD_and, BitVec.getLsbD_not, getLsbD_setBits _ hfit.1.2, h32, decide_true,
          Bool.true_and, testBit_bits]
        by_cases hin : x.lo ≤ i ∧ i ≤ x.hi
        · have hw : i - x.lo < x.hi + 1 - x.lo := by omega
          simp [hin, hw]
        · simp [hin]
      · rw [BitVec.getLsbD_of_ge _ _ (by omega), BitVec.getLsbD_of_ge cur _ (by omega), Bool.false_and]
    calc (putFields (x :: xs) cur v).getLsbD i
        = ((putField v cur x).getLsbD i && !(v.getLsbD i && xs.any fun x => decide (x.lo ≤ i ∧ i ≤ x.hi))) := ih hfit.2 hacc.2 _
      _ = _ := by
        rw [hx, List.any_cons]
        cases cur.getLsbD i <;> cases v.getLsbD i <;> simp [Bool.and_comm]

/-! ## Lint records of a write -/

theorem length_offer (key : Nat) (r : LintRec) (l : List (Nat × LintRec)) : (offer key r l).length = l.length + 1 := by
  induction l with
  | nil => rfl
  | cons e l ih =>
    rw [offer]
    split
    · rfl
    · rw [List.length_cons, ih, List.length_cons]

/-- One record more is offered. -/
theorem length_offered (l : Lint) (key : Nat) (r : LintRec) : (offered l key r).length = l.queue.length + 1 := by
  have hsplit := l.queue.length_eq_length_filter_add fun e : Nat × LintRec =>
    e.2.words.getD 2 0 = r.words.getD 2 0 && e.2.words.getD 3 0 = r.words.getD 3 0
  simp only [offered, List.length_append, List.length_map, List.length_zip, List.length_range, length_offer, Nat.min_self]
  omega

/-- With room in the queue a record joins it, and no register changes (R357). -/
theorem lint_of_room {d : Dev} (hopen : d.lint.open_ = true) (hroom : d.lint.queue.length < 64) (kind : Nat) (w : LintAt) (x y : Nat) :
    (lint d kind w x y).regs = d.regs ∧ (lint d kind w x y).lint.queue.length = d.lint.queue.length + 1 := by
  have hnot : (!d.lint.open_) = false := by rw [hopen]; rfl
  rw [lint, hnot, if_neg Bool.false_ne_true]
  dsimp only
  rw [if_pos hroom]
  exact ⟨rfl, by rw [List.length_take, length_offered]; omega⟩

/-! ## Messages -/

/-- `e` is `d` but for the die link and the count of free values. -/
def SameButLink (d e : Dev) : Prop := ∃ l n, e = { d with link := l, free := n }

theorem SameButLink.refl (d : Dev) : SameButLink d d := ⟨d.link, d.free, rfl⟩

theorem SameButLink.trans {d e f : Dev} (h : SameButLink d e) (h' : SameButLink e f) : SameButLink d f := by
  obtain ⟨l, n, rfl⟩ := h
  obtain ⟨l', n', rfl⟩ := h'
  exact ⟨l', n', rfl⟩

theorem SameButLink.withLink (d : Dev) (l : Package) : SameButLink d { d with link := l } := ⟨l, d.free, rfl⟩

theorem SameButLink.setLink (d : Dev) (j : Nat) (x : Link) : SameButLink d (setLink d j x) := ⟨_, _, rfl⟩

theorem sameButLink_putMsg (d : Dev) (m : Msg) : SameButLink d (putMsg d m) := by
  unfold putMsg
  dsimp only
  split
  · exact .setLink _ _ _
  · split
    · split
      · exact ⟨_, _, rfl⟩
      · exact .setLink _ _ _
    · exact .refl d

theorem sameButLink_unsend {d e : Dev} {m : Msg} (h : unsend d = some (m, e)) : SameButLink d e := by
  obtain ⟨j, -, hj⟩ := List.exists_of_findSome?_eq_some h
  obtain ⟨r, -, hr⟩ := Option.map_eq_some_iff.mp hj
  cases hr
  exact .setLink _ _ _

theorem sameButLink_yieldRoom (n : Nat) (a : Dev × List Msg) : SameButLink a.1 (yieldRoom n a).1 := by
  induction n generalizing a with
  | zero => exact .refl _
  | succ n ih =>
    rw [yieldRoom]
    split
    · exact .refl _
    · split
      · rename_i m d h
        exact (sameButLink_unsend h).trans (ih (d, m :: a.2))
      · exact .refl _

theorem sameButLink_pumpOne (a : Dev × List Msg) (m : Msg) : SameButLink a.1 (pumpOne a m).1 := by
  unfold pumpOne
  split
  · exact .refl _
  · split
    · exact (sameButLink_putMsg a.1 m).trans (sameButLink_yieldRoom _ (putMsg a.1 m, a.2))
    · exact sameButLink_putMsg a.1 m

theorem sameButLink_pumpAll (l : List Msg) (a : Dev × List Msg) : SameButLink a.1 (l.foldl pumpOne a).1 := by
  induction l generalizing a with
  | nil => exact .refl _
  | cons m l ih => exact (sameButLink_pumpOne a m).trans (ih (pumpOne a m))

/-- Sending a message touches the die link alone. -/
theorem sameButLink_send (d : Dev) (dst : Nat) (b : MsgBody) : SameButLink d (send d dst b) := by
  unfold send sendHeld
  exact ((SameButLink.withLink d _).trans (sameButLink_pumpAll _ (_, []))).trans (SameButLink.withLink _ _)

section AckManager
variable (d : Dev) (off : Nat) (taken : Bool)

/-- The manager's writes are answered by a message. -/
theorem sameButLink_ackManager : SameButLink d (ackManager d off taken) := by
  unfold ackManager
  split
  · exact .refl d
  · exact sameButLink_send _ _ _

@[simp] theorem ackManager_regs : (ackManager d off taken).regs = d.regs := by
  obtain ⟨l, n, h⟩ := sameButLink_ackManager d off taken; rw [h]
@[simp] theorem ackManager_ycp : (ackManager d off taken).ycp = d.ycp := by
  obtain ⟨l, n, h⟩ := sameButLink_ackManager d off taken; rw [h]
@[simp] theorem rget_ackManager (k : Nat) : rget (ackManager d off taken) k = rget d k := rget_congr (ackManager_regs d off taken) k

end AckManager

/-! ## Pending bits and counts -/

/-- Raising an event clears no pending bit. -/
theorem getLsbD_raise_of_getLsbD {d : Dev} {k i : Nat} (h : (rget d k).getLsbD i = true) (e : Nat) (m b : Option Nat) :
    (rget (raise d e m b) k).getLsbD i = true := by
  rw [rget_congr (e := setPending e d) (by simp) k, setPending]
  split
  · by_cases hk : k = irqPend ((e - 0x100) / 0x20)
    · subst hk
      rw [rget_rset, BitVec.getLsbD_or, h, Bool.true_or]
    · rw [rget_rset_ne _ _ _ _ hk, h]
  · exact h

/-- Raising an interrupt cause leaves it pending (R514). -/
theorem isPending_raise (d : Dev) {e : Nat} (m b : Option Nat) (h : 0x100 ≤ e ∧ e < 0x200) : Claims.isPending (raise d e m b) e := by
  have hlt : (e - 0x100) % 0x20 < 32 := Nat.mod_lt _ (by omega)
  rw [Claims.isPending, rget_raise_pend d e m b h, BitVec.getLsbD_or, BitVec.getLsbD_ofNat]
  simp [hlt, Nat.testBit_shiftLeft]

/-- A record that is offered, or lost, clears no pending bit. -/
theorem getLsbD_lint_of_getLsbD {d : Dev} {k i : Nat} (hk : k ≠ 0xA04C) (h : (rget d k).getLsbD i = true) (kind : Nat) (w : LintAt)
    (x y : Nat) : (rget (lint d kind w x y) k).getLsbD i = true := by
  unfold lint
  split
  · exact h
  · dsimp only
    split
    · exact h
    · unfold lintDrop rinc rcount rsetBits
      dsimp only
      rw [rget_rset_ne _ _ _ _ hk]
      split
      · exact getLsbD_raise_of_getLsbD (by exact h) _ _ _
      · exact h

theorem rget_rinc_ne (d : Dev) (off n : Nat) {k : Nat} (hk : k ≠ off) : rget (rinc d off n) k = rget d k := rget_rset_ne _ _ _ _ hk

/-- A 32-bit count advances, and holds at all-ones. -/
theorem toNat_rget_rinc (d : Dev) (off n : Nat) : (rget (rinc d off n) off).toNat = min ((rget d off).toNat + n) 0xFFFFFFFF := by
  rw [rinc, rcount, rsetBits, rget_rset, ← bits_whole, bits_setBits _ (by omega), rbits, bits_whole]
  exact Nat.mod_eq_of_lt (by omega)

/-! ## The conflict of a merged write (R476) -/

section Conflict
variable (d : Dev) (off : Nat) (v : Word)

/-- CONFLICT is raised, captured and counted; then its record is offered. -/
theorem conflict_eq : ∃ e, conflict d off v = lint (rinc e 0xF048 1) 0x30 {} off v.toNat ∧
    ∀ k, k ≠ 0xF044 → rget e k = rget (raise d Ev.CONFLICT) k := by
  refine ⟨_, rfl, fun k hk => ?_⟩
  split
  · rfl
  · exact rget_rset_ne _ _ _ _ hk

theorem isPending_conflict : Claims.isPending (conflict d off v) Ev.CONFLICT := by
  obtain ⟨e, h, he⟩ := conflict_eq d off v
  have hraised := isPending_raise d (e := Ev.CONFLICT) none none (by decide)
  have hoff : irqPend ((Ev.CONFLICT - 0x100) / 32) = 0x9C := rfl
  rw [Claims.isPending, hoff] at hraised ⊢
  rw [h]
  refine getLsbD_lint_of_getLsbD (by decide) ?_ _ _ _ _
  rw [rget_rinc_ne _ _ _ (by decide), he _ (by decide)]
  exact hraised

theorem counted_conflict : Claims.counted d (conflict d off v) 0xF048 1 := by
  obtain ⟨e, h, he⟩ := conflict_eq d off v
  rw [Claims.counted, h, rget_lint_ne _ _ _ _ _ _ (by omega) (by omega), toNat_rget_rinc, he _ (by omega),
    rget_raise_ne _ _ _ _ _ (by omega)]

/-- The registers but the pending ones, the conflict's two and the count of lost records stay. -/
theorem rget_conflict_ne {k : Nat} (hpend : k < 0x80 ∨ 0xA0 ≤ k) (hdrop : k ≠ 0xA04C) (hinfo : k ≠ 0xF044) (hcount : k ≠ 0xF048) :
    rget (conflict d off v) k = rget d k := by
  obtain ⟨e, h, he⟩ := conflict_eq d off v
  rw [h, rget_lint_ne _ _ _ _ _ _ hpend hdrop, rget_rinc_ne _ _ _ hcount, he _ hinfo, rget_raise_ne _ _ _ _ _ hpend]

end Conflict

end Sys2Proof.Machine
end

section
/-!
Errors of a request port and the clearing write of DLQ_PORT_ERRn in one MCLK (R30, R148).
-/
namespace Sys2Proof.Machine

/-! ## The word of DLQ_PORT_ERRn -/

/-- DLQ_PORT_ERRn after an error of kind k: its bit is 1, and the first error since all bits were 0 is captured (R148). -/
def withError (w : Word) (k tag : Nat) : Word :=
  (if bits w 5 0 = 0 then setBits (setBits w 31 24 tag) 18 16 k else w) ||| BitVec.ofNat 32 (2 ^ k)

theorem getLsbD_two_pow {i : Nat} (hi : i < 32) (k : Nat) : (BitVec.ofNat 32 (2 ^ k)).getLsbD i = decide (k = i) := by
  rw [BitVec.getLsbD_ofNat, Nat.testBit_two_pow, decide_eq_true hi, Bool.true_and]

/-- A bit below a field shows nothing in it. -/
theorem bits_two_pow_below {k lo hi : Nat} (hk : k < lo) (hhi : hi < 32) : bits (BitVec.ofNat 32 (2 ^ k)) hi lo = 0 :=
  bits_eq_zero fun i hl hh => by rw [getLsbD_two_pow (by omega), decide_eq_false (by omega)]

/-- A bit of a field is set: the field is not 0. -/
theorem bits_ne_zero {w : Word} {hi lo i : Nat} (hl : lo ≤ i) (hh : i ≤ hi) (h : w.getLsbD i = true) : bits w hi lo ≠ 0 := by
  intro h0
  have := testBit_bits w hi lo (i - lo)
  rw [h0, Nat.zero_testBit, Nat.add_sub_cancel' hl, h, decide_eq_true (by omega)] at this
  cases this

section WithError
variable {w : Word} {k tag : Nat} (hk : k < 6)

theorem getLsbD_withError {i : Nat} (hi : i < 6) : (withError w k tag).getLsbD i = (w.getLsbD i || decide (k = i)) := by
  rw [withError, BitVec.getLsbD_or, getLsbD_two_pow (by omega)]
  split
  · rw [getLsbD_setBits _ (by omega), if_neg (by omega), getLsbD_setBits _ (by omega), if_neg (by omega)]
  · rfl

include hk

theorem bits_withError_ne_zero : bits (withError w k tag) 5 0 ≠ 0 :=
  bits_ne_zero (Nat.zero_le k) (by omega) (by rw [getLsbD_withError hk, decide_eq_true rfl, Bool.or_true])

/-- A capture stays until every bit is 0 again. -/
theorem bits_withError_held (h : bits w 5 0 ≠ 0) {hi lo : Nat} (hlo : 6 ≤ lo) (hhi : hi < 32) :
    bits (withError w k tag) hi lo = bits w hi lo := by
  rw [withError, if_neg h, bits_or, bits_two_pow_below (by omega) hhi, Nat.or_zero]

theorem bits_withError_tag (h : bits w 5 0 = 0) (htag : tag < 256) : bits (withError w k tag) 31 24 = tag := by
  rw [withError, if_pos h, bits_or, bits_two_pow_below (by omega) (by omega), Nat.or_zero,
    bits_setBits_apart _ (by omega) _ (.inl (by omega)), bits_setBits _ (by omega)]
  exact Nat.mod_eq_of_lt htag

theorem bits_withError_kind (h : bits w 5 0 = 0) : bits (withError w k tag) 18 16 = k := by
  rw [withError, if_pos h, bits_or, bits_two_pow_below (by omega) (by omega), Nat.or_zero, bits_setBits _ (by omega)]
  exact Nat.mod_eq_of_lt (by omega)

end WithError

/-- DLQ_PORT_ERRn after the errors of one MCLK. -/
def withErrors (met : List PortErr) (w : Word) : Word := met.foldl (fun w e => withError w e.kind.val e.tag.toNat) w

theorem getLsbD_withErrors (met : List PortErr) (w : Word) {i : Nat} (hi : i < 6) :
    (withErrors met w).getLsbD i = (w.getLsbD i || met.any fun e => e.kind.val = i) := by
  induction met generalizing w with
  | nil => simp [withErrors]
  | cons e es ih =>
    calc (withErrors (e :: es) w).getLsbD i
        = ((withError w e.kind.val e.tag.toNat).getLsbD i || es.any fun e => e.kind.val = i) := ih _
      _ = _ := by rw [getLsbD_withError hi, List.any_cons, Bool.or_assoc]

/-- Once an error is captured, those that follow leave the capture. -/
theorem bits_withErrors_held (met : List PortErr) {w : Word} (h : bits w 5 0 ≠ 0) {hi lo : Nat} (hlo : 6 ≤ lo) (hhi : hi < 32) :
    bits (withErrors met w) hi lo = bits w hi lo := by
  induction met generalizing w with
  | nil => rfl
  | cons e es ih =>
    calc bits (withErrors (e :: es) w) hi lo
        = bits (withError w e.kind.val e.tag.toNat) hi lo := ih (bits_withError_ne_zero e.kind.isLt)
      _ = bits w hi lo := bits_withError_held e.kind.isLt h hlo hhi

/-- The first error of the MCLK is the one that is captured. -/
theorem bits_withErrors_first {w : Word} (h : bits w 5 0 = 0) (e : PortErr) (es : List PortErr) :
    bits (withErrors (e :: es) w) 31 24 = e.tag.toNat ∧ bits (withErrors (e :: es) w) 18 16 = e.kind.val := by
  have hne := bits_withError_ne_zero (w := w) (tag := e.tag.toNat) e.kind.isLt
  constructor
  · calc bits (withErrors (e :: es) w) 31 24
        = bits (withError w e.kind.val e.tag.toNat) 31 24 := bits_withErrors_held es hne (by omega) (by omega)
      _ = e.tag.toNat := bits_withError_tag e.kind.isLt h e.tag.isLt
  · calc bits (withErrors (e :: es) w) 18 16
        = bits (withError w e.kind.val e.tag.toNat) 18 16 := bits_withErrors_held es hne (by omega) (by omega)
      _ = e.kind.val := bits_withError_kind e.kind.isLt h

theorem getLsbD_errBits (met : List PortErr) {i : Nat} (hi : i < 32) :
    (errBits met).getLsbD i = met.any fun e => e.kind.val = i := by
  suffices h : ∀ w : Word, (met.foldl (fun w e => w ||| BitVec.ofNat 32 (2 ^ e.kind.val)) w).getLsbD i =
      (w.getLsbD i || met.any fun e => e.kind.val = i) by
    rw [errBits, h 0]
    simp
  induction met with
  | nil => simp
  | cons e es ih =>
    intro w
    rw [List.foldl_cons, ih, BitVec.getLsbD_or, getLsbD_two_pow hi, List.any_cons, Bool.or_assoc]

/-- Errors set bits 5 to 0 alone. -/
theorem bits_errBits (met : List PortErr) {hi lo : Nat} (hlo : 6 ≤ lo) (hhi : hi < 32) : bits (errBits met) hi lo = 0 := by
  refine bits_eq_zero fun i hl hh => ?_
  rw [getLsbD_errBits met (by omega), List.any_eq_false]
  intro e _
  have := e.kind.isLt
  simp only [decide_eq_true_eq]
  omega

/-- The error bits of DLQ_PORT_ERRn, which a write of 1 clears. -/
def errFields : List Field :=
  [⟨5, 5, .w1c, 0, .h⟩, ⟨4, 4, .w1c, 0, .h⟩, ⟨3, 3, .w1c, 0, .h⟩, ⟨2, 2, .w1c, 0, .h⟩, ⟨1, 1, .w1c, 0, .h⟩, ⟨0, 0, .w1c, 0, .h⟩]

theorem getLsbD_clearErrors (w v : Word) (i : Nat) :
    (putFields errFields w v).getLsbD i = (w.getLsbD i && !(v.getLsbD i && decide (i < 6))) := by
  have hany : (errFields.any fun x => decide (x.lo ≤ i ∧ i ≤ x.hi)) = decide (i < 6) := by
    simp only [errFields, List.any_cons, List.any_nil, Bool.or_false, ← Bool.decide_or]
    exact decide_eq_decide.mpr (by omega)
  rw [getLsbD_putFields_w1c (by unfold Field.Fits; decide) (by decide), hany]

/-- A clearing write leaves the capture. -/
theorem bits_clearErrors (w v : Word) {hi lo : Nat} (hlo : 6 ≤ lo) : bits (putFields errFields w v) hi lo = bits w hi lo :=
  bits_congr fun i hl _ => by rw [getLsbD_clearErrors, decide_eq_false (by omega)]; simp

/-- DLQ_PORT_ERRn after the errors `met` and a write of `v` in one MCLK, the bits of the errors ending set (R30). -/
def metAndCleared (met : List PortErr) (v w : Word) : Word := putFields errFields (withErrors met w) v ||| errBits met

theorem getLsbD_metAndCleared (met : List PortErr) (v w : Word) {i : Nat} (hi : i < 6) :
    (metAndCleared met v w).getLsbD i = ((w.getLsbD i && !v.getLsbD i) || met.any fun e => e.kind.val = i) := by
  rw [metAndCleared, BitVec.getLsbD_or, getLsbD_clearErrors, getLsbD_withErrors met w hi, getLsbD_errBits met (by omega),
    decide_eq_true hi, Bool.and_true]
  cases met.any fun e => e.kind.val = i
  · simp only [Bool.or_false]
  · simp only [Bool.or_true]

theorem bits_metAndCleared (met : List PortErr) (v w : Word) {hi lo : Nat} (hlo : 6 ≤ lo) (hhi : hi < 32) :
    bits (metAndCleared met v w) hi lo = bits (withErrors met w) hi lo := by
  rw [metAndCleared, bits_or, bits_errBits met hlo hhi, Nat.or_zero, bits_clearErrors _ _ hlo]

/-! ## Recording errors -/

theorem rget_portError (d : Dev) (n k : Nat) (tag : BitVec 8) :
    rget (portError d n k tag) (0x2040 + 4 * n) = withError (rget d (0x2040 + 4 * n)) k tag.toNat := by
  rw [portError, rget_raise_ne _ _ _ _ _ (by omega), rget_rset]
  rfl

/-- The errors that port n meets in one MCLK are recorded one after the other. -/
def portErrors (n : Nat) (met : List PortErr) (d : Dev) : Dev := met.foldl (fun d e => portError d n e.kind.val e.tag) d

section PortErrors
variable (n : Nat) (met : List PortErr) (d : Dev)

theorem rget_portErrors : rget (portErrors n met d) (0x2040 + 4 * n) = withErrors met (rget d (0x2040 + 4 * n)) := by
  induction met generalizing d with
  | nil => rfl
  | cons e es ih => exact (ih _).trans (by rw [rget_portError]; rfl)

theorem portErrors_pins_txns : (portErrors n met d).pins = d.pins ∧ (portErrors n met d).txns = d.txns := by
  induction met generalizing d with
  | nil => exact ⟨rfl, rfl⟩
  | cons e es ih =>
    obtain ⟨hp, ht⟩ := ih (portError d n e.kind.val e.tag)
    exact ⟨hp.trans (raise_pins _ _ _ _), ht.trans (raise_txns _ _ _ _)⟩

/-- An error raises PORT_PROTOCOL, also where its bit was 1 already (R148; log entry 66). -/
theorem isPending_portError (k : Nat) (tag : BitVec 8) : Claims.isPending (portError d n k tag) Ev.PORT_PROTOCOL := by
  unfold portError
  exact isPending_raise _ _ _ (by decide)

theorem isPending_portErrors (h : met ≠ []) : Claims.isPending (portErrors n met d) Ev.PORT_PROTOCOL := by
  obtain ⟨es, e, rfl⟩ := List.eq_nil_or_concat met |>.resolve_left h
  rw [portErrors, List.concat_eq_append, List.foldl_append, List.foldl_cons, List.foldl_nil]
  exact isPending_portError n _ _ _

end PortErrors

/-! ## The write -/

theorem writeMet_of_no_port {off : Nat} (h : errPort off = none) (m : SMap DLine) (d : Dev) (w : WriteBy) (met : List PortErr) :
    writeMet m d off w met = writeBy m d off w := by
  rw [writeMet, h]

/-- A write of DLQ_PORT_ERRn comes after the errors of its MCLK, whose bits end set (R30). -/
theorem writeMet_portErr (n : Fin 16) {d : Dev} (hrst : d.pins.rstAsserted = false) (m : SMap DLine) (w : WriteBy)
    (met : List PortErr) :
    writeMet m d (0x2040 + 4 * n.val) w met =
      let r := writeBy m (portErrors n.val met d) (0x2040 + 4 * n.val) w
      (r.1, rset r.2 (0x2040 + 4 * n.val) (rget r.2 (0x2040 + 4 * n.val) ||| errBits met)) := by
  have hport : errPort (0x2040 + 4 * n.val) = some n.val := by
    rw [errPort, if_pos (by omega), Nat.add_sub_cancel_left, Nat.mul_div_cancel_left _ (by omega)]
  rw [writeMet, hport, hrst]
  rfl

end Sys2Proof.Machine
end

section
/-!
The writes of O59's registers: DLW_DEMAND, DLW_PURSE_GRANT, DLI_SCRATCHs, DLQ_PORT_ERRn and DLT_SCHED_CTRL (R31, R32, R34, R148, R279).
-/
namespace Sys2Proof.Machine
open Sys2Proof.Claims

/-- REGISTER_WRITE that leaves the memory alone ends in what its write leaves of the device. -/
theorem ends_registerWrite {off : BitVec 24} {w : RegisterWrite} {s : State} {P : Dev → Prop} {d : Dev}
    (h : writeMet s.dram s.dev off.toNat w.by_ w.met = (s.dram, d)) (hP : P d) : EndsDev (.registerWrite off w) s P := by
  refine ⟨d, ?_, hP⟩
  change onMem s (fun m d => writeMet m d off.toNat w.by_ w.met) = _
  simp only [onMem, h]

/-! ## The registers -/

theorem fieldsAt_demand : fieldsAt 0xE0C4 = [⟨23, 0, .rw, 0, .m⟩] := by decide +kernel
theorem fieldsAt_grant : fieldsAt 0xE0C0 = [⟨23, 0, .rw, 0, .hm⟩] := by decide +kernel
theorem fieldsAt_scratch : ∀ k : Fin 4, fieldsAt (0x20 + 4 * k.val) = [⟨31, 0, .rw, 0, .h⟩] := by decide +kernel
theorem fieldsAt_portErr : ∀ n : Fin 16, fieldsAt (0x2040 + 4 * n.val) =
    ⟨31, 24, .ro, 0, .none⟩ :: ⟨18, 16, .ro, 0, .none⟩ :: errFields := by decide +kernel

/-- The array of registers ends at or below an offset. -/
def RegDesc.EndsBelow (r : RegDesc) (off : Nat) : Prop := 0 < r.stride2 ∧ r.base + (r.count - 1) * r.stride + r.count2 * r.stride2 ≤ off

theorem findIn_cons_of_endsBelow {r : RegDesc} {off : Nat} (h : r.EndsBelow off) (l : List RegDesc) :
    RegMap.findIn (r :: l) off = RegMap.findIn l off := by
  obtain ⟨hpos, htop⟩ := h
  rw [RegMap.findIn]
  refine if_neg fun ⟨hbase, hi, _, hx⟩ => ?_
  have hinner := (Nat.div_lt_iff_lt_mul hpos).mp hx
  have hsplit := Nat.div_add_mod (off - r.base) r.stride
  have houter : (off - r.base) / r.stride * r.stride ≤ (r.count - 1) * r.stride := Nat.mul_le_mul_right _ (by omega)
  rw [Nat.mul_comm] at hsplit
  omega

theorem findIn_append_of_endsBelow {l : List RegDesc} {off : Nat} (h : ∀ r ∈ l, r.EndsBelow off) (l' : List RegDesc) :
    RegMap.findIn (l ++ l') off = RegMap.findIn l' off := by
  induction l with
  | nil => rfl
  | cons r l ih =>
    rw [List.forall_mem_cons] at h
    rw [List.cons_append, findIn_cons_of_endsBelow h.1, ih h.2]

/-- DLT_SCHED_CTRL, one for each tile. -/
def schedCtrlDesc : RegDesc := ⟨0x100000, 320, 0x1000, 1, 4, [⟨14, 8, .rw, 0x18, .h⟩, ⟨6, 0, .rw, 0x48, .h⟩]⟩

def belowTiles (r : RegDesc) : Bool := r ≠ schedCtrlDesc

/-- The registers that the map lists before DLT_SCHED_CTRL end below the tiles' blocks. -/
theorem endsBelow_tiles : ∀ r ∈ RegMap.all.takeWhile belowTiles, 0 < r.stride2 ∧
    r.base + (r.count - 1) * r.stride + r.count2 * r.stride2 ≤ 0x100000 := by decide +kernel

theorem head_dropWhile_belowTiles : (RegMap.all.dropWhile belowTiles).head? = some schedCtrlDesc := by decide +kernel

theorem fieldsAt_schedCtrl (t : Fin 320) :
    fieldsAt (tileOff t.val 0) = [⟨14, 8, .rw, 0x18, .h⟩, ⟨6, 0, .rw, 0x48, .h⟩] := by
  have hoff : tileOff t.val 0 = 0x100000 + 0x1000 * t.val := rfl
  obtain ⟨rest, hrest⟩ := List.head?_eq_some_iff.mp head_dropWhile_belowTiles
  have hbelow : ∀ r ∈ RegMap.all.takeWhile belowTiles, r.EndsBelow (tileOff t.val 0) := fun r hr =>
    ⟨(endsBelow_tiles r hr).1, (endsBelow_tiles r hr).2.trans (by omega)⟩
  have hfind : RegMap.find (tileOff t.val 0) = some (schedCtrlDesc, t.val, 0) := by
    rw [RegMap.find, ← List.takeWhile_append_dropWhile (p := belowTiles) (l := RegMap.all), findIn_append_of_endsBelow hbelow, hrest,
      RegMap.findIn]
    have hd : tileOff t.val 0 - schedCtrlDesc.base = 0x1000 * t.val := by rw [hoff]; exact Nat.add_sub_cancel_left _ _
    have hi : 0x1000 * t.val / schedCtrlDesc.stride = t.val := Nat.mul_div_cancel_left _ (by decide)
    have hx : 0x1000 * t.val % schedCtrlDesc.stride = 0 := Nat.mul_mod_right _ _
    have hbase : schedCtrlDesc.base ≤ tileOff t.val 0 := by rw [hoff]; exact Nat.le_add_right _ _
    rw [hd, hi, hx, if_pos ⟨hbase, t.isLt, by decide, by decide⟩]
    rfl
  rw [fieldsAt, hfind]
  rfl

/-! ## They only hold fields -/

theorem onlyFields_demand : OnlyFields 0xE0C4 := ⟨by decide, by decide, by decide, by decide⟩
theorem onlyFields_scratch (k : Fin 4) : OnlyFields (0x20 + 4 * k.val) := by
  have hpair : ∀ k : Fin 4, isPairLow (0x20 + 4 * k.val) = false ∧ isPairHigh (0x20 + 4 * k.val) = false := by decide
  refine ⟨?_, (hpair k).1, (hpair k).2, by omega⟩
  simp only [commandOffs, List.mem_cons, List.not_mem_nil, or_false, not_or]
  omega
theorem onlyFields_portErr (n : Fin 16) : OnlyFields (0x2040 + 4 * n.val) := by
  have hpair : ∀ n : Fin 16, isPairLow (0x2040 + 4 * n.val) = false ∧ isPairHigh (0x2040 + 4 * n.val) = false := by decide
  refine ⟨?_, (hpair n).1, (hpair n).2, by omega⟩
  simp only [commandOffs, List.mem_cons, List.not_mem_nil, or_false, not_or]
  omega
/-- The pairs of the window end below the tiles' blocks. -/
theorem pairLows_lt : ∀ lo ∈ pairLows, lo < 0x11000 := by decide
theorem onlyFields_schedCtrl (t : Fin 320) : OnlyFields (tileOff t.val 0) := by
  have hoff : tileOff t.val 0 = 0x100000 + 0x1000 * t.val := rfl
  rw [hoff]
  refine ⟨?_, ?_, ?_, by omega⟩
  · simp only [commandOffs, List.mem_cons, List.not_mem_nil, or_false, not_or]
    omega
  · by_contra h
    have := pairLows_lt _ (by simpa [isPairLow] using h)
    omega
  · by_contra h
    obtain ⟨-, hm⟩ : 4 ≤ 0x100000 + 0x1000 * t.val ∧ 0x100000 + 0x1000 * t.val - 4 ∈ pairLows := by simpa [isPairHigh] using h
    have := pairLows_lt _ hm
    omega

/-! ## Owners (R31, R32) -/

/-- A host write of DLW_DEMAND, the manager's, is logged and ignored. -/
theorem portWrite_demand {m : SMap DLine} {d : Dev} (hs : hostServed d 0xE0C4) (v : Word) :
    portWrite m d 0xE0C4 v = (m, answerWrite (logNotOwner (setHold d .host none) 0xE0C4 .host) false) := by
  rw [onlyFields_demand.portWrite_eq hs.1 hs.2, plainWrite_not_owner (by rw [anyWritable, fieldsAt_demand]; rfl)
    (by rw [hasForeign, fieldsAt_demand]; rfl) (by rw [openFields, fieldsAt_demand]; rfl)]

theorem host_write_demand (v : Word) (s : State) (hs : hostServed s.dev 0xE0C4) (hopen : s.dev.lint.open_ = true)
    (hroom : s.dev.lint.queue.length < 64) :
    EndsDev (.registerWrite 0xE0C4 ⟨.host v, []⟩) s fun d =>
      d.regs = s.dev.regs ∧ ignored d ∧ d.lint.queue.length = s.dev.lint.queue.length + 1 := by
  obtain ⟨hregs, hqueue⟩ := lint_of_room (d := setHold s.dev .host none) hopen hroom 0x10 {} 0xE0C4 (writerNum .host)
  exact ends_registerWrite ((writeMet_of_no_port rfl _ _ _ _).trans (portWrite_demand hs v)) ⟨hregs, rfl, hqueue⟩

/-- The manager's write of DLW_DEMAND takes. -/
theorem managerWrite_demand {m : SMap DLine} {d : Dev} (hs : hostServed d 0xE0C4) (hrst : d.pins.rstAsserted = false) (v : Word) :
    managerWrite m d 0xE0C4 v = ((m, rset (setHold d .manager none) 0xE0C4
      (putFields [⟨23, 0, .rw, 0, .m⟩] (rget (setHold d .manager none) 0xE0C4) v)), true) := by
  have hplain : NoAftermath 0xE0C4 := ⟨by decide, by decide, by decide, by decide, by decide⟩
  have hgo : (d.pins.rstAsserted || !served d 0xE0C4) = false := by rw [hrst, hs.2]; rfl
  rw [managerWrite, hgo, if_neg Bool.false_ne_true, onlyFields_demand.writeAccess_eq,
    plainWrite_stores (fs := [⟨23, 0, .rw, 0, .m⟩]) (by rw [anyWritable, fieldsAt_demand]; rfl) (by rw [hasForeign, fieldsAt_demand]; rfl)
      (by rw [openFields, fieldsAt_demand]; rfl) (List.cons_ne_nil _ _) rfl, hplain.storeWrite_eq]

theorem manager_write_demand (v : Word) (s : State) (hs : hostServed s.dev 0xE0C4) (hrst : s.dev.pins.rstAsserted = false) :
    EndsDev (.registerWrite 0xE0C4 ⟨.manager v, []⟩) s fun d => rbits d 0xE0C4 23 0 = bits v 23 0 ∧
      ∀ off, off ≠ 0xE0C4 → rget d off = rget s.dev off := by
  have hwrite : ∀ m d, writeBy m d 0xE0C4 (.manager v) =
      ((managerWrite m d 0xE0C4 v).1.1, ackManager (managerWrite m d 0xE0C4 v).1.2 0xE0C4 (managerWrite m d 0xE0C4 v).2) :=
    fun _ _ => rfl
  refine ends_registerWrite ((writeMet_of_no_port rfl _ _ _ _).trans ((hwrite _ _).trans (by rw [managerWrite_demand hs hrst]))) ⟨?_, ?_⟩
  · rw [rbits, rget_ackManager, rget_rset, bits_putFields_single (by omega)]
  · intro off hoff
    rw [rget_ackManager, rget_rset_ne _ _ _ _ hoff]
    rfl

/-! ## Merged writes (R34, R476) -/

/-- A write of DLW_PURSE_GRANT brings a fresh grant (R437) and changes no other register. -/
theorem storeWrite_grant (d : Dev) (fs : List Field) (v : Word) :
    storeWrite d 0xE0C0 fs v = onEnergy (rset d 0xE0C0 (putFields fs (rget d 0xE0C0) v)) fun e => { e with fresh := true } := rfl

theorem bits_storeWrite_grant (d : Dev) (r : Nat) (o : Own) (v : Word) :
    bits (rget (storeWrite d 0xE0C0 [⟨23, 0, .rw, r, o⟩] v) 0xE0C0) 23 0 = bits v 23 0 := by
  rw [storeWrite_grant]
  change bits (rget (rset d 0xE0C0 _) 0xE0C0) 23 0 = _
  rw [rget_rset, bits_putFields_single (by omega)]

theorem rget_storeWrite_grant_ne (d : Dev) (fs : List Field) (v : Word) {k : Nat} (hk : k ≠ 0xE0C0) :
    rget (storeWrite d 0xE0C0 fs v) k = rget d k := rget_rset_ne _ _ _ _ hk

/-- Of two writes of DLW_PURSE_GRANT in one MCLK the manager's value is stored, and the conflict raised. -/
theorem mergedWrite_grant (m : SMap DLine) (d : Dev) (hv mv : Word) :
    mergedWrite m d 0xE0C0 hv mv =
      ((m, conflict (storeWrite (setHold (setHold d .host none) .manager none) 0xE0C0 [⟨23, 0, .rw, 0, .hm⟩] mv) 0xE0C0 hv), true, true) := by
  have hwritable : anyWritable 0xE0C0 = true := by rw [anyWritable, fieldsAt_grant]; rfl
  have hboth : hasBoth 0xE0C0 = true := by rw [hasBoth, fieldsAt_grant]; rfl
  have hstores : ∀ e : Dev, ∀ locked, plainWrite e .manager locked 0xE0C0 mv = (storeWrite e 0xE0C0 [⟨23, 0, .rw, 0, .hm⟩] mv, true) :=
    fun e locked => plainWrite_stores hwritable (by rw [hasForeign, fieldsAt_grant]; rfl) (by rw [openFields, fieldsAt_grant]; rfl)
      (List.cons_ne_nil _ _) rfl
  simp only [mergedWrite, hwritable, hboth, hstores, Bool.not_true, Bool.false_eq_true, if_false, if_true]

theorem both_write_grant (hv mv : Word) (s : State) (hs : hostServed s.dev 0xE0C0) :
    EndsDev (.registerWrite 0xE0C0 ⟨.both hv mv, []⟩) s fun d =>
      rbits d 0xE0C0 23 0 = bits mv 23 0 ∧ isPending d Ev.CONFLICT ∧ counted s.dev d 0xF048 1 ∧ okay d := by
  have hwrite : writeBy s.dram s.dev 0xE0C0 (.both hv mv) = (s.dram, ackManager (answerWrite (conflict (storeWrite
      (setHold (setHold s.dev .host none) .manager none) 0xE0C0 [⟨23, 0, .rw, 0, .hm⟩] mv) 0xE0C0 hv) true) 0xE0C0 true) := by
    simp only [writeBy, hs.1, hs.2, mergedWrite_grant, Bool.not_true, Bool.false_eq_true, if_false]
  refine ends_registerWrite ((writeMet_of_no_port rfl _ _ _ _).trans hwrite) ?_
  have hgrant := bits_storeWrite_grant (setHold (setHold s.dev .host none) .manager none) 0 .hm mv
  have hcount : rget (storeWrite (setHold (setHold s.dev .host none) .manager none) 0xE0C0 [⟨23, 0, .rw, 0, .hm⟩] mv) 0xF048 =
      rget s.dev 0xF048 := rget_storeWrite_grant_ne _ _ _ (by decide)
  generalize storeWrite (setHold (setHold s.dev .host none) .manager none) 0xE0C0 [⟨23, 0, .rw, 0, .hm⟩] mv = e at *
  refine ⟨?_, ?_, ?_, ?_⟩
  · rw [rbits, rget_ackManager, answerWrite, rget_answer, rget_conflict_ne _ _ _ (by omega) (by omega) (by omega) (by omega), hgrant]
  · rw [isPending, rget_ackManager, answerWrite, rget_answer]
    exact isPending_conflict e _ _
  · rw [counted, rget_ackManager, answerWrite, rget_answer, ← hcount]
    exact counted_conflict e _ _
  · rw [okay, ackManager_ycp, answerWrite, answer_rsp]
    rfl

/-! ## Plain registers of the host -/

theorem served_below_tclk {d : Dev} {off : Nat} (h : off < 0x2000) : served d off = true := by
  have ht : inTclk off = false := by
    simp only [inTclk, Bool.or_eq_false_iff, decide_eq_false_iff_not]
    omega
  have he : inEclk off = false := by
    simp only [inEclk, decide_eq_false_iff_not]
    omega
  simp [served, ht, he]

theorem host_write_scratch (k : Fin 4) (v : Word) (s : State) (hpin : s.dev.pins.rstPin = false) :
    EndsDev (.registerWrite (BitVec.ofNat 24 (0x20 + 4 * k.val)) ⟨.host v, []⟩) s fun d =>
      rget d (0x20 + 4 * k.val) = v ∧ okay d ∧ ∀ off, off ≠ 0x20 + 4 * k.val → rget d off = rget s.dev off := by
  have hoff : (BitVec.ofNat 24 (0x20 + 4 * k.val)).toNat = 0x20 + 4 * k.val := Nat.mod_eq_of_lt (by omega)
  have hport : errPort (0x20 + 4 * k.val) = none := if_neg (by omega)
  have hrule : ∀ d : Dev, ruleAllows d (0x20 + 4 * k.val) v = true := fun d => by
    rw [ruleAllows, if_neg (by omega), if_neg (by omega)]
  have hplain : NoAftermath (0x20 + 4 * k.val) := ⟨by omega, by omega, by omega, by omega, by omega⟩
  have hwrite : portWrite s.dram s.dev (0x20 + 4 * k.val) v =
      (s.dram, answerWrite (rset (setHold s.dev .host none) (0x20 + 4 * k.val) v) true) := by
    rw [(onlyFields_scratch k).portWrite_eq hpin (served_below_tclk (by omega)),
      plainWrite_stores (fs := [⟨31, 0, .rw, 0, .h⟩]) (by rw [anyWritable, fieldsAt_scratch]; rfl) (by rw [hasForeign, fieldsAt_scratch]; rfl)
        (by rw [openFields, fieldsAt_scratch]; rfl) (List.cons_ne_nil _ _) (hrule _), hplain.storeWrite_eq, putFields_whole]
  refine ends_registerWrite (d := answerWrite (rset (setHold s.dev .host none) (0x20 + 4 * k.val) v) true) ?_ ⟨?_, rfl, ?_⟩
  · rw [hoff, writeMet_of_no_port hport]
    exact hwrite
  · rw [answerWrite, rget_answer, rget_rset]
  · intro off hne
    rw [answerWrite, rget_answer, rget_rset_ne _ _ _ _ hne]
    rfl

/-! ## DLQ_PORT_ERRn (R30, R148) -/

/-- A host write of DLQ_PORT_ERRn clears the bits that are written 1. -/
theorem portWrite_portErr (n : Fin 16) {m : SMap DLine} {d : Dev} (hs : hostServed d (0x2040 + 4 * n.val)) (v : Word) :
    portWrite m d (0x2040 + 4 * n.val) v = (m, answerWrite (rset (setHold d .host none) (0x2040 + 4 * n.val)
      (putFields errFields (rget d (0x2040 + 4 * n.val)) v)) true) := by
  have hrule : ∀ d : Dev, ruleAllows d (0x2040 + 4 * n.val) v = true := fun d => by
    rw [ruleAllows, if_neg (by omega), if_neg (by omega)]
  have hplain : NoAftermath (0x2040 + 4 * n.val) := ⟨by omega, by omega, by omega, by omega, by omega⟩
  rw [(onlyFields_portErr n).portWrite_eq hs.1 hs.2,
    plainWrite_stores (fs := errFields) (by rw [anyWritable, fieldsAt_portErr]; rfl) (by rw [hasForeign, fieldsAt_portErr]; rfl)
      (by rw [openFields, fieldsAt_portErr]; rfl) (List.cons_ne_nil _ _) (hrule _), hplain.storeWrite_eq]
  rfl

theorem served_congr {d e : Dev} (h : d.pins = e.pins) (off : Nat) : served d off = served e off := by simp only [served, h]

theorem host_write_portErr (n : Fin 16) (v : Word) (met : List PortErr) (s : State) (hs : hostServed s.dev (0x2040 + 4 * n.val))
    (hrst : s.dev.pins.rstAsserted = false) :
    EndsDev (.registerWrite (BitVec.ofNat 24 (0x2040 + 4 * n.val)) ⟨.host v, met⟩) s fun d => okay d ∧
      (∀ k, k < 6 → (rget d (0x2040 + 4 * n.val)).getLsbD k =
        (((rget s.dev (0x2040 + 4 * n.val)).getLsbD k && !v.getLsbD k) || met.any fun e => e.kind.val = k)) ∧
      (met ≠ [] → isPending d Ev.PORT_PROTOCOL) ∧
      (∀ e es, met = e :: es → rbits s.dev (0x2040 + 4 * n.val) 5 0 = 0 →
        rbits d (0x2040 + 4 * n.val) 31 24 = e.tag.toNat ∧ rbits d (0x2040 + 4 * n.val) 18 16 = e.kind.val) ∧
      d.txns = s.dev.txns := by
  have hoff : (BitVec.ofNat 24 (0x2040 + 4 * n.val)).toNat = 0x2040 + 4 * n.val := Nat.mod_eq_of_lt (by omega)
  obtain ⟨hpins, htxns⟩ := portErrors_pins_txns n.val met s.dev
  have hmet := rget_portErrors n.val met s.dev
  have hpend := isPending_portErrors n.val met s.dev
  have hmeet := writeMet_portErr n hrst s.dram (.host v) met
  generalize portErrors n.val met s.dev = e at *
  have hse : hostServed e (0x2040 + 4 * n.val) := ⟨hpins ▸ hs.1, (served_congr hpins _).trans hs.2⟩
  have hwrite : writeBy s.dram e (0x2040 + 4 * n.val) (.host v) = _ := portWrite_portErr n hse v
  rw [hmet] at hwrite
  rw [hwrite] at hmeet
  refine ends_registerWrite (by rw [hoff]; exact hmeet) ?_
  have hpendoff : irqPend ((Ev.PORT_PROTOCOL - 0x100) / 32) ≠ 0x2040 + 4 * n.val := by
    have : irqPend ((Ev.PORT_PROTOCOL - 0x100) / 32) = 0x90 := rfl
    omega
  generalize 0x2040 + 4 * n.val = off at *
  dsimp only
  rw [answerWrite, rget_answer, rget_rset]
  refine ⟨rfl, fun k hk => ?_, fun hne => ?_, fun e es hes h0 => ?_, htxns⟩
  · rw [rget_rset]
    exact getLsbD_metAndCleared met v _ hk
  · rw [isPending, rget_rset_ne _ _ _ _ hpendoff, rget_answer, rget_rset_ne _ _ _ _ hpendoff]
    exact hpend hne
  · subst hes
    obtain ⟨htag, hkind⟩ := bits_withErrors_first h0 e es
    rw [rbits, rbits, rget_rset]
    exact ⟨(bits_metAndCleared (e :: es) v _ (by omega) (by omega)).trans htag,
      (bits_metAndCleared (e :: es) v _ (by omega) (by omega)).trans hkind⟩

/-! ## DLT_SCHED_CTRL (R279) -/

/-- SCHED_CTRL_WRITE ends in what the host's write of the register leaves. -/
theorem ends_schedCtrlWrite {t : Fin 320} {v : Word} {s : State} {P : Dev → Prop} {d : Dev}
    (h : portWrite s.dram s.dev (tileOff t.val 0) v = (s.dram, d)) (hP : P d) : EndsDev (.schedCtrlWrite t v) s P := by
  refine ⟨d, ?_, hP⟩
  change onMem s (fun m d => portWrite m d (tileOff t.val 0) v) = _
  simp only [onMem, h]

section SchedCtrl
variable (t : Fin 320) {v : Word}

/-- HWM 1 to 96 with LWM below it. -/
theorem ruleAllows_schedCtrl (d : Dev) : ruleAllows d (tileOff t.val 0) v =
    decide (1 ≤ bits v 6 0 ∧ bits v 6 0 ≤ 96 ∧ bits v 14 8 < bits v 6 0) := by
  have hoff : tileOff t.val 0 = 0x100000 + 0x1000 * t.val := rfl
  rw [ruleAllows, hoff, if_neg (by omega), if_pos (by omega)]

theorem bits_putFields_schedCtrl (cur : Word) :
    bits (putFields [⟨14, 8, .rw, 0x18, .h⟩, ⟨6, 0, .rw, 0x48, .h⟩] cur v) 6 0 = bits v 6 0 ∧
    bits (putFields [⟨14, 8, .rw, 0x18, .h⟩, ⟨6, 0, .rw, 0x48, .h⟩] cur v) 14 8 = bits v 14 8 := by
  simp only [putFields, List.foldl_cons, List.foldl_nil, putField]
  constructor
  · rw [bits_setBits _ (by omega), Nat.mod_eq_of_lt (bits_lt _ _ _)]
  · rw [bits_setBits_apart _ (by omega) _ (.inl (by omega)), bits_setBits _ (by omega), Nat.mod_eq_of_lt (bits_lt _ _ _)]

variable {s : State} (hs : hostServed s.dev (tileOff t.val 0))
include hs

theorem schedCtrl_stored (hrule : 1 ≤ bits v 6 0 ∧ bits v 6 0 ≤ 96 ∧ bits v 14 8 < bits v 6 0) :
    EndsDev (.schedCtrlWrite t v) s fun d => hwm d t.val = bits v 6 0 ∧ lwm d t.val = bits v 14 8 ∧ okay d := by
  have hoff : tileOff t.val 0 = 0x100000 + 0x1000 * t.val := rfl
  have hplain : NoAftermath (tileOff t.val 0) := ⟨by omega, by omega, by omega, by omega, by omega⟩
  have hwrite := (onlyFields_schedCtrl t).portWrite_eq hs.1 hs.2 s.dram v
  rw [plainWrite_stores (fs := [⟨14, 8, .rw, 0x18, .h⟩, ⟨6, 0, .rw, 0x48, .h⟩]) (by rw [anyWritable, fieldsAt_schedCtrl]; rfl)
    (by rw [hasForeign, fieldsAt_schedCtrl]; rfl) (by rw [openFields, fieldsAt_schedCtrl]; rfl) (List.cons_ne_nil _ _)
    (by rw [ruleAllows_schedCtrl, decide_eq_true hrule]), hplain.storeWrite_eq] at hwrite
  obtain ⟨hhwm, hlwm⟩ := bits_putFields_schedCtrl (v := v) (rget (setHold s.dev .host none) (tileOff t.val 0))
  refine ends_schedCtrlWrite hwrite ⟨?_, ?_, rfl⟩
  · rw [hwm, rbits, answerWrite, rget_answer, rget_rset, hhwm]
  · rw [lwm, rbits, answerWrite, rget_answer, rget_rset, hlwm]

theorem schedCtrl_ignored (hrule : ¬(1 ≤ bits v 6 0 ∧ bits v 6 0 ≤ 96 ∧ bits v 14 8 < bits v 6 0)) :
    EndsDev (.schedCtrlWrite t v) s fun d => rget d (tileOff t.val 0) = rget s.dev (tileOff t.val 0) ∧ ignored d := by
  have hoff : tileOff t.val 0 = 0x100000 + 0x1000 * t.val := rfl
  have hwrite := (onlyFields_schedCtrl t).portWrite_eq hs.1 hs.2 s.dram v
  rw [plainWrite_ruled_out (fs := [⟨14, 8, .rw, 0x18, .h⟩, ⟨6, 0, .rw, 0x48, .h⟩]) (by rw [anyWritable, fieldsAt_schedCtrl]; rfl)
    (by rw [hasForeign, fieldsAt_schedCtrl]; rfl) (by rw [openFields, fieldsAt_schedCtrl]; rfl) (List.cons_ne_nil _ _)
    (by rw [ruleAllows_schedCtrl, decide_eq_false hrule])] at hwrite
  refine ends_schedCtrlWrite hwrite ⟨?_, rfl⟩
  rw [answerWrite, rget_answer, logIgnored, rget_lint_ne _ _ _ _ _ _ (by omega) (by omega)]
  rfl

end SchedCtrl

end Sys2Proof.Machine

section
open Sys2Proof.Machine Sys2Proof.Claims

/-- Settles O59, register by register: the plain write stores the fields of their owner (R31, R32), the merged one the manager's value
with CONFLICT (R34, R476), DLQ_PORT_ERRn ends with the bits of the MCLK's errors set (R30, R148), and R279 decides for DLT_SCHED_CTRL. -/
theorem writesFollowTheirOwners : Obligations.WritesFollowTheirOwners :=
  ⟨host_write_demand, manager_write_demand, both_write_grant, host_write_scratch, host_write_portErr,
    fun t _ _ hs => ⟨schedCtrl_stored t hs, schedCtrl_ignored t hs⟩⟩

end
end

section
/-!
The time base: no operation that one TCLK runs writes the cycle count. A lemma per operation, from the shared updates up to the
parts of `tickDev`, in the order of the model's files; the addition at the end of `tickDev` is then the count's only change (log
entry 2).
-/
namespace Sys2Proof.Machine

/-! ## Repetition -/

/-- Where no step of a fold changes the cycle count, the fold leaves it. -/
theorem foldl_cycle {α : Type} {f : Dev → α → Dev} (h : ∀ d a, (f d a).cycle = d.cycle) (l : List α) (d : Dev) :
    (l.foldl f d).cycle = d.cycle := by
  induction l generalizing d with
  | nil => rfl
  | cons a l ih => rw [List.foldl_cons, ih, h]

/-- The same for one operation done a number of times. The operation is `f` at a fixed argument, so that the kernel has a variable to
compare where a use of this would make it unfold the operation. -/
theorem iter_cycle {α : Type} {f : Dev → α → Dev} {a : α} (h : ∀ d, (f d a).cycle = d.cycle) (n : Nat) (d : Dev) :
    (iter n (fun _ e => f e a) d).cycle = d.cycle :=
  foldl_cycle (fun e _ => h e) _ d

/-- A choice between two instances leaves the cycle count where either does. -/
theorem ite_cycle {c : Prop} [Decidable c] {d e f : Dev} (he : e.cycle = d.cycle) (hf : f.cycle = d.cycle) :
    (if c then e else f).cycle = d.cycle := by
  split
  · exact he
  · exact hf

/-- The memory of lines that stands beside an instance plays no part in its cycle count. -/
theorem pair_cycle {m : SMap DLine} {d e : Dev} (h : e.cycle = d.cycle) : ((m, e) : SMap DLine × Dev).2.cycle = d.cycle := h

/-! ## Updates of one part of the instance -/

section Parts
variable (d : Dev)

@[simp] theorem onBoot_cycle (f : Boot → Boot) : (onBoot d f).cycle = d.cycle := rfl
@[simp] theorem onPins_cycle (f : Pins → Pins) : (onPins d f).cycle = d.cycle := rfl
@[simp] theorem onEnergy_cycle (f : Energy → Energy) : (onEnergy d f).cycle = d.cycle := rfl
@[simp] theorem onStaged_cycle (i : Nat) (f : Staged → Staged) : (onStaged d i f).cycle = d.cycle := rfl
@[simp] theorem onLayers_cycle (except : List Nat) (f : Layer → Layer) : (onLayers d except f).cycle = d.cycle := rfl
@[simp] theorem putWay_cycle (l : Loc) (w : Nat) (x : Way) : (putWay d l w x).cycle = d.cycle := rfl
@[simp] theorem maintStart_cycle (op : Nat) : (maintStart d op).cycle = d.cycle := rfl
@[simp] theorem addJob_cycle (j : Job) : (addJob d j).cycle = d.cycle := rfl
@[simp] theorem post_cycle (m prio : Nat) (u : UnitOp) (l : Loc) (bolt : Nat) : (post d m prio u l bolt).cycle = d.cycle := rfl
@[simp] theorem liftWrite_cycle (ll : Loc) (x : DLine) : (liftWrite d ll x).cycle = d.cycle := rfl
@[simp] theorem useLeases_cycle (s : Staged) : (useLeases d s).cycle = d.cycle := rfl
@[simp] theorem sendBeat_cycle (s : Staged) : (sendBeat d s).cycle = d.cycle := rfl
@[simp] theorem linkTx_cycle (bs : List MsgBody) : (linkTx d bs).cycle = d.cycle := rfl
@[simp] theorem doPre_cycle (t bank at_ : Nat) : (doPre d t bank at_).cycle = d.cycle := rfl

@[simp] theorem rmax_cycle (off n : Nat) : (rmax d off n).cycle = d.cycle := by
  fun_cases rmax <;> simp

end Parts

/-! ## Faults of the SRAMs and the maps beside the lines (R184, R351, R359, R374) -/

section Maps
variable (d : Dev)

@[simp] theorem pressError_cycle (kind : Nat) (dirty : Bool) (tile set way : Nat) :
    (pressError d kind dirty tile set way).cycle = d.cycle := by
  have hraised : (raise (rinc d 0x6030 1) Ev.PRESS_SRAM).cycle = d.cycle := (raise_cycle ..).trans (rinc_cycle ..)
  unfold pressError
  exact ite_cycle hraised ((rset_cycle ..).trans hraised)

@[simp] theorem checkWay_cycle (l : Loc) (w : Nat) : (checkWay d l w).cycle = d.cycle := by
  fun_cases checkWay <;> simp

@[simp] theorem checkEntry_cycle (l : Loc) : (checkEntry d l).cycle = d.cycle := by
  fun_cases checkEntry <;> simp

@[simp] theorem blankLook_cycle (bolt : Nat) : (blankLook d bolt).cycle = d.cycle := by
  fun_cases blankLook
  · rfl
  · rfl
  · exact (lint_cycle ..).trans (raise_cycle ..)

@[simp] theorem blankLookAll_cycle : (blankLookAll d).cycle = d.cycle := foldl_cycle (fun _ _ => blankLook_cycle _ _) _ d

@[simp] theorem putMend_cycle (bolt : Nat) (v : Bool) : (putMend d bolt v).cycle = d.cycle := by
  fun_cases putMend <;> rfl

theorem withDouble_cycle {f : Dev → Dev} (h : ∀ d, (f d).cycle = d.cycle) (p : Nat) : (withDouble p f d).cycle = d.cycle := by
  fun_cases withDouble
  · exact (raise_cycle ..).trans (h d)
  · exact h d

@[simp] theorem markBolt_cycle (bolt : Nat) (v : Bool) : (markBolt d bolt v).cycle = d.cycle := by
  fun_cases markBolt
  · rfl
  · exact withDouble_cycle d (fun e => putMend_cycle e bolt v) _

@[simp] theorem mendLook_cycle (bolt : Nat) : (mendLook d bolt).cycle = d.cycle := by
  fun_cases mendLook
  case case3 w fixed _ d1 =>
    have hmarked : d1.cycle = fixed.cycle := foldl_cycle (fun e i => markBolt_cycle e _ true) _ fixed
    simp [hmarked, fixed]
  all_goals rfl

@[simp] theorem setMend_cycle (bolt : Nat) (v : Bool) : (setMend d bolt v).cycle = d.cycle := by simp [setMend]

@[simp] theorem outLook_cycle (st : Stripe) : (outLook d st).cycle = d.cycle := by
  fun_cases outLook <;> simp

@[simp] theorem lineDropped_cycle (l : Loc) (bolt : Nat) : (lineDropped d l bolt).cycle = d.cycle := by simp [lineDropped]

end Maps

/-! ## Jobs of a panel, and what a new line does to them -/

section Jobs
variable (d : Dev)

@[simp] theorem dropJob_cycle (id : Nat) : (dropJob d id).cycle = d.cycle := by
  fun_cases dropJob <;> simp

@[simp] theorem restartColumn_cycle (l : Loc) : (restartColumn d l).cycle = d.cycle := by
  fun_cases restartColumn <;> simp

@[simp] theorem restale_cycle (l : Loc) (by_ : Option Nat) : (restale d l by_).cycle = d.cycle := by
  fun_cases restale
  case case3 => rfl
  all_goals
    refine foldl_cycle (fun e i => ?_) _ d
    split
    · exact ite_cycle rfl rfl
    · rfl

@[simp] theorem addHam_cycle (k : EKind) (l : Loc) (bolt : Nat) (x : DLine) (verify : Bool) (by_ : Option Nat) :
    (addHam d k l bolt x verify by_).cycle = d.cycle := by
  unfold addHam
  exact (restartColumn_cycle ..).trans (ite_cycle (restale_cycle ..) rfl)

@[simp] theorem jobGot_cycle (j slot : Nat) (x : DLine) (k : Check) : (jobGot d j slot x k).cycle = d.cycle := by
  fun_cases jobGot <;> simp

@[simp] theorem issueDirect_cycle (id slot : Nat) : (issueDirect id d slot).cycle = d.cycle := by
  fun_cases issueDirect <;> simp

@[simp] theorem kickJob_cycle (id : Nat) : (kickJob d id).cycle = d.cycle := by
  fun_cases kickJob
  case case6 j _ _ _ d1 _ _ =>
    have hraised : d1.cycle = d.cycle := ite_cycle (raise_cycle ..) rfl
    exact (foldl_cycle (fun e slot => issueDirect_cycle e id slot) _ d1).trans hraised
  all_goals rfl

@[simp] theorem startJob_cycle (j : Job) : (startJob d j).cycle = d.cycle := by simp [startJob]

@[simp] theorem mirror_cycle (l : Loc) (x : DLine) : (mirror d l x).cycle = d.cycle := by
  fun_cases mirror <;> simp

@[simp] theorem dataHam_cycle (st : Stripe) (k : EKind) (l : Loc) (bolt : Nat) (x : DLine) (verify : Bool) :
    (dataHam d st k l bolt x verify).cycle = d.cycle := by
  fun_cases dataHam <;> simp +zetaDelta

@[simp] theorem writeLine_cycle (k : EKind) (l : Loc) (bolt : Nat) (x : DLine) (verify : Bool) :
    (writeLine d k l bolt x verify).cycle = d.cycle := by
  fun_cases writeLine <;> simp +zetaDelta

@[simp] theorem writeBoltMember_cycle (st : Stripe) (bolt : Nat) (e : Nat × DLine) : (writeBoltMember st bolt d e).cycle = d.cycle := by
  fun_cases writeBoltMember <;> simp

@[simp] theorem writeWholeBolt_cycle (st : Stripe) (f : Nat → Nat → LineData × Bool) : (writeWholeBolt d st f).cycle = d.cycle := by
  simp [writeWholeBolt, foldl_cycle]

theorem writeBack_cycle {d e : Dev} {l : Loc} {bolt : Nat} {data : LineData} {poison : Bool}
    (h : writeBack d l bolt data poison = some e) : e.cycle = d.cycle := by
  have hlooked : (blankLook d bolt).cycle = d.cycle := blankLook_cycle d bolt
  unfold writeBack at h
  split at h
  · dsimp only at h
    split at h
    · obtain ⟨-, hline⟩ := Option.ite_none_right_eq_some.mp h
      exact Option.some.inj hline ▸ (raise_cycle ..).trans ((writeLine_cycle ..).trans hlooked)
    · obtain ⟨-, hbolt⟩ := Option.ite_none_right_eq_some.mp h
      exact Option.some.inj hbolt ▸ (raise_cycle ..).trans ((writeWholeBolt_cycle ..).trans hlooked)
  · cases h

end Jobs

/-! ## The maintenance sweep (R179 to R181) -/

section Sweep
variable (d : Dev)

@[simp] theorem sweepLine_cycle (op : Nat) (l : Loc) : (sweepLine op d l).cycle = d.cycle := by
  have hchecked : (checkEntry d l).cycle = d.cycle := checkEntry_cycle d l
  fun_cases sweepLine
  case case1 => rfl
  case case5 h =>
    obtain ⟨-, hback⟩ := Option.ite_none_right_eq_some.mp h
    have hwritten := (writeBack_cycle hback).trans hchecked
    exact ite_cycle hwritten hwritten
  all_goals exact hchecked

@[simp] theorem sweepTile_cycle (op due t : Nat) : (sweepTile op due d t).cycle = d.cycle := by
  have hset (i : Nat) : (if i < 1024 then (setLocs d t i).foldl (sweepLine op) d else d).cycle = d.cycle :=
    ite_cycle (foldl_cycle (fun e l => sweepLine_cycle e op l) _ d) rfl
  fun_cases sweepTile
  · rfl
  · rfl
  · exact hset _
  · exact hset _

@[simp] theorem sweepTick_cycle : (sweepTick d).cycle = d.cycle := by
  fun_cases sweepTick
  · rfl
  · exact foldl_cycle (fun e t => sweepTile_cycle e _ _ t) _ d

end Sweep

/-! ## The lanes of Mangle (R221) -/

section Lanes
variable (d : Dev)

@[simp] theorem dispatch_cycle (n t : Nat) : (dispatch n d t).cycle = d.cycle := by
  induction n generalizing d with
  | zero => rfl
  | succ n ih =>
    rw [dispatch]
    refine ite_cycle rfl ?_
    split
    · rw [ih, sendBeat_cycle]
    · rfl

@[simp] theorem laneFill_cycle : (laneFill d).cycle = d.cycle := by
  fun_cases laneFill
  · rfl
  · exact foldl_cycle (fun e t => dispatch_cycle e 16 t) _ d

@[simp] theorem enterBeat_cycle (s : Staged) : (enterBeat d s).cycle = d.cycle := by
  unfold enterBeat
  extract_lets d0 cyc d1 m d2
  have hsent : d0.cycle = d.cycle := ite_cycle (sendBeat_cycle d s) rfl
  have hentered : d1.cycle = d.cycle := (useLeases_cycle ..).trans ((onStaged_cycle ..).trans hsent)
  rw [rmax_cycle, eCount_cycle, raise_cycle]
  exact hentered

@[simp] theorem laneCycle_cycle (t : Nat) : (laneCycle d t).cycle = d.cycle := by
  unfold laneCycle
  extract_lets n m d1
  have hbusy : d1.cycle = d.cycle := ite_cycle rfl rfl
  refine ite_cycle hbusy ?_
  split
  · rw [laneFill_cycle, enterBeat_cycle, hbusy]
  · exact hbusy

@[simp] theorem laneTime_cycle : (laneTime d).cycle = d.cycle := by
  unfold laneTime
  refine ite_cycle rfl (ite_cycle ?_ (laneFill_cycle _))
  exact (foldl_cycle laneCycle_cycle _ _).trans (laneFill_cycle _)

end Lanes

/-! ## The counts of time (R217, R282, R303, R308, R309, R428) -/

section Counts
variable (d : Dev)

@[simp] theorem stagingTime_cycle : (stagingTime d).cycle = d.cycle := by
  fun_cases stagingTime <;> simp

@[simp] theorem masterTime_cycle (m : Nat) : (masterTime d m).cycle = d.cycle := by
  unfold masterTime
  exact ite_cycle (raise_cycle ..) rfl

@[simp] theorem tileTime_cycle (t : Nat) : (tileTime d t).cycle = d.cycle := by
  unfold tileTime
  exact ite_cycle (raiseN_cycle ..) (raiseN_cycle ..)

@[simp] theorem arbTime_cycle (t : Nat) : (arbTime d t).cycle = d.cycle := by
  unfold arbTime
  exact ite_cycle rfl (ite_cycle (rinc_cycle ..) ((rinc_cycle ..).trans (rinc_cycle ..)))

end Counts

/-! ## The die link -/

theorem SameButLink.cycle_eq {d e : Dev} (h : SameButLink d e) : e.cycle = d.cycle := by
  obtain ⟨l, n, rfl⟩ := h; rfl

/-- Messages that leave the held list touch the die link alone. -/
theorem sameButLink_sendHeld (d : Dev) : SameButLink d (sendHeld d) :=
  (sameButLink_pumpAll d.link.held (d, [])).trans (.withLink _ _)

@[simp] theorem linkTime_cycle (d : Dev) (j : Nat) : (linkTime d j).cycle = d.cycle := by
  unfold linkTime
  exact (sameButLink_sendHeld _).cycle_eq.trans ((linkTx_cycle ..).trans (setLink_cycle ..))

/-! ## Refreshes, and the entry into self-refresh (R502) -/

section Sleep
variable (d : Dev) (t : Nat)

@[simp] theorem doRefresh_cycle (target at_ : Nat) : (doRefresh d t target at_).cycle = d.cycle := raise_cycle ..

@[simp] theorem refreshAt_cycle (at_ target : Nat) : (refreshAt at_ t d target).cycle = d.cycle := by
  unfold refreshAt
  refine (doRefresh_cycle ..).trans ((foldl_cycle (fun e b => ?_) _ _).trans (onChan_cycle ..))
  exact ite_cycle (doPre_cycle ..) rfl

@[simp] theorem issueDue_cycle (at_ : Nat) : (issueDue d t at_).cycle = d.cycle := by
  unfold issueDue
  exact (foldl_cycle (fun e target => refreshAt_cycle e t at_ target) _ _).trans
    (ite_cycle (onChan_cycle ..) ((rinc_cycle ..).trans (onChan_cycle ..)))

@[simp] theorem repayAll_cycle (rank : Nat) : (repayAll d t rank).cycle = d.cycle := by
  unfold repayAll
  exact (iter_cycle (f := refreshAt 0 t) (fun e => refreshAt_cycle e t 0 rank) _ _).trans (onChan_cycle ..)

@[simp] theorem sleepTile_cycle : (sleepTile d t).cycle = d.cycle := by
  unfold sleepTile pauseTile
  exact (foldl_cycle (fun e r => (onChan_cycle ..).trans (repayAll_cycle e t r)) _ _).trans
    ((issueDue_cycle ..).trans (onChan_cycle ..))

@[simp] theorem sleepAll_cycle : (sleepAll d).cycle = d.cycle := by
  unfold sleepAll
  rw [onLayers_cycle]
  exact foldl_cycle sleepTile_cycle _ d

@[simp] theorem sleepDone_cycle : (sleepDone d).cycle = d.cycle := by
  fun_cases sleepDone <;> simp +zetaDelta

end Sleep

/-! ## A running warm entry (R501, R503) -/

section Entry
variable (d : Dev)

@[simp] theorem nextWalk_cycle (p : Nat) : (nextWalk d p).cycle = d.cycle := by
  fun_cases nextWalk <;> simp +zetaDelta

@[simp] theorem startReturn_cycle (t : Nat) : (startReturn d t).cycle = d.cycle :=
  (nextWalk_cycle ..).trans ((setPanel_cycle ..).trans (onSvc_cycle ..))

@[simp] theorem returnHeld_cycle : (returnHeld d).cycle = d.cycle := by
  refine foldl_cycle (fun e t => ?_) _ d
  split <;> simp

@[simp] theorem ledgerPost_cycle (t off n v : Nat) : (ledgerPost t off n v d).cycle = d.cycle := by
  unfold ledgerPost
  exact (foldl_cycle (fun e i => post_cycle ..) _ _).trans (onSvc_cycle ..)

@[simp] theorem ledgerResume_cycle (t : Nat) : (ledgerResume d t).cycle = d.cycle := by
  fun_cases ledgerResume <;> simp

@[simp] theorem saveLedger_cycle (s : SMap DLine × Dev) : (saveLedger s).2.cycle = s.2.cycle := by
  simp [saveLedger, foldl_cycle]

/-- E2 of R501: the return of the tiles that are held, and then the clean of the Press. -/
theorem entryStep_quiesce (h : d.boot.warmState = 1) (m : SMap DLine) : entryStep m d =
    if isQuiesced (returnHeld d) && (returnHeld d).maint = 0 then
      (m, onBoot (maintStart (returnHeld d) 1) fun b => { b with warmState := 2 })
    else (m, returnHeld d) := by
  simp only [entryStep, h]

@[simp] theorem entryStep_cycle (m : SMap DLine) : (entryStep m d).2.cycle = d.cycle := by
  by_cases hquiesce : d.boot.warmState = 1
  · have hback : (returnHeld d).cycle = d.cycle := returnHeld_cycle d
    rw [entryStep_quiesce d hquiesce]
    split
    · exact pair_cycle ((onBoot_cycle ..).trans ((maintStart_cycle ..).trans hback))
    · exact pair_cycle hback
  · unfold entryStep
    split
    · exact absurd ‹_› hquiesce
    · split
      · exact (saveLedger_cycle _).trans (onBoot_cycle ..)
      · rfl
    · exact pair_cycle (ite_cycle (onBoot_cycle ..) rfl)
    · exact pair_cycle (ite_cycle (sleepDone_cycle d) (sleepAll_cycle d))
    · rfl

end Entry

/-! ## One TCLK -/

/-- While the logic is held in reset, or the core clock does not run, a TCLK changes nothing (R478). -/
theorem tick_stopped {s : State} (h : s.dev.pins.rstAsserted = true ∨ s.dev.pins.pllCore = false) : tick s = s := by
  simp [tick, tickDev, h]

/-- Otherwise it advances the cycle count by one. -/
theorem tick_cycle {s : State} (hrst : s.dev.pins.rstAsserted = false) (hpll : s.dev.pins.pllCore = true) :
    (tick s).dev.cycle = s.dev.cycle + 1 := by
  simp only [tick, tickDev, hrst, hpll, Bool.not_true, Bool.or_self, Bool.false_eq_true, if_false, entryStep_cycle, linkTime_cycle,
    foldl_cycle arbTime_cycle, foldl_cycle tileTime_cycle, laneTime_cycle, sweepTick_cycle, foldl_cycle masterTime_cycle,
    stagingTime_cycle, raise_cycle]

@[simp] theorem tick_fuses (s : State) : (tick s).fuses = s.fuses := rfl
@[simp] theorem tick_pending (s : State) : (tick s).pending = s.pending := rfl

/-- With no command waiting a step is one TCLK (log entry 2). -/
theorem step_of_pending_nil {s : State} (h : s.pending = []) : step s = .next (tick s) := by
  simp [step, h]

end Sys2Proof.Machine

section
open Sys2Proof.Machine

/-- Settles O3: the step is `tick`, which changes nothing while the clock does not run; otherwise its parts leave the cycle count,
and the addition at its end is the only change of it. -/
theorem emptyQueueIsOneCycle : Obligations.EmptyQueueIsOneCycle := by
  intro s hempty
  rw [step_of_pending_nil hempty]
  refine ⟨fun hstopped => by rw [tick_stopped hstopped], fun hrst hpll => ?_⟩
  exact ⟨tick s, rfl, tick_cycle hrst hpll, tick_fuses s, (tick_pending s).trans hempty⟩

end
end

section
/-!
The fold of a row group to its place (R84) and back (R103). In every order the panel number, the bank coordinate and the usable
row are the three digits of the row group in a mixed radix; order 1 also scrambles the low bits of the bank with those of the row.
-/
namespace Sys2Proof.Machine

/-! ## Digits in a mixed radix -/

theorem mixedDigits_lt {a b c g : Nat} (hg : g < c * (a * b)) : g % a < a ∧ g / a % b < b ∧ g / (a * b) < c := by
  have hpos : 0 < a * b := Nat.pos_of_mul_pos_left (Nat.zero_lt_of_lt hg)
  exact ⟨Nat.mod_lt _ (Nat.pos_of_mul_pos_right hpos), Nat.mod_lt _ (Nat.pos_of_mul_pos_left hpos), Nat.div_lt_of_lt_mul (by rwa [mul_comm])⟩

theorem mixedDigits_join (a b g : Nat) : (g / (a * b) * b + g / a % b) * a + g % a = g := by
  rw [← Nat.div_div_eq_div_mul, Nat.div_add_mod', Nat.div_add_mod']

/-! ## The scrambled bank of order 1 -/

theorem xor_low_lt (k w : Nat) : Nat.xor (k % 16) (w % 16) < 16 :=
  Nat.xor_lt_two_pow (n := 4) (Nat.mod_lt k (by decide)) (Nat.mod_lt w (by decide))

/-- The low four bits are xored, and the others stay. -/
theorem xorLow_div_mod (k w : Nat) : xorLow k w / 16 = k / 16 ∧ xorLow k w % 16 = Nat.xor (k % 16) (w % 16) := by
  have hlow := xor_low_lt k w
  unfold xorLow
  omega

theorem xorLow_xorLow (k w : Nat) : xorLow (xorLow k w) w = k := by
  obtain ⟨hhigh, hlow⟩ := xorLow_div_mod k w
  calc xorLow (xorLow k w) w
    _ = k / 16 * 16 + Nat.xor (Nat.xor (k % 16) (w % 16)) (w % 16) := by rw [xorLow, hhigh, hlow]
    _ = k / 16 * 16 + k % 16 := congrArg (k / 16 * 16 + ·) (Nat.xor_xor_cancel_right (k % 16) (w % 16))
    _ = k := Nat.div_add_mod' k 16

/-- A scrambled bank stays in a region whose number of banks is a multiple of 16. -/
theorem xorLow_lt {nb k : Nat} (hnb : 16 ∣ nb) (hk : k < nb) (w : Nat) : xorLow k w < nb := by
  obtain ⟨hhigh, -⟩ := xorLow_div_mod k w
  omega

theorem sixteen_dvd_nbOf (far : Bool) : 16 ∣ nbOf far := by
  cases far <;> decide

/-! ## The fold -/

/-- A row group's place lies in the region, and `unfoldGroup` leads back from it. -/
theorem foldGroup_spec (order : Nat) {np nb nw g : Nat} (hnb : 16 ∣ nb) (hg : g < np * nb * nw) :
    let f := foldGroup order np nb nw g
    f.1 < np ∧ f.2.1 < nb ∧ f.2.2 < nw ∧ unfoldGroup order np nb nw f.1 f.2.1 f.2.2 = g := by
  match order with
  | 0 =>
    obtain ⟨hbank, hrow, hpanel⟩ := mixedDigits_lt (a := nb) (b := nw) (mul_assoc np nb nw ▸ hg)
    exact ⟨hpanel, hbank, hrow, mixedDigits_join nb nw g⟩
  | 1 =>
    obtain ⟨hbank, hrow, hpanel⟩ := mixedDigits_lt (a := nb) (b := nw) (mul_assoc np nb nw ▸ hg)
    refine ⟨hpanel, xorLow_lt hnb hbank _, hrow, ?_⟩
    simp only [foldGroup, unfoldGroup, xorLow_xorLow, mixedDigits_join]
  | 2 =>
    obtain ⟨hrow, hbank, hpanel⟩ := mixedDigits_lt (a := nw) (b := nb) (mul_comm nb nw ▸ mul_assoc np nb nw ▸ hg)
    exact ⟨hpanel, hbank, hrow, mixedDigits_join nw nb g⟩
  | _ + 3 =>
    obtain ⟨hpanel, hbank, hrow⟩ := mixedDigits_lt (a := np) (b := nb) (mul_comm (np * nb) nw ▸ hg)
    exact ⟨hpanel, hbank, hrow, mixedDigits_join np nb g⟩

end Sys2Proof.Machine

section
open Sys2Proof.Machine

/-- Settles O14: each order reads the three digits of the row group in a mixed radix, and the inverse joins them again; in order 1
the scrambling of the bank undoes itself. -/
theorem foldIsInvertible : Obligations.FoldIsInvertible :=
  fun order r _ hg => foldGroup_spec order.val (sixteen_dvd_nbOf (r.val != 0)) hg

end
end

section
/-!
The checks of the fold unit (R78): what holds of a request that goes on, and on what the decision depends.
-/
namespace Sys2Proof.Machine

/-! ## A request that goes on to memory -/

/-- The first and the last bolt are both among those that a request touches. -/
theorem mem_touchedBolts (b₀ b₁ : Nat) :
    b₀ ∈ (if b₀ = b₁ then [b₀] else [b₀, b₁]) ∧ b₁ ∈ (if b₀ = b₁ then [b₀] else [b₀, b₁]) := by
  split
  · simp [*]
  · simp

/-- A request goes on only past every check of R78: its first and last byte lie in one region of this instance, and neither the
bolt of the first nor that of the last is denied to its master. -/
theorem of_foldCheck_eq_local {d : Dev} {m : Nat} {k : Kind} {a : BitVec 34} {n r ia : Nat}
    (h : foldCheck d m k a n = .local r ia) :
    denies d m k (boltRange ia n).1 = none ∧ denies d m k (boltRange ia n).2 = none ∧
    regionOf ia = some r ∧ regionOf ((byteAddr a + n * 32 - 1) % 2 ^ 37) = some r ∧ slotOf a = d.boot.inst.toNat := by
  unfold foldCheck at h
  dsimp only at h
  split at h
  · cases h
  split at h
  · cases h
  split at h
  case h_2 => cases h
  rename_i r₀ r₁ hfirst hlast
  split at h
  · cases h
  rename_i hregion
  split at h
  · split at h <;> cases h
  rename_i hslot
  split at h
  · cases h
  split at h
  · cases h
  rename_i hclear
  cases h
  have hdenies := List.findSome?_eq_none_iff.mp hclear
  obtain ⟨hmemFirst, hmemLast⟩ := mem_touchedBolts (boltRange (byteAddr a % 2 ^ 37) n).1 (boltRange (byteAddr a % 2 ^ 37) n).2
  exact ⟨hdenies _ hmemFirst, hdenies _ hmemLast, hfirst, hlast.trans (congrArg some (not_not.mp hregion).symm), not_not.mp hslot⟩

end Sys2Proof.Machine

section
open Sys2Proof.Machine

/-- Settles O15: a request goes on only where no check of R78 answered or denied it. -/
theorem noAccessPastADenial : Obligations.NoAccessPastADenial :=
  fun _ _ _ _ _ _ _ _ hlocal => of_foldCheck_eq_local hlocal

end
end

section
/-!
A request that fails a check of the fold unit (R79). Admission changes nothing that the fold unit reads, so its decision is that of
the state before; and an answer reaches the port or the die link, never the memory.
-/
namespace Sys2Proof.Machine

/-! ## What a request without effect leaves -/

/-- `e` holds the same as `d` in its tiles (channels, Press), its Blank map and its Mend map, and the same bolt operations and jobs
wait in its panels. -/
structure SameMemory (d e : Dev) : Prop where
  tiles  : e.tiles = d.tiles
  blank  : e.blank = d.blank
  mend   : e.mend = d.mend
  panels : e.panels = d.panels
  jobs   : e.jobs = d.jobs

theorem SameMemory.refl (d : Dev) : SameMemory d d := ⟨rfl, rfl, rfl, rfl, rfl⟩

theorem SameMemory.trans {d e f : Dev} (h : SameMemory d e) (h' : SameMemory e f) : SameMemory d f :=
  ⟨h'.tiles.trans h.tiles, h'.blank.trans h.blank, h'.mend.trans h.mend, h'.panels.trans h.panels, h'.jobs.trans h.jobs⟩

section Answers
variable (d : Dev)

theorem sameMemory_rset (off : Nat) (v : Word) : SameMemory d (rset d off v) := ⟨rfl, rfl, rfl, rfl, rfl⟩

theorem sameMemory_rinc (off n : Nat) : SameMemory d (rinc d off n) := ⟨rfl, rfl, rfl, rfl, rfl⟩

theorem sameMemory_raise (e : Nat) (m b : Option Nat) : SameMemory d (raise d e m b) :=
  ⟨raise_tiles .., raise_blank .., raise_mend .., raise_panels .., raise_jobs ..⟩

theorem sameMemory_send (dst : Nat) (b : MsgBody) : SameMemory d (send d dst b) := by
  obtain ⟨l, n, h⟩ := sameButLink_send d dst b
  rw [h]
  exact ⟨rfl, rfl, rfl, rfl, rfl⟩

/-- A denial is counted, raised and captured in registers (R102). -/
theorem sameMemory_recordDenial (x : Txn) (source : Nat) : SameMemory d (recordDenial d x source) := by
  unfold recordDenial
  extract_lets a d₁ info
  have h₁ : SameMemory d d₁ := (sameMemory_rinc ..).trans (sameMemory_raise ..)
  split
  · exact h₁
  · exact h₁.trans (((sameMemory_rset ..).trans (sameMemory_rset ..)).trans (sameMemory_rset ..))

theorem recordDenial_txns (x : Txn) (source : Nat) : (recordDenial d x source).txns = d.txns := by
  unfold recordDenial
  extract_lets a d₁ info
  have h₁ : d₁.txns = d.txns := (raise_txns ..).trans (rinc_txns ..)
  split
  · exact h₁
  · exact (rset_txns ..).trans ((rset_txns ..).trans ((rset_txns ..).trans h₁))

/-- An answer goes to its port's buffer or, for a forwarded request, to the die link. -/
theorem sameMemory_answerOut (id : Nat) (c : Rsp) : SameMemory d (answerOut d id c) := by
  unfold answerOut
  split
  · exact .refl d
  · dsimp only
    split
    · split
      · exact ⟨rfl, rfl, rfl, rfl, rfl⟩
      · exact ⟨rfl, rfl, rfl, rfl, rfl⟩
    · exact (sameMemory_send d ..).trans ⟨rfl, rfl, rfl, rfl, rfl⟩
    · exact ⟨rfl, rfl, rfl, rfl, rfl⟩
    · exact ⟨rfl, rfl, rfl, rfl, rfl⟩

end Answers

/-- A transaction that is no transfer of M16 has no end but its answer. -/
theorem respond_eq_answerOut {d : Dev} {id : Nat} {x : Txn} (hx : getTxn d id = some x) (hsrc : ∀ g c, x.src ≠ .m16 g c) (c : Rsp) :
    respond d id c = answerOut d id c := by
  unfold respond
  rw [hx]
  dsimp only
  split
  · exact absurd ‹_› (hsrc _ _)
  · rfl

theorem sameMemory_respond {d : Dev} {id : Nat} {x : Txn} (hx : getTxn d id = some x) (hsrc : ∀ g c, x.src ≠ .m16 g c) (c : Rsp) :
    SameMemory d (respond d id c) :=
  respond_eq_answerOut hx hsrc c ▸ sameMemory_answerOut d id c

/-! ## What the fold unit reads -/

/-- Beside the memory, `e` holds the same as `d` in all that the fold unit reads: the registers of the fold and of the windows, from
0x4000 on, the instance's own slot, and the die link's peers. -/
structure SameFold (d e : Dev) : Prop extends SameMemory d e where
  boot : e.boot = d.boot
  link : e.link = d.link
  regs : ∀ off, 0x4000 ≤ off → rget e off = rget d off

theorem SameFold.refl (d : Dev) : SameFold d d := ⟨.refl d, rfl, rfl, fun _ _ => rfl⟩

theorem SameFold.trans {d e f : Dev} (h : SameFold d e) (h' : SameFold e f) : SameFold d f :=
  ⟨h.toSameMemory.trans h'.toSameMemory, h'.boot.trans h.boot, h'.link.trans h.link, fun off ho => (h'.regs off ho).trans (h.regs off ho)⟩

theorem SameFold.ite {c : Prop} [Decidable c] {d e f : Dev} (he : SameFold d e) (hf : SameFold d f) : SameFold d (if c then e else f) := by
  split
  · exact he
  · exact hf

section Decision
variable {d e : Dev} (h : SameFold d e)
include h

theorem SameFold.rbits_eq {off : Nat} (ho : 0x4000 ≤ off) (hi lo : Nat) : rbits e off hi lo = rbits d off hi lo :=
  congrArg (bits · hi lo) (h.regs off ho)

theorem SameFold.spillRange_eq : spillRange e = spillRange d := by
  simp (disch := omega) only [spillRange, h.rbits_eq]

theorem SameFold.liftRange_eq (n : Nat) : liftRange e n = liftRange d n := by
  simp (disch := omega) only [liftRange, h.regs]

theorem SameFold.denies_eq (m : Nat) (k : Kind) (b : Nat) : denies e m k b = denies d m k b := by
  simp (disch := omega) only [denies, h.spillRange_eq, h.liftRange_eq, h.regs, h.rbits_eq]

theorem SameFold.isAbsent_eq (i : Nat) : isAbsent e i = isAbsent d i := by
  simp only [isAbsent, getPeer, h.boot, h.link]

/-- The fold unit decides the same in both. -/
theorem SameFold.foldCheck_eq (m : Nat) (k : Kind) (a : BitVec 34) (n : Nat) : foldCheck e m k a n = foldCheck d m k a n := by
  have hdenies : denies e m k = denies d m k := funext (h.denies_eq m k)
  simp only [foldCheck, hdenies, h.isAbsent_eq, h.boot, h.link]

end Decision

/-! ## Admission (R282 to R291) -/

section Admission
variable (d : Dev)

theorem sameFold_setMaster (m : Nat) (x : Master) : SameFold d (setMaster d m x) := ⟨⟨rfl, rfl, rfl, rfl, rfl⟩, rfl, rfl, fun _ _ => rfl⟩

theorem sameFold_setPort (n : Nat) (p : Port) : SameFold d (setPort d n p) := ⟨⟨rfl, rfl, rfl, rfl, rfl⟩, rfl, rfl, fun _ _ => rfl⟩

theorem sameFold_setTxn (i : Nat) (x : Txn) : SameFold d (setTxn d i x) := ⟨⟨rfl, rfl, rfl, rfl, rfl⟩, rfl, rfl, fun _ _ => rfl⟩

theorem sameFold_eCount (owner cls n : Nat) : SameFold d (eCount d owner cls n) := ⟨⟨rfl, rfl, rfl, rfl, rfl⟩, rfl, rfl, fun _ _ => rfl⟩

theorem sameFold_raiseN (e k : Nat) (m b : Option Nat) : SameFold d (raiseN d e k m b) :=
  ⟨⟨raiseN_tiles .., raiseN_blank .., raiseN_mend .., raiseN_panels .., raiseN_jobs ..⟩, raiseN_boot .., raiseN_link ..,
    fun off ho => rget_raiseN_ne d e k off m b (by omega)⟩

theorem sameFold_raise (e : Nat) (m b : Option Nat) : SameFold d (raise d e m b) := sameFold_raiseN d e 1 m b

theorem sameFold_add64 {lo : Nat} (hlo : lo + 4 < 0x4000) (n : Nat) : SameFold d (add64 d lo n) := by
  obtain ⟨v, w, h⟩ := add64_eq d lo n
  rw [h]
  exact ⟨⟨rfl, rfl, rfl, rfl, rfl⟩, rfl, rfl, fun off ho =>
    (rget_rset_ne _ _ _ _ (by omega)).trans (rget_rset_ne _ _ _ _ (by omega))⟩

/-- A traffic class is a field of two bits (R301). -/
theorem trafficClass_lt (m : Nat) : trafficClass d m < 4 := by
  have hwidth (i : Nat) : i + 1 + 1 - i = 2 := by omega
  unfold trafficClass
  split
  · exact (bits_lt ..).trans_eq (by rw [hwidth]; rfl)
  · exact (bits_lt ..).trans_eq (by rw [hwidth]; rfl)

/-- A charge counts in the master, in counters, and in the byte counts of the traffic classes below 0x4000. -/
theorem sameFold_chargeAdmit (m units : Nat) (bolt : Option Nat) : SameFold d (chargeAdmit d m units bolt) := by
  unfold chargeAdmit
  extract_lets x demoted rest d₁ d₂ d₃ d₄
  have h₁ : SameFold d d₁ := sameFold_setMaster ..
  have h₂ : SameFold d d₂ := h₁.trans ((sameFold_eCount ..).trans (sameFold_eCount ..))
  have h₃ : SameFold d d₃ := h₂.trans ((sameFold_raise ..).trans (sameFold_raiseN ..))
  have h₄ : SameFold d d₄ := .ite (h₃.trans (sameFold_raise ..)) h₃
  have hclass := trafficClass_lt d₄ m
  exact .ite h₄ (h₄.trans (sameFold_add64 _ (by omega) _))

end Admission

/-- What REQUEST_ADMIT can do with the oldest request of a master: it stays queued, or it is admitted and the fold unit takes it. Up
to there nothing changes that the fold unit reads. -/
theorem admitHead_cases {d : Dev} {m id : Nat} {rest : List Nat} {x : Txn} (hqueue : (getMaster d m).queue = id :: rest)
    (hx : getTxn d id = some x) (hunit : x.src ≠ .unit) :
    SameFold d (admitHead d m).2 ∨
    ∃ e prio at_ reserved unsent, SameFold d e ∧ (admitHead d m).2 = foldTxn e id ∧
      getTxn e id = some { x with hasCredit := true, admitted := true, prio := prio, at_ := at_, reserved := reserved, unsent := unsent } := by
  generalize hr : (admitHead d m).2 = r
  unfold admitHead at hr
  simp -zeta only [hqueue, hx] at hr
  split at hr
  · exact .inl (hr ▸ .refl d)
  split at hr
  · exact .inl (hr ▸ .refl d)
  extract_lets d₁ x' isPort p d₂ isUnit prio bolt master d₃ d₄ d₅ at hr
  have h₁ : SameFold d d₁ := .ite (.refl d) (sameFold_setMaster ..)
  split at hr
  · exact .inl (hr ▸ h₁.trans (sameFold_setTxn ..))
  have h₂ : SameFold d d₂ := h₁.trans (.ite (sameFold_setPort ..) (.refl _))
  have h₃ : SameFold d d₃ := h₂.trans (sameFold_setMaster ..)
  have h₄ : SameFold d d₄ := h₃.trans (sameFold_chargeAdmit ..)
  have h₅ : SameFold d d₅ := h₄.trans (sameFold_setTxn ..)
  -- By `hunit` it is no access of an internal master, so the fold unit takes it.
  have hfold : foldTxn d₅ id = r := hr
  exact .inr ⟨d₅, _, _, _, _, h₅, hfold.symm, getTxn_setTxn d₄ id _⟩

/-! ## The fold unit's answers -/

section Fold
variable {d : Dev} {id : Nat} {x : Txn} (hx : getTxn d id = some x) (hmark : x.mark = none) (htub : x.kind.isTub = false)
include hx hmark htub

theorem foldTxn_of_answer {c : Rsp} (h : foldCheck d x.master x.kind x.addr x.sectors = .answer c) : foldTxn d id = respond d id c := by
  simp [foldTxn, hx, hmark, htub, h]

theorem foldTxn_of_deny {n : Nat} (h : foldCheck d x.master x.kind x.addr x.sectors = .deny n) :
    foldTxn d id = respond (recordDenial d x n) id .denied := by
  simp [foldTxn, hx, hmark, htub, h]

/-- A request that fails a check is answered, and a denial recorded: the memory does not change (R79, R102). -/
theorem sameMemory_foldTxn_of_fails (hsrc : ∀ g c, x.src ≠ .m16 g c)
    (hfails : (∃ c, foldCheck d x.master x.kind x.addr x.sectors = .answer c) ∨
      ∃ n, foldCheck d x.master x.kind x.addr x.sectors = .deny n) : SameMemory d (foldTxn d id) := by
  obtain ⟨c, hanswer⟩ | ⟨n, hdeny⟩ := hfails
  · rw [foldTxn_of_answer hx hmark htub hanswer]
    exact sameMemory_respond hx hsrc c
  · rw [foldTxn_of_deny hx hmark htub hdeny]
    have hx' : getTxn (recordDenial d x n) id = some x := (getTxn_congr (recordDenial_txns d x n) id).trans hx
    exact (sameMemory_recordDenial d x n).trans (sameMemory_respond hx' hsrc .denied)

end Fold

end Sys2Proof.Machine

section
open Sys2Proof.Machine

/-- Settles O12: an admission leaves what the fold unit reads, so the request still fails there, and its answer leaves the memory. -/
theorem requestThatFailsTheFoldHasNoEffect : Obligations.RequestThatFailsTheFoldHasNoEffect := by
  intro m id rest x s hqueue hx hmark htub hsrc hunit hfails
  have hsame : SameMemory s.dev (admitHead s.dev m.val).2 := by
    obtain hstays | ⟨e, _, _, _, _, hfold, hadmit, hx'⟩ := admitHead_cases hqueue hx hunit
    · exact hstays.toSameMemory
    · rw [hadmit]
      rw [← hfold.foldCheck_eq] at hfails
      exact hfold.toSameMemory.trans (sameMemory_foldTxn_of_fails hx' hmark htub hsrc hfails)
  obtain ⟨htiles, hblank, hmend, hpanels, hjobs⟩ := hsame
  exact ⟨_, rfl, htiles, hblank, hmend, hpanels, hjobs⟩

end
end

section
/-!
The beats of a request port: what a header and a data beat do, case by case (R107, R109, R119, R126, R127, R130, R139).
-/
namespace Sys2Proof.Machine
open Sys2Proof.Claims

/-! ## Commands -/

/-- Every command that presents a header does what `acceptHeader` does with it. -/
theorem exec_of_request {c : Instr} {k : Kind} {a : Nat} {h : Header} (hc : request c = some (k, a, h)) (s : State) :
    exec c s = .next { s with dev := acceptHeader s.dev k a h } := by
  unfold request at hc
  split at hc <;> cases hc <;> rfl

theorem exec_dataBeat (p : Fin 16) (tag : BitVec 8) (be : BeatEn) (v : BeatData) (f : Flow) (s : State) :
    exec (.dataBeat p tag be v f) s = .next { s with dev := acceptData s.dev p.val tag be v f } := rfl

theorem endsDev_of_request {c : Instr} {k : Kind} {a : Nat} {h : Header} {s : State} {P : Dev → Prop}
    (hc : request c = some (k, a, h)) (hP : P (acceptHeader s.dev k a h)) : EndsDev c s P :=
  ⟨_, exec_of_request hc s, hP⟩

theorem dev_eq_of_next {s : State} {d e : Dev}
    (h : (Host.Outcome.next { s with dev := d } : Host.Outcome State Fault Refusal) = .next { s with dev := e }) : d = e := by
  injection h with hstate
  exact congrArg State.dev hstate

/-! ## While ready is 0 -/

theorem reqReady_of_not_ready_or_masked {d : Dev} {n : Nat} (h : d.pins.ready = false ∨ d.pins.mask.getLsbD n = true) :
    reqReady d n = false := by
  obtain hready | hmask := h
  · exact reqReady_eq_false_of_not_ready hready n
  · simp [reqReady, hmask]

theorem acceptData_of_not_ready {d : Dev} {n : Nat} (hready : reqReady d n = false) (tag : BitVec 8) (be : BeatEn) (v : BeatData)
    (f : Flow) : acceptData d n tag be v f = d := by
  simp [acceptData, hready]

/-! ## Errors -/

section Errors
variable (d : Dev) (n k : Nat) (tag : BitVec 8)

/-- An error is recorded in registers and counters alone. -/
theorem portError_eq : ∃ r t, portError d n k tag = { d with regs := r, tally := t } := by
  unfold portError
  extract_lets off w w₁
  obtain ⟨t, ht⟩ := raiseN_eq (rset d off (w₁ ||| BitVec.ofNat 32 (2 ^ k))) Ev.PORT_PROTOCOL 1 (some n) none
  exact ⟨_, t, ht⟩

@[simp] theorem portError_txns : (portError d n k tag).txns = d.txns := raise_txns ..
@[simp] theorem portError_nextTxn : (portError d n k tag).nextTxn = d.nextTxn := raise_nextTxn ..
@[simp] theorem portError_reg : (portError d n k tag).reg = d.reg := raise_reg ..
@[simp] theorem portError_tiles : (portError d n k tag).tiles = d.tiles := raise_tiles ..
@[simp] theorem portError_ports : (portError d n k tag).ports = d.ports := raise_ports ..

theorem getLsbD_portError (i : Nat) (hi : i < 6) : (rget (portError d n k tag) (0x2040 + 4 * n)).getLsbD i =
    ((rget d (0x2040 + 4 * n)).getLsbD i || decide (k = i)) := by
  rw [rget_portError, getLsbD_withError hi]

theorem getLsbD_portError_self (hk : k < 6) : (rget (portError d n k tag) (0x2040 + 4 * n)).getLsbD k = true := by
  simp [getLsbD_portError, hk]

end Errors

/-- The error bit of a mark that the front end fixes for a kind: BAD_LEN, BAD_TYPE, BAD_ATTR (R121). -/
def markBit (k : Kind) (m : Option Rsp) : Nat := if m = some .length then 5 else if k = .reserved then 3 else 4

theorem markBit_lt (k : Kind) (m : Option Rsp) : markBit k m < 6 := by
  unfold markBit
  split_ifs <;> omega

section Marks
variable (d : Dev) (n : Nat) (tag : BitVec 8) (k : Kind) (m : Option Rsp)

/-- A mark adds at most one error. -/
theorem markError_cases : markError d n tag k m = d ∨ ∃ j, markError d n tag k m = portError d n j tag := by
  unfold markError
  split
  · exact .inr ⟨_, rfl⟩
  · exact .inr ⟨_, rfl⟩
  · exact .inl rfl

theorem markError_txns : (markError d n tag k m).txns = d.txns := by
  obtain h | ⟨j, h⟩ := markError_cases d n tag k m
  · rw [h]
  · rw [h, portError_txns]

/-- An error bit that is 1 stays 1. -/
theorem getLsbD_markError {i : Nat} (hi : i < 6) (hbit : (rget d (0x2040 + 4 * n)).getLsbD i = true) :
    (rget (markError d n tag k m) (0x2040 + 4 * n)).getLsbD i = true := by
  obtain h | ⟨j, h⟩ := markError_cases d n tag k m
  · rw [h, hbit]
  · rw [h, getLsbD_portError _ _ _ _ _ hi, hbit, Bool.true_or]

end Marks

theorem markError_of_mark {m : Option Rsp} (hm : m = some .denied ∨ m = some .length) (d : Dev) (n : Nat) (tag : BitVec 8) (k : Kind) :
    markError d n tag k m = portError d n (markBit k m) tag := by
  obtain rfl | rfl := hm <;> rfl

/-- The front end answers DENIED or LENGTH, or lets a header pass (R121). -/
theorem checkOf_cases (k : Kind) (a : Nat) (h : Header) :
    checkOf k a h = none ∨ checkOf k a h = some .denied ∨ checkOf k a h = some .length := by
  unfold checkOf frontCheck
  extract_lets first last
  repeat' split
  all_goals simp

/-! ## Transactions of a port -/

theorem mem_of_mget {α : Type} {m : SMap α} {k : Nat} {a : α} (h : mget m k = some a) : (k, a) ∈ m := by
  induction m with
  | nil => cases h
  | cons e m ih =>
    obtain ⟨j, b⟩ := e
    rw [mget] at h
    split at h
    · cases h
      subst ‹j = k›
      exact List.mem_cons_self
    · exact List.mem_cons_of_mem _ (ih h)

theorem eq_or_mem_of_mem_minsert {α : Type} {m : SMap α} {k : Nat} {a : α} {e : Nat × α} (h : e ∈ minsert m k a) :
    e = (k, a) ∨ e ∈ m := by
  induction m with
  | nil => exact .inl (List.mem_singleton.mp h)
  | cons c m ih =>
    obtain ⟨j, b⟩ := c
    rw [minsert] at h
    split at h
    · exact List.mem_cons.mp h
    split at h
    · exact (List.mem_cons.mp h).imp_right (List.mem_cons_of_mem _)
    · obtain rfl | hmem := List.mem_cons.mp h
      · exact .inr List.mem_cons_self
      · exact (ih hmem).imp_right (List.mem_cons_of_mem _)

/-- A transaction that is put back with its source makes no tag outstanding. -/
theorem tagOut_setTxn {d : Dev} {n id : Nat} {tag : BitVec 8} {x y : Txn} (hx : getTxn d id = some x) (hsrc : y.src = x.src)
    (htag : tagOut d n tag = false) : tagOut (setTxn d id y) n tag = false := by
  rw [tagOut, List.any_eq_false] at htag ⊢
  intro e he
  obtain rfl | hmem := eq_or_mem_of_mem_minsert he
  · rw [hsrc]
    exact htag _ (mem_of_mget hx)
  · exact htag e hmem

/-! ## Headers -/

/-- The port as a header finds it: it has been quiet since its mask fell, or was not held back at all (R145). -/
def unblocked (d : Dev) (n : Nat) : Dev := setPort d n { getPort d n with blocked := false }

/-- The port once a header beat has come: beats that it was still owed will not come (R130). -/
def previousEnded (d : Dev) (n : Nat) : Dev := leaveShort (unblocked d n) n

/-- What a port is owed when `m` beats are still to come. -/
def stillOwing (m : Nat) (o : Nat → Owing) : Option Owing := if m = 0 then none else some (o m)

/-- A header whose tag is free begins its transaction, which waits at the regulator; the port is owed its data beats (R109, R126). -/
def beginTxn (d : Dev) (k : Kind) (a : Nat) (h : Header) : Dev :=
  let n := h.port.val
  let d₁ := (newTxn d (begun k a h)).2
  queueAt (setPort d₁ n { getPort d₁ n with owing := stillOwing (owedBy k h) (.txn d.nextTxn) }) n d.nextTxn

/-- A header with a tag that is outstanding is discarded; the port is owed the beats that are to be absorbed (R127). -/
def discardHeader (d : Dev) (k : Kind) (h : Header) : Dev :=
  let n := h.port.val
  portError (setPort d n { getPort d n with owing := stillOwing (owedBy k h) (.discarded h.tag) }) n 0 h.tag

theorem owing_discardHeader (d : Dev) (k : Kind) (h : Header) :
    (getPort (discardHeader d k h) h.port.val).owing = stillOwing (owedBy k h) (.discarded h.tag) := by
  rw [discardHeader, getPort_congr (portError_ports ..), getPort_setPort]

/-- What a header beat can do: nothing while ready is 0; otherwise it is discarded, or begins its transaction. -/
theorem acceptHeader_eq (d : Dev) (k : Kind) (a : Nat) (h : Header) : acceptHeader d k a h =
    if !reqReady d h.port.val then d
    else if tagOut (previousEnded d h.port.val) h.port.val h.tag then discardHeader (previousEnded d h.port.val) k h
    else flowOn (markError (beginTxn (previousEnded d h.port.val) k a h) h.port.val h.tag k (checkOf k a h)) h.port.val h.flow := rfl

theorem acceptHeader_of_not_ready {d : Dev} {h : Header} (hready : reqReady d h.port.val = false) (k : Kind) (a : Nat) :
    acceptHeader d k a h = d := by
  simp [acceptHeader_eq, hready]

section Header
variable {d : Dev} {h : Header} (hready : reqReady d h.port.val = true) (k : Kind) (a : Nat)
include hready

theorem acceptHeader_of_tag_out (htag : tagOut (previousEnded d h.port.val) h.port.val h.tag = true) :
    acceptHeader d k a h = discardHeader (previousEnded d h.port.val) k h := by
  simp [acceptHeader_eq, hready, htag]

theorem acceptHeader_of_tag_free (htag : tagOut (previousEnded d h.port.val) h.port.val h.tag = false) :
    acceptHeader d k a h =
      flowOn (markError (beginTxn (previousEnded d h.port.val) k a h) h.port.val h.tag k (checkOf k a h)) h.port.val h.flow := by
  simp [acceptHeader_eq, hready, htag]

end Header

theorem previousEnded_of_owing_none {d : Dev} {n : Nat} (h : (getPort d n).owing = none) : previousEnded d n = unblocked d n := by
  simp [previousEnded, leaveShort, unblocked, h]

/-- A request that is left short will be answered LENGTH, unless its answer was fixed before (R130). -/
def leftShort (x : Txn) : Txn := { x with owed := 0, mark := x.mark.or (some .length) }

section Short
variable {d : Dev} {n id j : Nat} {x : Txn} (h : (getPort d n).owing = some (.txn id j)) (hx : getTxn d id = some x)
include h hx

/-- A header that comes while beats are owed leaves the previous request short, and DATA_SHORT is recorded (R130). -/
theorem previousEnded_of_owing_txn :
    ∃ p tag, previousEnded d n = portError (setPort (setTxn (unblocked d n) id (leftShort x)) n p) n 1 tag := by
  have howing : (getPort (unblocked d n) n).owing = some (.txn id j) := by rw [unblocked, getPort_setPort, h]
  have hx' : getTxn (unblocked d n) id = some x := hx
  simp only [previousEnded, leaveShort, howing, hx']
  exact ⟨_, _, rfl⟩

theorem getTxn_previousEnded : getTxn (previousEnded d n) id = some (leftShort x) := by
  obtain ⟨p, tag, he⟩ := previousEnded_of_owing_txn h hx
  rw [he, getTxn_congr (portError_txns ..)]
  exact getTxn_setTxn ..

theorem nextTxn_previousEnded : (previousEnded d n).nextTxn = d.nextTxn := by
  obtain ⟨p, tag, he⟩ := previousEnded_of_owing_txn h hx
  rw [he, portError_nextTxn]
  rfl

theorem tagOut_previousEnded {m : Nat} {tag : BitVec 8} (htag : tagOut d m tag = false) : tagOut (previousEnded d n) m tag = false := by
  obtain ⟨p, tag', he⟩ := previousEnded_of_owing_txn h hx
  rw [he, tagOut, portError_txns]
  exact tagOut_setTxn (d := unblocked d n) hx rfl htag

theorem dataShort_previousEnded : (rget (previousEnded d n) (0x2040 + 4 * n)).getLsbD 1 = true := by
  obtain ⟨p, tag, he⟩ := previousEnded_of_owing_txn h hx
  rw [he]
  exact getLsbD_portError_self _ n 1 tag (by omega)

end Short

/-! ## The transaction that a header begins -/

section Begin
variable (d : Dev) (k : Kind) (a : Nat) (h : Header)

theorem getTxn_beginTxn : getTxn (beginTxn d k a h) d.nextTxn = some (begun k a h) := mget_minsert ..

theorem getTxn_beginTxn_ne {i : Nat} (hi : i ≠ d.nextTxn) : getTxn (beginTxn d k a h) i = getTxn d i := mget_minsert_ne _ _ _ _ hi

theorem getPort_beginTxn : getPort (beginTxn d k a h) h.port.val =
    { getPort d h.port.val with owing := stillOwing (owedBy k h) (.txn d.nextTxn) } := mgetD_mputD ..

theorem getPort_beginTxn_ne {m : Nat} (hm : m ≠ h.port.val) : getPort (beginTxn d k a h) m = getPort d m :=
  mgetD_mputD_ne _ _ _ _ _ hm

theorem getMaster_beginTxn : getMaster (beginTxn d k a h) h.port.val =
    { getMaster d h.port.val with queue := (getMaster d h.port.val).queue ++ [d.nextTxn] } := mgetD_mputD ..

theorem getMaster_beginTxn_ne {m : Nat} (hm : m ≠ h.port.val) : getMaster (beginTxn d k a h) m = getMaster d m :=
  mgetD_mputD_ne _ _ _ _ _ hm

/-- A header begins its transaction and does nothing else, but for the registers. -/
theorem accepted_beginTxn : accepted d (beginTxn (unblocked d h.port.val) k a h) k a h := by
  refine ⟨getTxn_beginTxn .., rfl, fun i hi => getTxn_beginTxn_ne _ k a h hi, getMaster_beginTxn ..,
    fun m hm => getMaster_beginTxn_ne _ k a h hm, ?_, fun m hm => ?_, rfl, rfl, rfl, rfl, rfl, rfl⟩
  · rw [getPort_beginTxn, unblocked, getPort_setPort]
    rfl
  · rw [getPort_beginTxn_ne _ _ _ _ hm, unblocked, getPort_setPort_ne _ _ _ _ hm]

/-- An error of a port takes nothing back of what a header began. -/
theorem accepted_portError {d t : Dev} {k : Kind} {a : Nat} {h : Header} (ht : accepted d t k a h) (n j : Nat) (tag : BitVec 8) :
    accepted d (portError t n j tag) k a h := by
  obtain ⟨r, y, he⟩ := portError_eq t n j tag
  rw [he]
  exact ht

end Begin

/-- A header that finds its port free begins its transaction; where the front end marks it, its error is recorded (R119). -/
theorem acceptHeader_of_portFree {d : Dev} {h : Header} (hfree : portFree d h) (k : Kind) (a : Nat) : acceptHeader d k a h =
    flowOn (markError (beginTxn (unblocked d h.port.val) k a h) h.port.val h.tag k (checkOf k a h)) h.port.val h.flow := by
  obtain ⟨hready, howing, htag⟩ := hfree
  have hended := previousEnded_of_owing_none howing
  rw [acceptHeader_of_tag_free hready k a (hended ▸ htag), hended]

theorem acceptHeader_of_correct {d : Dev} {k : Kind} {a : Nat} {h : Header} (hfree : portFree d h) (hflow : h.flow = .hold)
    (hcheck : checkOf k a h = none) : acceptHeader d k a h = beginTxn (unblocked d h.port.val) k a h := by
  rw [acceptHeader_of_portFree hfree, hflow, hcheck]
  rfl

theorem acceptHeader_of_marked {d : Dev} {k : Kind} {a : Nat} {h : Header} (hfree : portFree d h) (hflow : h.flow = .hold)
    (hcheck : checkOf k a h = some .denied ∨ checkOf k a h = some .length) : acceptHeader d k a h =
      portError (beginTxn (unblocked d h.port.val) k a h) h.port.val (markBit k (checkOf k a h)) h.tag := by
  rw [acceptHeader_of_portFree hfree, hflow, markError_of_mark hcheck]
  rfl

/-! ## Data beats -/

/-- A beat that is owed joins its transaction (R109). -/
def takeBeat (d : Dev) (n id k : Nat) (b : BeatEn × BeatData) : Dev :=
  setPort (onTxn d id fun x => { x with beats := x.beats ++ [b], owed := x.owed - 1 }) n
    { getPort d n with owing := if k ≤ 1 then none else some (.txn id (k - 1)) }

section Beats
variable {d : Dev} {n : Nat} (hready : reqReady d n = true) (tag : BitVec 8) (be : BeatEn) (v : BeatData) (f : Flow)
include hready

theorem acceptData_of_owing_txn {id k : Nat} (h : (getPort d n).owing = some (.txn id k)) : acceptData d n tag be v f =
    if k ≤ 1 then flowOn (takeBeat d n id k (be, v)) n f else takeBeat d n id k (be, v) := by
  simp only [acceptData, hready, h]
  rfl

theorem acceptData_hold_of_owing_txn {id k : Nat} (h : (getPort d n).owing = some (.txn id k)) :
    acceptData d n tag be v .hold = takeBeat d n id k (be, v) :=
  (acceptData_of_owing_txn hready tag be v .hold h).trans (ite_self _)

theorem acceptData_of_owing_discarded {g : BitVec 8} {k : Nat} (h : (getPort d n).owing = some (.discarded g k)) :
    acceptData d n tag be v f =
      setPort d n { getPort d n with owing := if k ≤ 1 then none else some (.discarded g (k - 1)) } := by
  simp only [acceptData, hready, h]
  rfl

theorem acceptData_of_owing_none (h : (getPort d n).owing = none) : acceptData d n tag be v f = portError d n 2 tag := by
  simp only [acceptData, hready, h]
  rfl

end Beats

theorem takeBeat_eq {d : Dev} {id : Nat} {x : Txn} (hx : getTxn d id = some x) (n k : Nat) (b : BeatEn × BeatData) : takeBeat d n id k b =
    setPort (setTxn d id { x with beats := x.beats ++ [b], owed := x.owed - 1 }) n
      { getPort d n with owing := if k ≤ 1 then none else some (.txn id (k - 1)) } := by
  rw [takeBeat, onTxn, hx]

/-- Of k beats that are owed, one is the last where k is 1. -/
theorem owing_after_beat {k : Nat} (hk : 1 ≤ k) (o : Owing) : (if k ≤ 1 then none else some o) = if k = 1 then none else some o := by
  have hlast : k ≤ 1 ↔ k = 1 := by omega
  simp only [hlast]

end Sys2Proof.Machine

section
open Sys2Proof.Machine Sys2Proof.Claims

/-- Settles O9: ready is the conjunction of R139's conditions with others, and a beat that meets no ready changes nothing. -/
theorem readyIsLowWhileNotReadyOrMasked : Obligations.ReadyIsLowWhileNotReadyOrMasked := by
  refine ⟨fun d n => reqReady_of_not_ready_or_masked, fun c k a h s hc hready => ?_, fun p tag be v f s hready => ?_⟩
  · rw [exec_of_request hc, acceptHeader_of_not_ready hready]
  · rw [exec_dataBeat, acceptData_of_not_ready hready]

/-- Settles O8: a header that finds its port free begins its transaction, and the mark of one that fails a check adds its error. -/
theorem headersBeginTransactions : Obligations.HeadersBeginTransactions := by
  refine ⟨fun c k a h s hc hflow hfree hcheck => ?_, fun c k a h s hc hflow hfree hcheck => ?_,
    fun c c' k a h s d hc hc' hfree hnext => ?_⟩
  · refine endsDev_of_request hc ?_
    rw [acceptHeader_of_correct hfree hflow hcheck]
    exact ⟨accepted_beginTxn s.dev k a h, rfl⟩
  · have hmark := (checkOf_cases k a h).resolve_left hcheck
    refine endsDev_of_request hc ?_
    rw [acceptHeader_of_marked hfree hflow hmark]
    exact ⟨accepted_portError (accepted_beginTxn s.dev k a h) _ _ _, hmark, getLsbD_portError_self _ _ _ _ (markBit_lt ..),
      isPending_portError ..⟩
  · rw [exec_of_request hc'] at hnext
    rw [exec_of_request hc, ← dev_eq_of_next hnext, acceptHeader_of_portFree hfree,
      acceptHeader_of_portFree (h := { h with flow := .hold }) hfree]
    rfl

/-- Settles O10: a discarded header and an unowed beat leave their error alone; one that is owed reaches the request that the port
is owed beats for, and a header that comes before it leaves that request short. -/
theorem beatsGoToTheirRequests : Obligations.BeatsGoToTheirRequests := by
  refine ⟨fun c k a h s hc hready howing htag => ?_, fun c k a h id j x s hc hflow hready howing hx hid htag => ?_,
    fun p tag be v s hready => ⟨fun id k x howing hk hx => ?_, fun id k d howing hnext => ?_, fun g k f howing hk => ?_,
      fun f howing => ?_⟩⟩
  · refine endsDev_of_request hc ?_
    have hended := previousEnded_of_owing_none howing
    rw [acceptHeader_of_tag_out hready k a (hended ▸ htag), hended]
    exact ⟨portError_txns .., portError_nextTxn .., portError_reg .., portError_tiles .., owing_discardHeader ..,
      getLsbD_portError_self _ _ _ _ (by omega)⟩
  · have hnext := nextTxn_previousEnded howing hx
    refine endsDev_of_request hc ?_
    rw [acceptHeader_of_tag_free hready k a (tagOut_previousEnded howing hx htag), hflow]
    refine ⟨?_, ?_, getLsbD_markError _ _ _ _ _ (by omega) (dataShort_previousEnded howing hx)⟩
    · rw [flowOn, getTxn_congr (markError_txns ..), getTxn_beginTxn_ne _ _ _ _ (hnext ▸ hid)]
      exact getTxn_previousEnded howing hx
    · rw [flowOn, getTxn_congr (markError_txns ..), ← hnext, getTxn_beginTxn]
  · refine ⟨_, exec_dataBeat .., ?_⟩
    rw [acceptData_hold_of_owing_txn hready tag be v howing, takeBeat_eq hx]
    refine ⟨getTxn_setTxn .., fun i hi => getTxn_setTxn_ne _ _ _ _ hi, ?_, rfl⟩
    rw [getPort_setPort]
    exact owing_after_beat hk _
  · rw [exec_dataBeat, acceptData_hold_of_owing_txn hready tag be v howing] at hnext
    rw [exec_dataBeat, acceptData_of_owing_txn hready tag be v _ howing, dev_eq_of_next hnext]
  · refine ⟨_, exec_dataBeat .., ?_⟩
    rw [acceptData_of_owing_discarded hready tag be v f howing]
    refine ⟨?_, rfl, rfl⟩
    rw [getPort_setPort]
    exact owing_after_beat hk _
  · refine ⟨_, exec_dataBeat .., ?_⟩
    rw [acceptData_of_owing_none hready tag be v f howing]
    exact ⟨portError_txns .., portError_ports .., getLsbD_portError_self _ _ _ _ (by omega)⟩

end
end

section
/-!
A request without a part is answered at once (R113, R117): with OKAY, or with POISON where the transaction's `poisoned` is set, which
O11 leaves open for a request that waits for admission.
-/
namespace Sys2Proof.Machine
open Sys2Proof.Claims

/-- A PREFETCH with hint STREAM of port 3 for the four sectors from byte 2048 on, which is `poisoned` while it waits for admission. -/
def poisonedStream : Txn :=
  ⟨.port 3 7, 3, .prefetch, 0, 0x40, 4, .stream, 0, [(0, 0)], 0, none, false, 0, false, 0, 0, [], 0, [], true, false, none⟩

def poisonedStreamAtHead : State :=
  { State.reset with dev := { Reset.dev with
      pins := { Reset.pins with rstAsserted := false, rstPin := false, pllCore := true, ready := true }
      txns := [(0, poisonedStream)], nextTxn := 1
      reg := { Reset.regulator with masters := [(3, { Reset.master with queue := [0] })] } } }

/-- The device once that request has been admitted. -/
def afterPoisonedStream : Dev := (admitHead poisonedStreamAtHead.dev 3).2

theorem exec_requestAdmit (m : Fin 24) (s : State) :
    exec (.requestAdmit m) s = .next { s with dev := (admitHead s.dev m.val).2 } := rfl

theorem poisonedStream_stays_here :
    foldCheck poisonedStreamAtHead.dev 3 .prefetch poisonedStream.addr poisonedStream.sectors = .local 0 2048 := by decide +kernel

theorem poisonedStream_may_take_credit : creditOk poisonedStreamAtHead.dev 3 = true := by decide +kernel

theorem poisonedStream_has_no_part (prio : Nat) :
    partsOf poisonedStreamAtHead.dev 0 { poisonedStream with prio := prio } 0 2048 = [] := by
  simp [partsOf, poisonedStream, lineParts]

theorem poisonedStream_is_answered_poison :
    (getPort afterPoisonedStream 3).done = [(0, 1, ⟨7, .poison, [0], [0]⟩)] := by decide +kernel

end Sys2Proof.Machine

section
open Sys2Proof Sys2Proof.Machine Sys2Proof.Claims

/-- Refutes O11: a PREFETCH with hint STREAM that waits with `poisoned` set meets every hypothesis of the second clause and has no part,
but it is answered POISON, not OKAY. -/
theorem not_markedRequestIsAdmittedAndAnswered : ¬ Obligations.MarkedRequestIsAdmittedAndAnswered := by
  rintro ⟨-, hordinary⟩
  have htxns : ∀ e ∈ poisonedStreamAtHead.dev.txns, e.2.master = 3 → e.2.unsent = [] := by decide
  obtain ⟨d, hexec, -, -, -, -, hdone, -⟩ := hordinary 3 0 [] poisonedStream 7 0 2048 poisonedStreamAtHead rfl rfl rfl rfl rfl rfl
    rfl rfl (by decide) rfl (.inr poisonedStream_may_take_credit) (by decide) poisonedStream_stays_here htxns (fun _ => rfl)
  rw [exec_requestAdmit] at hexec
  have hd : afterPoisonedStream = d := dev_eq_of_next hexec
  rw [← hd, if_pos (poisonedStream_has_no_part _)] at hdone
  have hanswer := poisonedStream_is_answered_poison.symm.trans hdone
  exact absurd hanswer (by decide)

end
end

section
/-!
DLP_MAINT: a maintenance operation starts while none runs, and is ignored otherwise; MAINT_DONE (R179 to R181).
-/
namespace Sys2Proof.Machine
open Sys2Proof.Claims

/-! ## The command (R181) -/

/-- The command of a maintenance operation, with the operation's number as DLP_MAINT takes it (R179). -/
abbrev startsMaint (c : Instr) (op : Nat) : Prop :=
  (c = .cleanAll ∧ op = 1) ∨ (c = .flushAll ∧ op = 2) ∨ (c = .invalidateAll ∧ op = 3)

/-- The maintenance commands are writes of DLP_MAINT, whose OP names the operation. -/
theorem exec_of_startsMaint {c : Instr} {op : Nat} (hc : startsMaint c op) :
    ∃ v : Word, bits v 1 0 = op ∧ op ≠ 0 ∧ ∀ s, exec c s = onMem s fun m d => portWrite m d 0x6020 v := by
  obtain ⟨rfl, rfl⟩ | ⟨rfl, rfl⟩ | ⟨rfl, rfl⟩ := hc
  · exact ⟨1, by decide, by decide, fun _ => rfl⟩
  · exact ⟨2, by decide, by decide, fun _ => rfl⟩
  · exact ⟨3, by decide, by decide, fun _ => rfl⟩

section Command
variable {d : Dev} {v : Word} {op : Nat} (hop : bits v 1 0 = op)
include hop

theorem maintCmd_starts (hzero : op ≠ 0) (hidle : d.maint = 0) (hready : op = 3 → d.pins.ready = false) :
    maintCmd d v = (maintStart d op, true) := by
  have hready' : (decide (op = 3) && d.pins.ready) = false := by
    by_cases h : op = 3
    · simp [hready h]
    · simp [h]
  simp [maintCmd, hop, hidle, hzero, hready']

theorem maintCmd_refused (h : d.maint ≠ 0 ∨ (op = 3 ∧ d.pins.ready = true)) : maintCmd d v = (d, false) := by
  by_cases hidle : d.maint = 0
  · obtain ⟨rfl, hready⟩ := h.resolve_left (absurd hidle)
    simp [maintCmd, hop, hidle, hready]
  · simp [maintCmd, hidle]

end Command

/-! ## The write at the port (R530, R534) -/

/-- A host write of DLP_MAINT does what its command does, and logs it where it is ignored. -/
theorem portWrite_maint {d : Dev} (hs : hostServed d 0x6020) (m : SMap DLine) (v : Word) :
    portWrite m d 0x6020 v =
      let r := maintCmd (setHold d .host none) v
      (m, answerWrite (if r.2 then r.1 else logIgnored r.1 0x6020 v) r.2) := by
  obtain ⟨hpin, hserved⟩ := hs
  have hlow : isWritablePair 0x6020 = false := by decide
  have hhigh : isWritablePair (0x6020 - 4) = false := by decide
  simp [portWrite, hpin, hserved, writeAccess, hlow, hhigh, writeSingle, hostWrite, regCmd, isHemCmd]

section Write
variable {c : Instr} {op : Nat} {s : State} (hc : startsMaint c op) (hs : hostServed s.dev 0x6020)
include hc hs

theorem maint_starts (hidle : s.dev.maint = 0) (hready : op = 3 → s.dev.pins.ready = false) :
    EndsDev c s fun t => t.maint = op ∧ t.ycp.rsp = some (0, 0) ∧ t.pins = s.dev.pins ∧ t.cycle = s.dev.cycle := by
  obtain ⟨v, hop, hzero, hexec⟩ := exec_of_startsMaint hc
  refine ⟨answerWrite (maintStart (setHold s.dev .host none) op) true, ?_, rfl, rfl, rfl, rfl⟩
  rw [hexec, onMem, portWrite_maint hs, maintCmd_starts (d := setHold s.dev .host none) hop hzero hidle hready]
  rfl

theorem maint_ignored (h : s.dev.maint ≠ 0 ∨ (op = 3 ∧ s.dev.pins.ready = true)) :
    EndsDev c s fun t => t.maint = s.dev.maint ∧ t.ycp.rsp = some (1, 0) ∧ t.tiles = s.dev.tiles := by
  obtain ⟨v, hop, -, hexec⟩ := exec_of_startsMaint hc
  refine ⟨answerWrite (logIgnored (setHold s.dev .host none) 0x6020 v) false, ?_, lint_maint .., rfl, lint_tiles ..⟩
  rw [hexec, onMem, portWrite_maint hs, maintCmd_refused (d := setHold s.dev .host none) hop h]
  rfl

end Write

/-! ## The end (R180) -/

theorem exec_maintDone (s : State) : exec .maintDone s = .next { s with dev := maintDone s.dev } := rfl

theorem maintDone_of_idle {d : Dev} (hruns : d.maint ≠ 0) (hidle : maintIdle d = true) : maintDone d = { d with maint := 0 } := by
  simp [maintDone, hruns, hidle]

theorem maintDone_of_busy {d : Dev} (hbusy : maintIdle d = false) : maintDone d = d := by simp [maintDone, hbusy]

end Sys2Proof.Machine

section
open Sys2Proof.Machine

/-- Settles O19: the three commands are writes of DLP_MAINT, split on whether an operation runs and on dl_ready. -/
theorem maintenanceRunsOnce : Obligations.MaintenanceRunsOnce := by
  refine ⟨fun c op s hc hs => ⟨maint_starts hc hs, maint_ignored hc hs⟩, fun s hruns => ⟨fun hidle => ?_, fun hbusy => ?_⟩⟩
  · rw [exec_maintDone, maintDone_of_idle hruns hidle]
  · rw [exec_maintDone, maintDone_of_busy hbusy]

end
end

section
/-!
A tile map that breaks R87: tiles 3 and 83 both stand at member 3 of panel 0, tiles 4 and 84 both at member 4 of panel 5. No tile then
names member 4 of panel 0 or member 3 of panel 5, and `tileAt` gives tiles 4 and 83 for them. So what settles the slices of panel 0
settles tile 4 too, which takes up what waits in panel 5; and a whole bolt of panel 5 has its lines of member 3 in tile 83, which counts
itself to panel 0. `idlePanel` lets panel 5 hold a WRITEBOLT that goes on there and then.
-/
namespace Sys2Proof.Machine
open Sys2Proof.Claims

/-- A data line of tile 83: of a bolt of panel 0 by the tile's own place, and of one of panel 5 by `tileAt`. -/
def disputedLoc : Loc := ⟨83, 2, 5, 0⟩

/-- The bolt of that line in panel 0. -/
def disputedBolt : Nat := stripeBolt Reset.dev ⟨0, 2, 5, 0, 0⟩

/-- The WRITEBOLT of transaction 1, which writes zeros to the bolt of panel 5 there, once all its members have granted it (R170). -/
def grantedWritebolt : BoltOp := ⟨1, stripeBolt Reset.dev ⟨5, 2, 5, 0, 0⟩, false, .none, ⟨5, 2, 5, 0, 0⟩, 4, List.range 16, []⟩

def writeboltTxn : Txn :=
  ⟨.port 4 0, 4, .writebolt, 0, BitVec.ofNat 34 (64 * grantedWritebolt.bolt), 64, .none, 0, [], 0, none, true, 1, true, 0, 0, [], 16, [],
    false, false, none⟩

/-- A device with that tile map, every bolt valid, in which that WRITEBOLT waits in panel 5 and tile 83 has the slice `x`. -/
def disputedMap (x : Slice) : Dev :=
  { Reset.dev with
      pins := { Reset.pins with rstAsserted := false, rstPin := false, pllCore := true, ready := true }
      regs := [(0x4400 + 4 * 4, 16 * 5 + 4), (0x4400 + 4 * 83, 3)]
      txns := [(1, writeboltTxn)], nextTxn := 2
      tiles := [(83, { Reset.tile with slice := x })]
      panels := [(5, { Reset.panel with boltOps := [grantedWritebolt] })]
      blank := { Reset.blank with valid := [(0, 62914559)], known := true } }

/-- Way 0 of the line's set holds it, with the value 77. -/
def holdsDisputed (dirty : Bool) (crc : BitVec 32) : Slice :=
  { Reset.slice with sets := [(setIndex disputedLoc, ⟨[(0, ⟨true, dirty, false, false, 2, 5, disputedBolt, 77, crc⟩)], [0]⟩)] }

/-! ## A line that waits for the Hamper -/

/-- The line as a CLEAN_ALL has sent it to the Hamper. -/
def disputedOut : OutLine := ⟨disputedLoc, disputedBolt, 77, false, false, none⟩

def disputedWaitsOut : State :=
  { State.reset with dev := { disputedMap { holdsDisputed true (entryCrc 77) with outbox := [disputedOut] } with maint := 1 } }

theorem exec_dirtyWriteback (t : Fin 320) (s : State) :
    exec (.dirtyWriteback t) s = .next { s with dev := dirtyWriteback s.dev t.val } := rfl

theorem data_before_writeback : (wayOf disputedWaitsOut.dev disputedLoc 0).data = 77 := by decide +kernel

theorem data_after_writeback : (wayOf (dirtyWriteback disputedWaitsOut.dev 83) disputedLoc 0).data = 0 := by decide +kernel

/-! ## A granted request -/

/-- A request of M3 to the line. -/
def disputedPart (op : LineOp) : Part := ⟨0, 0, 3, 0, op, disputedLoc, disputedBolt⟩

/-- Its transaction, of which a second part has not finished. -/
def disputedTxn (k : Kind) : Txn :=
  ⟨.port 3 7, 3, k, 0, BitVec.ofNat 34 (64 * disputedBolt), 4, .none, 0, [(0, 0)], 0, none, true, 1, true, 0, 0, [], 2, [], false, false,
    none⟩

/-- The arbiter of tile 83 has decided to grant the request. -/
def disputedGranted (k : Kind) (op : LineOp) (x : Slice) : State :=
  let d := disputedMap { x with arb := [(3, [disputedPart op])], decided := some (3, false) }
  { State.reset with dev := { d with txns := (0, disputedTxn k) :: d.txns } }

theorem exec_tileGrant (t : Fin 320) (s : State) : exec (.tileGrant t none) s = .next { s with dev := tileGrant s.dev t.val } := rfl

/-- A WRITE of the value 5 to the line's first four bytes, which hits. -/
def disputedWrite : State := disputedGranted .write (.write .none 0xF 5) (holdsDisputed true (entryCrc 77))

theorem data_before_write : (wayOf disputedWrite.dev disputedLoc 0).data = 77 := by decide +kernel

theorem data_after_write : (wayOf (tileGrant disputedWrite.dev 83) disputedLoc 0).data = 0 := by decide +kernel

/-- A READ of the line, which is clean and fails its check. -/
def disputedRead : State := disputedGranted .read (.read .none) (holdsDisputed false 0)

theorem valid_after_read : (wayOf (tileGrant disputedRead.dev 83) disputedLoc 0).valid = true := by decide +kernel

end Sys2Proof.Machine

section
open Sys2Proof Sys2Proof.Machine Sys2Proof.Claims

/-- Refutes O18: its first clause does not ask that the panel be `seated`, as its second does. A clean way is promised with the line's
value 77 where the sweep's line has entered the Hamper; but the WRITEBOLT of panel 5 goes on in the same command and leaves 0 there. -/
theorem not_dirtyLineEntersTheHamper : ¬ Obligations.DirtyLineEntersTheHamper := by
  rintro ⟨hline, -⟩
  obtain ⟨-, hswept⟩ := hline 83 disputedOut ⟨0, 2, 5, 0, 0⟩ 0 disputedWaitsOut (by decide) (by decide +kernel) (by decide +kernel)
    rfl rfl rfl (by decide +kernel) (by decide +kernel) (by decide +kernel) (by decide +kernel) (by decide +kernel)
  obtain ⟨d, hexec, -, -, hway⟩ := hswept rfl (by decide)
  rw [exec_dirtyWriteback] at hexec
  have hd : dirtyWriteback disputedWaitsOut.dev 83 = d := dev_eq_of_next hexec
  have hcontra : (0 : LineData) = 77 :=
    calc (0 : LineData)
      _ = (wayOf d disputedLoc 0).data := by rw [← hd, data_after_writeback]
      _ = (wayOf disputedWaitsOut.dev disputedLoc 0).data := (congrArg Way.data hway :)
      _ = 77 := data_before_writeback
  exact absurd hcontra (by decide +kernel)

/-- Refutes O20: its third clause does not ask that the panel be `seated`. The way is promised with the merged bytes, which begin with
the written 5; but the WRITEBOLT of panel 5 goes on in the same command and leaves 0 there. -/
theorem not_linesTakeWordsAndBytes : ¬ Obligations.LinesTakeWordsAndBytes := by
  rintro ⟨-, -, hwrite, -⟩
  have hhit : lineHit disputedWrite.dev 83 3 0 (disputedPart (.write .none 0xF 5)) false (disputedTxn .write) := by decide +kernel
  obtain ⟨htwo, -⟩ := hwrite 83 3 0 _ false .none 0xF 5 _ disputedWrite hhit rfl
  obtain ⟨d, hexec, -, hway, -⟩ := htwo (by decide)
  rw [exec_tileGrant] at hexec
  have hd : tileGrant disputedWrite.dev 83 = d := dev_eq_of_next hexec
  have hcontra : (0 : LineData) = mergeLine 77 5 0xF :=
    calc (0 : LineData)
      _ = (wayOf d disputedLoc 0).data := by rw [← hd, data_after_write]
      _ = mergeLine (wayOf disputedWrite.dev disputedLoc 0).data 5 0xF := (congrArg Way.data hway :)
      _ = mergeLine 77 5 0xF := by rw [data_before_write]
  exact absurd hcontra (by decide +kernel)

/-- Refutes O55: its second clause does not ask that the panel be `seated`. A way is promised free where a clean line has failed its
check; but the WRITEBOLT of panel 5 goes on in the same command and takes the way for its own line. -/
theorem not_sramErrorsAreFound : ¬ Obligations.SramErrorsAreFound := by
  rintro ⟨-, hread, -⟩
  obtain ⟨-, hclean⟩ := hread 83 3 0 (disputedPart (.read .none)) false .none (disputedTxn .read) disputedRead (by decide)
    (by decide +kernel) (by decide +kernel) (by decide +kernel) (by decide +kernel) rfl rfl (by decide +kernel) (by decide +kernel)
    (by decide +kernel) rfl (by decide) (by decide +kernel)
  obtain ⟨d, hexec, hway, -⟩ := hclean (by decide +kernel) (by decide +kernel) (by decide +kernel) rfl rfl (by decide +kernel) rfl
  rw [exec_tileGrant] at hexec
  have hd : tileGrant disputedRead.dev 83 = d := dev_eq_of_next hexec
  have hcontra : true = false :=
    calc true
      _ = (wayOf d disputedLoc 0).valid := by rw [← hd, valid_after_read]
      _ = false := congrArg Way.valid hway
  exact absurd hcontra (by decide)

end
end

section
/-!
The entries of SUM (R200 to R204). An integer entry takes each element modulo 2^32. An EXACT entry clamps its integer A, and only where
it clamps does the order of the contributions matter: while OVERFLOW stays clear it does what an entry without bounds does, of which
each element changes A, the special state and the flags in a way that commutes with every other element's.
-/
namespace Sys2Proof.Machine

/-- One contribution element of a SUM tub reaches its entry, and the flags that it sets join those that are set (R213). -/
def contribute (fmt : Nat) (wb : Int) (a : Acc × NumFlags) (v : Val) : Acc × NumFlags :=
  let r := applyAcc 0 fmt wb a.1 v
  (r.1, a.2 ||| r.2)

/-! ## Integers under ARRIVAL (R200) -/

/-- The value of an integer element (R192). -/
def intVal (v : Int) : Val := .num (decide (v < 0)) v.natAbs 0

theorem applyAcc_intVal {fmt : Nat} (hint : isInt fmt = true) (wb : Int) (x : BitVec 32) (v : Int) :
    applyAcc 0 fmt wb (.w32 x) (intVal v) = (.w32 (x + BitVec.ofInt 32 v), 0) := by
  simp only [applyAcc, intVal, hint, decide_eq_true_eq]
  split
  next hneg =>
    have hv : v = -(v.natAbs : Int) := by omega
    rw [BitVec.sub_eq_add_neg, ← BitVec.ofInt_natCast, ← BitVec.ofInt_neg, ← hv]
  next hpos =>
    have hv : v = (v.natAbs : Int) := by omega
    rw [← BitVec.ofInt_natCast, ← hv]

theorem foldl_contribute_intVal {fmt : Nat} (hint : isInt fmt = true) (wb : Int) (vs : List Int) (x : BitVec 32) :
    vs.foldl (fun a v => contribute fmt wb a (intVal v)) (.w32 x, 0) = (.w32 (x + BitVec.ofInt 32 vs.sum), 0) := by
  induction vs generalizing x with
  | nil => simp
  | cons v vs ih =>
    have hone : contribute fmt wb (.w32 x, 0) (intVal v) = (.w32 (x + BitVec.ofInt 32 v), 0) := by
      simp [contribute, applyAcc_intVal hint]
    rw [List.foldl_cons, hone, ih, List.sum_cons, BitVec.ofInt_add, BitVec.add_assoc]

/-! ## An EXACT entry without bounds -/

/-- What an element adds to A (R202). -/
def exactAddend (l : Int) : Val → Int
  | .num neg mag exp =>
    let q := if l ≤ exp then mag * 2 ^ (exp - l).toNat else mag / 2 ^ (l - exp).toNat
    if neg then -(q : Int) else q
  | _ => 0

/-- The flags that an element sets by itself, whatever its entry holds: bits lost below L, NaN, infinity (R202, R203, R213). -/
def exactFlags (l : Int) : Val → NumFlags
  | .num _ mag exp => if decide (exp < l) && decide (mag % 2 ^ (l - exp).toNat ≠ 0) then fInexact else 0
  | v => inputFlags v

/-- The flag of an entry that becomes NAN (R203). -/
def becomesNan (s s' : Nat) : NumFlags := if s' = 3 && s ≠ 3 then fNan else 0

@[simp] theorem becomesNan_self (s : Nat) : becomesNan s s = 0 := by simp [becomesNan]

/-- One element reaches an entry whose A has no bounds: A, the special state, and the flags that are set. -/
def exactStep (l : Int) (x : Int × Nat × NumFlags) (v : Val) : Int × Nat × NumFlags :=
  (x.1 + exactAddend l v, specialNext x.2.1 v, x.2.2 ||| (exactFlags l v ||| becomesNan x.2.1 (specialNext x.2.1 v)))

theorem specialNext_nan_state (v : Val) : specialNext 3 v = 3 := by
  cases v with
  | num => rfl
  | nan => rfl
  | inf neg => cases neg <;> rfl

theorem specialNext_right_comm (s : Nat) (v w : Val) : specialNext (specialNext s v) w = specialNext (specialNext s w) v := by
  cases v with
  | num => rfl
  | nan => exact specialNext_nan_state w
  | inf a =>
    cases w with
    | num => rfl
    | nan => exact (specialNext_nan_state _).symm
    | inf b => rcases s with _ | _ | _ | s <;> cases a <;> cases b <;> rfl

/-- NAN is never left, so the flag says of two steps what it says of the first and the last state. -/
theorem becomesNan_trans (s : Nat) (v w : Val) :
    becomesNan s (specialNext s v) ||| becomesNan (specialNext s v) (specialNext (specialNext s v) w) =
      becomesNan s (specialNext (specialNext s v) w) := by
  by_cases hnan : specialNext s v = 3
  · simp [becomesNan, hnan, specialNext_nan_state]
  · have hs : s ≠ 3 := fun h => hnan (h ▸ specialNext_nan_state v)
    simp [becomesNan, hnan, hs]

/-- The flags of two elements that reach an entry one after the other. -/
theorem exactStep_exactStep (l : Int) (x : Int × Nat × NumFlags) (v w : Val) : exactStep l (exactStep l x v) w =
    (x.1 + (exactAddend l v + exactAddend l w), specialNext (specialNext x.2.1 v) w,
      x.2.2 ||| (exactFlags l v ||| exactFlags l w ||| becomesNan x.2.1 (specialNext (specialNext x.2.1 v) w))) := by
  rw [← becomesNan_trans]
  simp only [exactStep, Int.add_assoc]
  ac_rfl

theorem exactStep_right_comm (l : Int) (x : Int × Nat × NumFlags) (v w : Val) :
    exactStep l (exactStep l x v) w = exactStep l (exactStep l x w) v := by
  rw [exactStep_exactStep, exactStep_exactStep, specialNext_right_comm, Int.add_comm (exactAddend l v), BitVec.or_comm (exactFlags l v)]

/-! ## An EXACT entry whose OVERFLOW stays clear (R204) -/

theorem overflow_clear_or {f g : NumFlags} : (f ||| g) &&& fOverflow = 0 ↔ f &&& fOverflow = 0 ∧ g &&& fOverflow = 0 := by
  rw [BitVec.and_or_distrib_right]
  exact BitVec.or_eq_zero_iff

/-- A finite element is added to A, which is clamped to the bounds of its window (R202). -/
theorem addExact_num (n : Nat) (l a : Int) (s : Nat) (neg : Bool) (mag : Nat) (exp : Int) : addExact n l a s (.num neg mag exp) =
    if 2 ^ (n - 1) - 1 < a + exactAddend l (.num neg mag exp) then
      (2 ^ (n - 1) - 1, s, exactFlags l (.num neg mag exp) ||| fOverflow ||| fInexact)
    else if a + exactAddend l (.num neg mag exp) < -(2 ^ (n - 1) - 1) then
      (-(2 ^ (n - 1) - 1), s, exactFlags l (.num neg mag exp) ||| fOverflow ||| fInexact)
    else (a + exactAddend l (.num neg mag exp), s, exactFlags l (.num neg mag exp)) := rfl

/-- An element that sets no OVERFLOW is not clamped. -/
theorem addExact_of_overflow_clear {n : Nat} {l a : Int} {s : Nat} {v : Val} (h : (addExact n l a s v).2.2 &&& fOverflow = 0) :
    addExact n l a s v = (a + exactAddend l v, specialNext s v, exactFlags l v ||| becomesNan s (specialNext s v)) := by
  have hset (f g : NumFlags) : (f ||| fOverflow ||| g) &&& fOverflow ≠ 0 := fun hclear =>
    absurd (overflow_clear_or.mp (overflow_clear_or.mp hclear).1).2 (by decide)
  cases v with
  | nan => simp [addExact, exactAddend, exactFlags, becomesNan, specialNext]
  | inf neg => simp [addExact, exactAddend, exactFlags, becomesNan]
  | num neg mag exp =>
    rw [addExact_num] at h ⊢
    split at h
    · exact absurd h (hset _ _)
    split at h
    · exact absurd h (hset _ _)
    rw [if_neg ‹_›, if_neg ‹_›]
    simp [specialNext]

/-- The entry and the flags that A, the special state and the flags make. -/
def exactEntry (x : Int × Nat × NumFlags) : Acc × NumFlags := (.win x.1 x.2.1, x.2.2)

theorem contribute_exactEntry {fmt : Nat} {wb : Int} {x : Int × Nat × NumFlags} {v : Val}
    (h : (contribute fmt wb (exactEntry x) v).2 &&& fOverflow = 0) :
    contribute fmt wb (exactEntry x) v = exactEntry (exactStep (winL fmt wb) x v) := by
  simp only [contribute, exactEntry, applyAcc] at h ⊢
  rw [addExact_of_overflow_clear (overflow_clear_or.mp h).2]
  rfl

theorem foldl_contribute_of_overflow_clear {fmt : Nat} {wb : Int} {x : Int × Nat × NumFlags} {vs : List Val}
    (h : (vs.foldl (contribute fmt wb) (exactEntry x)).2 &&& fOverflow = 0) :
    vs.foldl (contribute fmt wb) (exactEntry x) = exactEntry (vs.foldl (exactStep (winL fmt wb)) x) := by
  induction vs using List.reverseRecOn with
  | nil => rfl
  | append_singleton vs v ih =>
    rw [List.foldl_concat] at h
    have hbefore := ih (overflow_clear_or.mp h).1
    rw [hbefore] at h
    rw [List.foldl_concat, List.foldl_concat, hbefore, contribute_exactEntry h]

/-- Two runs over the same elements that end with OVERFLOW clear leave the same entry and the same flags (R204). -/
theorem foldl_contribute_perm {fmt : Nat} {wb : Int} {x : Int × Nat × NumFlags} {vs ws : List Val} (hperm : vs.Perm ws)
    (hv : (vs.foldl (contribute fmt wb) (exactEntry x)).2 &&& fOverflow = 0)
    (hw : (ws.foldl (contribute fmt wb) (exactEntry x)).2 &&& fOverflow = 0) :
    vs.foldl (contribute fmt wb) (exactEntry x) = ws.foldl (contribute fmt wb) (exactEntry x) := by
  rw [foldl_contribute_of_overflow_clear hv, foldl_contribute_of_overflow_clear hw,
    hperm.foldl_eq' (fun v _ w _ y => exactStep_right_comm _ y v w)]

end Sys2Proof.Machine

section
open Sys2Proof.Machine

/-- Settles O23: while OVERFLOW stays clear, the elements reach the entry as they reach one without bounds, where any two of them
commute. -/
theorem exactSumIsOrderIndependent : Obligations.ExactSumIsOrderIndependent := by
  intro fmt wb vs ws hperm run hv hw
  have hruns : run vs = run ws := foldl_contribute_perm (fmt := fmt) (wb := wb) (x := (0, 0, 0)) hperm hv hw
  exact ⟨hruns, by rw [hruns]⟩

/-- Settles O24: each element is added modulo 2^32, so a run adds the sum of its elements, which has no order. -/
theorem integerSumWrapsInAnyOrder : Obligations.IntegerSumWrapsInAnyOrder := by
  intro fmt wb vs ws hint hperm val run
  have hrun (l : List Int) : run l = (.w32 (BitVec.ofInt 32 l.sum), 0) :=
    (foldl_contribute_intVal hint wb l 0).trans (congrArg (fun x => (Acc.w32 x, (0 : NumFlags))) (BitVec.zero_add _))
  exact ⟨hrun vs, by rw [hrun vs, hrun ws, hperm.sum_eq]⟩

end
end

section
/-!
The lanes of Mangle (R214 to R218, R237). Dispatch moves beats to lane input queues, and beyond the count of them it touches energy counts
alone. Finishing the old elements at BATCH_BEGIN moves none, for no beat is dispatched between a decided switch and its end: so a key
whose queue held drains alone has no beat to enter. A drain's delivery leaves the tub's entries and the rest of staging alone.
-/
namespace Sys2Proof.Machine
open Sys2Proof.Claims

@[simp] theorem rmax_mangle (d : Dev) (off n : Nat) : (rmax d off n).mangle = d.mangle := by
  fun_cases rmax <;> simp

/-! ## Dispatch to the lane input queues (R216) -/

/-- A staged request with another count of beats sent. -/
def withSent (g : Staged → Nat) (q : Staged) : Staged := { q with sent := g q }

/-- `e` comes of `d` by dispatch: some staged requests have had more beats sent, and energy counts have advanced. -/
def SentOn (d e : Dev) : Prop :=
  ∃ g n, (∀ q : Staged, q.sent ≤ g q) ∧ e = { d with mangle := { d.mangle with queue := d.mangle.queue.map (withSent g) }, energy := n }

theorem SentOn.refl (d : Dev) : SentOn d d := by
  have hsame : d.mangle.queue.map (withSent Staged.sent) = d.mangle.queue := List.map_id d.mangle.queue
  exact ⟨Staged.sent, d.energy, fun _ => le_rfl, by rw [hsame]⟩

theorem SentOn.trans {d e f : Dev} (h : SentOn d e) (h' : SentOn e f) : SentOn d f := by
  obtain ⟨g, n, hg, rfl⟩ := h
  obtain ⟨g', n', hg', rfl⟩ := h'
  refine ⟨fun q => g' (withSent g q), n', fun q => (hg q).trans (hg' (withSent g q)), ?_⟩
  rw [List.map_map]
  rfl

theorem sentOn_sendBeat (d : Dev) (s : Staged) : SentOn d (sendBeat d s) := by
  refine ⟨fun q => if q.txn = s.txn then q.sent + 1 else q.sent, (sendBeat d s).energy, fun q => ?_, ?_⟩
  · dsimp only
    split <;> omega
  · have hqueue : updWhere (fun q => q.txn = s.txn) (fun q => { q with sent := q.sent + 1 }) d.mangle.queue =
        d.mangle.queue.map (withSent fun q => if q.txn = s.txn then q.sent + 1 else q.sent) := by
      refine List.map_congr_left fun q _ => ?_
      by_cases hq : q.txn = s.txn <;> simp [withSent, hq]
    rw [← hqueue]
    rfl

theorem sentOn_dispatch (n : Nat) (d : Dev) (t : Nat) : SentOn d (dispatch n d t) := by
  induction n generalizing d with
  | zero => exact .refl d
  | succ n ih =>
    rw [dispatch]
    split
    · exact .refl d
    · split
      · exact (sentOn_sendBeat ..).trans (ih _)
      · exact .refl d

theorem sentOn_foldl_dispatch (n : Nat) (ts : List Nat) (d : Dev) : SentOn d (ts.foldl (dispatch n) d) := by
  induction ts generalizing d with
  | nil => exact .refl d
  | cons t ts ih => exact (sentOn_dispatch n d t).trans (ih _)

theorem sentOn_laneFill (d : Dev) : SentOn d (laneFill d) := by
  fun_cases laneFill
  · exact .refl d
  · exact sentOn_foldl_dispatch ..

theorem SentOn.key_eq {d e : Dev} (h : SentOn d e) : e.mangle.key = d.mangle.key := by obtain ⟨g, n, -, rfl⟩ := h; rfl
theorem SentOn.next_eq {d e : Dev} (h : SentOn d e) : e.mangle.next = d.mangle.next := by obtain ⟨g, n, -, rfl⟩ := h; rfl
theorem SentOn.batch_eq {d e : Dev} (h : SentOn d e) : e.mangle.batch = d.mangle.batch := by obtain ⟨g, n, -, rfl⟩ := h; rfl

theorem SentOn.queued_eq {d e : Dev} (h : SentOn d e) : queued e = queued d := by
  obtain ⟨g, n, -, rfl⟩ := h
  simp [queued, withSent, Function.comp_def]

/-- From the decision of a switch to its end nothing is dispatched (R214). -/
theorem laneFill_of_switching {d : Dev} (h : d.mangle.next.isSome = true) : laneFill d = d := by
  rw [laneFill, if_pos h]

/-- A drain hfinished back what stands behind it, and is not dispatched itself. -/
theorem dispatch_of_drains {d : Dev} (h : ∀ q ∈ d.mangle.queue, q.key = d.mangle.key → q.drain = true) (n t : Nat) :
    dispatch n d t = d := by
  have hline : (lineUp d t).takeWhile (fun q => !q.drain) = [] := by
    rw [List.takeWhile_eq_nil_iff]
    intro hpos
    obtain ⟨hmem, hview⟩ := List.mem_filter.mp (List.getElem_mem hpos)
    simp only [Bool.and_eq_true, decide_eq_true_eq] at hview
    obtain ⟨⟨hkey, -⟩, -⟩ := hview
    simp [h _ hmem hkey]
  cases n with
  | zero => rfl
  | succ n => simp [dispatch, hline]

theorem laneFill_of_drains {d : Dev} (h : ∀ q ∈ d.mangle.queue, q.key = d.mangle.key → q.drain = true) : laneFill d = d := by
  fun_cases laneFill
  · rfl
  · generalize (d.mangle.queue.map Staged.tile).eraseDups = ts
    induction ts with
    | nil => rfl
    | cons t ts ih => rw [List.foldl_cons, dispatch_of_drains h, ih]

/-! ## What the lanes hold of the staged requests -/

/-- What a staged request shows to the lanes: its key, whether it is a drain, and how many beats have been sent and have entered. -/
def laneView (q : Staged) : Nat × Bool × Nat × Nat := (q.key, q.drain, q.sent, q.entered)

/-- The decided switch stays as it is, and no staged request shows anything to the lanes that none showed before. -/
structure LanesStay (d e : Dev) : Prop where
  next  : e.mangle.next = d.mangle.next
  views : e.mangle.queue.map laneView ⊆ d.mangle.queue.map laneView

theorem LanesStay.trans {d e f : Dev} (h : LanesStay d e) (h' : LanesStay e f) : LanesStay d f :=
  ⟨h'.next.trans h.next, fun _ hv => h.views (h'.views hv)⟩

theorem LanesStay.of_mangle_eq {d e : Dev} (h : e.mangle = d.mangle) : LanesStay d e :=
  ⟨by rw [h], by rw [h]; exact List.Subset.refl _⟩

theorem LanesStay.refl (d : Dev) : LanesStay d d := .of_mangle_eq rfl

/-- The queue is rewritten by a function that no lane sees, and the rest that the lanes read stays. -/
theorem LanesStay.of_map {d e : Dev} {f : Staged → Staged} (hnext : e.mangle.next = d.mangle.next)
    (hqueue : e.mangle.queue = d.mangle.queue.map f) (hf : ∀ q, laneView (f q) = laneView q) : LanesStay d e := by
  refine ⟨hnext, ?_⟩
  rw [hqueue, List.map_map, show laneView ∘ f = laneView from funext hf]
  exact List.Subset.refl _

theorem LanesStay.ite {c : Prop} [Decidable c] {d e f : Dev} (he : LanesStay d e) (hf : LanesStay d f) : LanesStay d (if c then e else f) := by
  split
  · exact he
  · exact hf

/-- Where every staged request of a key is a drain of which no beat waits in a lane input queue, so it stays. -/
theorem LanesStay.drains {d e : Dev} {k : Nat} (h : LanesStay d e)
    (hd : ∀ q ∈ d.mangle.queue, q.key = k → q.drain = true ∧ q.sent ≤ q.entered) :
    ∀ q ∈ e.mangle.queue, q.key = k → q.drain = true ∧ q.sent ≤ q.entered := by
  intro q hq hkey
  obtain ⟨p, hp, hview⟩ := List.mem_map.mp (h.views (List.mem_map_of_mem hq))
  simp only [laneView, Prod.mk.injEq] at hview
  obtain ⟨hk, hdrain, hsent, hentered⟩ := hview
  rw [← hdrain, ← hsent, ← hentered]
  exact hd p hp (hk.trans hkey)

/-! ## Answers and failures seen from the lanes -/

section Answers
variable (d : Dev)

theorem send_mangle (dst : Nat) (b : MsgBody) : (send d dst b).mangle = d.mangle := by
  obtain ⟨l, n, h⟩ := sameButLink_send d dst b
  rw [h]

theorem answerOut_mangle (id : Nat) (c : Rsp) : (answerOut d id c).mangle = d.mangle := by
  unfold answerOut
  split
  · rfl
  · dsimp only
    split
    · split <;> rfl
    · exact send_mangle ..
    · rfl
    · rfl

theorem lanesStay_setTub (i : Nat) (x : Tub) : LanesStay d (setTub d i x) := ⟨rfl, List.Subset.refl _⟩

theorem lanesStay_setInc (g : Nat) (x : Incarnation) : LanesStay d (setInc d g x) := ⟨rfl, List.Subset.refl _⟩

theorem lanesStay_raise (e : Nat) (m b : Option Nat) : LanesStay d (raise d e m b) := .of_mangle_eq (raise_mangle ..)

theorem lanesStay_failGen (g : Nat) : LanesStay d (failGen d g) := by
  unfold failGen
  extract_lets free m d0 d1
  have h₀ : LanesStay d d0 := .of_map rfl rfl fun q => by dsimp only [free]; split <;> rfl
  have h₁ : LanesStay d d1 := by
    refine h₀.trans ?_
    dsimp only [d1]
    split
    · exact lanesStay_setInc ..
    · exact .refl d0
  split
  · exact h₁.trans ((lanesStay_setTub ..).trans (lanesStay_raise ..))
  · exact h₁

theorem lanesStay_m16Answer (x : Txn) (g chunk : Nat) : LanesStay d (m16Answer d x g chunk) := by
  unfold m16Answer
  extract_lets m upd t d1 ready m1 d2 d3 dec d4
  have hupd (f : Lease → Option Lease) : LanesStay d (upd f) := ⟨rfl, List.Subset.refl _⟩
  split
  · have h₂ : LanesStay d d2 := .of_map rfl rfl fun q => by dsimp only [ready]; split <;> rfl
    exact .ite (h₂.trans (lanesStay_failGen ..)) h₂
  · exact .ite ((hupd _).trans (lanesStay_failGen ..)) (hupd _)
  · have h₄ : LanesStay d d4 := ⟨rfl, List.Subset.refl _⟩
    exact .ite (h₄.trans (.of_mangle_eq (answerOut_mangle ..))) h₄

theorem lanesStay_respond (id : Nat) (c : Rsp) : LanesStay d (respond d id c) := by
  have hout : LanesStay d (answerOut d id c) := .of_mangle_eq (answerOut_mangle ..)
  unfold respond
  split
  · split
    · exact hout.trans (lanesStay_m16Answer ..)
    · exact hout
  · exact .refl d

theorem pressError_mangle (kind : Nat) (dirty : Bool) (tile set way : Nat) : (pressError d kind dirty tile set way).mangle = d.mangle := by
  have hraised : (raise (rinc d 0x6030 1) Ev.PRESS_SRAM).mangle = d.mangle := (raise_mangle ..).trans (rinc_mangle ..)
  unfold pressError
  generalize raise (rinc d 0x6030 1) Ev.PRESS_SRAM = e at hraised ⊢
  dsimp only
  split
  · exact hraised
  · exact (rset_mangle ..).trans hraised

theorem lanesStay_tubRead (g lo n : Nat) : LanesStay d (tubRead d g lo n) := by
  unfold tubRead
  extract_lets hit fs m d1
  have h₁ : LanesStay d d1 := ⟨rfl, List.Subset.refl _⟩
  have herr (fs : List TubFlaw) (e : Dev) : (fs.foldl (fun e f => pressError e 1 false f.tile f.set f.way) e).mangle = e.mangle := by
    induction fs generalizing e with
    | nil => rfl
    | cons f fs ih => rw [List.foldl_cons, ih, pressError_mangle]
  exact .ite (.refl d) (h₁.trans ((LanesStay.of_mangle_eq (herr fs d1)).trans (lanesStay_failGen ..)))

/-- Flags that become set raise their events: beside the tub's flags only registers and counters change (R213). -/
theorem setFlags_eq (g : Nat) (x : Incarnation) (f : NumFlags) :
    ∃ r t, setFlags d g x f = { setInc d g { x with flags := x.flags ||| f } with regs := r, tally := t } := by
  unfold setFlags
  generalize flagEvents _ = es
  generalize setInc d g _ = e
  induction es generalizing e with
  | nil => exact ⟨e.regs, e.tally, rfl⟩
  | cons a es ih =>
    obtain ⟨u, hu⟩ := raiseN_eq e a 1 none none
    obtain ⟨r, t, h⟩ := ih (raise e a)
    rw [raise, hu] at h
    exact ⟨r, t, by rw [List.foldl_cons, raise, hu, h]⟩

theorem lanesStay_setFlags (g : Nat) (x : Incarnation) (f : NumFlags) : LanesStay d (setFlags d g x f) := by
  obtain ⟨r, t, h⟩ := setFlags_eq d g x f
  rw [h]
  exact (lanesStay_setInc d g _).trans (.of_mangle_eq rfl)

/-- One staged request is rewritten by a function that no lane sees. -/
theorem lanesStay_onStaged (txn : Nat) {f : Staged → Staged} (hf : ∀ q, laneView (f q) = laneView q) : LanesStay d (onStaged d txn f) :=
  .of_map rfl rfl fun q => by
    split
    · exact hf q
    · rfl

theorem lanesStay_unstage {d : Dev} (h : d.mangle.next.isSome = true) (s : Staged) : LanesStay d (unstage d s) := by
  have hfill : unstage d s = _ := laneFill_of_switching h
  rw [hfill]
  exact ⟨rfl, List.map_subset _ (List.filter_subset_self _)⟩

theorem lanesStay_reduceTo (s : Staged) (k : Nat) : LanesStay d (reduceTo d s k) := by
  unfold reduceTo
  split
  next x inc _ _ =>
    extract_lets a n d1 d2 es r
    have h₁ : LanesStay d d1 := .ite (.refl d) (lanesStay_tubRead ..)
    have h₂ : LanesStay d d2 := h₁.trans (lanesStay_onStaged _ _ fun _ => rfl)
    split
    · exact .ite h₂ (h₂.trans ((LanesStay.of_mangle_eq (eCount_mangle ..)).trans (lanesStay_setFlags ..)))
    · exact h₂
  next => exact .refl d

end Answers

/-! ## The old elements finish (R214) -/

theorem lanesStay_finishContrib {d : Dev} (h : d.mangle.next.isSome = true) (s : Staged) : LanesStay d (finishContrib d s) := by
  have hreduced := lanesStay_reduceTo d s s.entries
  unfold finishContrib
  extract_lets d1
  have h₁ : LanesStay d d1 := hreduced.trans (lanesStay_unstage (by rw [hreduced.next, h]) s)
  split
  · exact h₁.trans (lanesStay_respond ..)
  · exact h₁

theorem lanesStay_finishOld {d : Dev} (h : d.mangle.next.isSome = true) (s : Staged) : LanesStay d (finishOld d s) :=
  .ite (lanesStay_finishContrib h s) (lanesStay_reduceTo ..)

theorem lanesStay_foldl_finishOld (olds : List Staged) {d : Dev} (h : d.mangle.next.isSome = true) : LanesStay d (olds.foldl finishOld d) := by
  induction olds generalizing d with
  | nil => exact .refl d
  | cons s olds ih =>
    have hone := lanesStay_finishOld h s
    exact hone.trans (ih (by rw [hone.next, h]))

/-! ## BATCH_BEGIN (R214, R218) -/

/-- The old elements have finished. -/
def oldsFinished (d : Dev) : Dev :=
  (d.mangle.queue.filter fun q => q.key = d.mangle.key && !q.drain && decide (q.written < q.entered)).foldl finishOld d

/-- The new key becomes current, without a batch. -/
def withKey (d : Dev) (k : Nat) : Dev := { d with mangle := { d.mangle with key := k, next := none, batch := none } }

/-- The old elements have finished, the new key is current, and its beats are dispatched. -/
def keyEntered (d : Dev) (k : Nat) : Dev := laneFill (withKey (oldsFinished d) k)

/-- The first beat of a key that waits in a lane input queue. -/
def firstSent (d : Dev) (k : Nat) : Option Staged := d.mangle.queue.find? fun q => q.key = k && q.entered < q.sent

theorem batchBegin_eq {d : Dev} {k : Nat} (hnext : d.mangle.next = some k) : batchBegin d =
    (firstSent (keyEntered d k) k).elim (keyEntered d k) fun s => laneFill (enterBeat (keyEntered d k) s) := by
  unfold batchBegin
  rw [hnext]
  dsimp only
  split
  next s hs =>
    have hfirst : firstSent (keyEntered d k) k = some s := hs
    rw [hfirst]
    rfl
  next hs =>
    have hfirst : firstSent (keyEntered d k) k = none := hs
    rw [hfirst]
    rfl

/-- A beat that has been sent enters: it counts in its request, and begins the batch if none runs. -/
theorem enterBeat_mangle (d : Dev) {s : Staged} (hsent : s.entered < s.sent) : ∃ ls bs, (enterBeat d s).mangle =
    { d.mangle with queue := updWhere (fun q => q.txn = s.txn) (fun q => { q with entered := q.entered + 1 }) d.mangle.queue,
                    batch := d.mangle.batch.or (some (d.cycle, batchMax d)), leases := ls, busy := bs } := by
  refine ⟨(enterBeat d s).mangle.leases, (enterBeat d s).mangle.busy, ?_⟩
  unfold enterBeat
  rw [if_neg (by omega), rmax_mangle, eCount_mangle, raise_mangle]
  rfl

theorem firstSent_sent {d : Dev} {k : Nat} {s : Staged} (h : firstSent d k = some s) : s.entered < s.sent := by
  have hs := List.find?_some h
  simp only [Bool.and_eq_true, decide_eq_true_eq] at hs
  exact hs.2

/-- The key is current once BATCH_BEGIN has run, and no switch is decided. -/
theorem batchBegin_key {d : Dev} {k : Nat} (hnext : d.mangle.next = some k) :
    (batchBegin d).mangle.key = k ∧ (batchBegin d).mangle.next = none := by
  have hentered : SentOn (withKey (oldsFinished d) k) (keyEntered d k) := sentOn_laneFill _
  cases hs : firstSent (keyEntered d k) k with
  | none =>
    rw [batchBegin_eq hnext, hs]
    exact ⟨hentered.key_eq, hentered.next_eq⟩
  | some s =>
    obtain ⟨ls, bs, hmangle⟩ := enterBeat_mangle (keyEntered d k) (firstSent_sent hs)
    have hfill := sentOn_laneFill (enterBeat (keyEntered d k) s)
    rw [batchBegin_eq hnext, hs, Option.elim_some, hfill.key_eq, hfill.next_eq, hmangle]
    exact ⟨hentered.key_eq, hentered.next_eq⟩

/-- A key whose queue hfinished drains alone becomes current without a batch (log entry 16). -/
theorem batchBegin_of_drains {d : Dev} {k : Nat} (hnext : d.mangle.next = some k)
    (hd : ∀ q ∈ d.mangle.queue, q.key = k → q.drain = true ∧ q.sent ≤ q.entered) : (batchBegin d).mangle.batch = none := by
  have hstay : LanesStay d (oldsFinished d) := lanesStay_foldl_finishOld _ (by rw [hnext]; rfl)
  have hdrains := hstay.drains hd
  have hentered : keyEntered d k = withKey (oldsFinished d) k := laneFill_of_drains fun q hq hkey => (hdrains q hq hkey).1
  have hs : firstSent (keyEntered d k) k = none := by
    rw [hentered]
    refine List.find?_eq_none.mpr fun q hq hsent => ?_
    simp only [Bool.and_eq_true, decide_eq_true_eq] at hsent
    exact absurd (hdrains q hq hsent.1).2 (by omega)
  rw [batchBegin_eq hnext, hs, hentered]
  rfl

/-! ## A CONTRIB alone in staging -/

theorem SentOn.single {d e : Dev} {q : Staged} (h : SentOn d e) (hq : d.mangle.queue = [q]) :
    ∃ r, e.mangle.queue = [r] ∧ r.txn = q.txn ∧ r.key = q.key ∧ r.entered = q.entered ∧ q.sent ≤ r.sent := by
  obtain ⟨g, n, hg, rfl⟩ := h
  exact ⟨withSent g q, by rw [hq]; rfl, rfl, rfl, rfl, hg q⟩

/-- The next beat of a CONTRIB alone in staging is dispatched where none waits in the lane input queue. -/
theorem dispatch_of_single {d : Dev} {q : Staged} (hq : d.mangle.queue = [q]) (hkey : q.key = d.mangle.key) (hdrain : q.drain = false)
    (hneeds : q.needs = []) (hsent : q.sent = q.entered) (hleft : q.entered < q.entries) (n : Nat) :
    dispatch (n + 1) d q.tile = dispatch n (sendBeat d q) q.tile := by
  have hline : lineUp d q.tile = [q] := by simp [lineUp, joined, hq, hkey, hneeds]
  simp [dispatch, hline, hdrain, hsent, hleft]

theorem laneFill_of_single {d : Dev} {q : Staged} (hnext : d.mangle.next = none) (hq : d.mangle.queue = [q]) (hkey : q.key = d.mangle.key)
    (hdrain : q.drain = false) (hneeds : q.needs = []) (hsent : q.sent = q.entered) (hleft : q.entered < q.entries) :
    ∃ r, (laneFill d).mangle.queue = [r] ∧ r.txn = q.txn ∧ r.key = q.key ∧ r.entered = q.entered ∧ r.entered < r.sent := by
  have hfill : laneFill d = dispatch 15 (sendBeat d q) q.tile := by
    rw [← dispatch_of_single hq hkey hdrain hneeds hsent hleft]
    have htiles : (d.mangle.queue.map Staged.tile).eraseDups = [q.tile] := by rw [hq]; rfl
    rw [laneFill, hnext, htiles]
    rfl
  have hone : (sendBeat d q).mangle.queue = [{ q with sent := q.sent + 1 }] := by simp [sendBeat, onStaged, updWhere, hq]
  obtain ⟨r, hqueue, htxn, hk, hentered, hmore⟩ := (sentOn_dispatch 15 (sendBeat d q) q.tile).single hone
  exact ⟨r, by rw [hfill, hqueue], htxn, hk, hentered, by dsimp only at hentered hmore; omega⟩

/-- Of a key of which one CONTRIB is staged, BATCH_BEGIN enters the next beat, and the batch begins in that step (R214, R218). -/
theorem batchBegin_of_single {d : Dev} {k : Nat} {q : Staged} (hnext : d.mangle.next = some k) (hq : d.mangle.queue = [q]) (hkey : q.key = k)
    (hother : k ≠ d.mangle.key) (hdrain : q.drain = false) (hneeds : q.needs = []) (hsent : q.sent = q.entered)
    (hleft : q.entered < q.entries) :
    (batchBegin d).mangle.batch = some (d.cycle, batchMax d) ∧
      ∃ r, (batchBegin d).mangle.queue = [r] ∧ r.txn = q.txn ∧ r.entered = q.entered + 1 := by
  have hfinished : oldsFinished d = d := by simp [oldsFinished, hq, hkey, hother]
  have hentered : SentOn (withKey d k) (keyEntered d k) := by rw [keyEntered, hfinished]; exact sentOn_laneFill _
  obtain ⟨r, hqueue, htxn, hrkey, hrentered, hrsent⟩ : ∃ r, (keyEntered d k).mangle.queue = [r] ∧ r.txn = q.txn ∧ r.key = q.key ∧
      r.entered = q.entered ∧ r.entered < r.sent := by
    rw [keyEntered, hfinished]
    exact laneFill_of_single rfl hq hkey hdrain hneeds hsent hleft
  have hs : firstSent (keyEntered d k) k = some r := by simp [firstSent, hqueue, hrkey, hkey, hrsent]
  obtain ⟨ls, bs, hmangle⟩ := enterBeat_mangle (keyEntered d k) hrsent
  have hone : (enterBeat (keyEntered d k) r).mangle.queue = [{ r with entered := r.entered + 1 }] := by simp [hmangle, updWhere, hqueue]
  have hfill := sentOn_laneFill (enterBeat (keyEntered d k) r)
  rw [batchBegin_eq hnext, hs, Option.elim_some]
  constructor
  · obtain ⟨g, n, -, heq⟩ := hentered
    rw [hfill.batch_eq, hmangle, heq]
    rfl
  · obtain ⟨u, hlast, hutxn, -, huentered, -⟩ := hfill.single hone
    exact ⟨u, hlast, hutxn.trans htxn, huentered.trans (congrArg (· + 1) hrentered)⟩

/-! ## KEY_SWITCH (R218) -/

/-- The switch is decided, and counted in DLG_MSWITCH; the beats that have not entered return to their key's queue (R214). -/
theorem keySwitch_decides {d : Dev} {k : Nat} (hnext : d.mangle.next = none) (hk : nextKey d = some k)
    (hdone : readyKey d d.mangle.key = false) :
    (keySwitch d).mangle = { d.mangle with next := some k, queue := d.mangle.queue.map fun e => { e with sent := e.entered } } ∧
    (keySwitch d).tiles = d.tiles ∧ rget (keySwitch d) 0x800C = BitVec.ofNat 32 (min ((rget d 0x800C).toNat + 1) 0xFFFFFFFF) := by
  have hswitch : keySwitch d =
      rinc (raise (withdraw { d with mangle := { d.mangle with next := some k } }) Ev.MANGLE_SWITCH) 0x800C 1 := by
    simp [keySwitch, hnext, hk, hdone]
  rw [hswitch]
  refine ⟨(rinc_mangle ..).trans (raise_mangle ..), (rinc_tiles ..).trans (raise_tiles ..), BitVec.eq_of_toNat_eq ?_⟩
  rw [toNat_rget_rinc, rget_raise_ne _ _ _ _ _ (by decide), BitVec.toNat_ofNat, Nat.mod_eq_of_lt (by omega)]
  rfl

/-! ## DRAIN_DELIVER (R208, R213, R237) -/

/-- A read of tub lines that hold no entry whose check fails changes nothing (R185). -/
theorem tubRead_of_no_flaw {d : Dev} {g : Nat} (h : ∀ f ∈ d.mangle.flaws, f.gen ≠ g) (lo n : Nat) : tubRead d g lo n = d := by
  unfold tubRead
  extract_lets hit fs m d1
  have hfs : fs = [] := List.filter_eq_nil_iff.mpr fun f hf => by simp [hit, h f hf]
  rw [hfs]
  rfl

/-- An answer to a port that is neither masked nor silent waits in the port's buffer, and a credit falls due (R143). -/
theorem respond_okay_port {d : Dev} {id n : Nat} {x : Txn} {tag : BitVec 8} (hx : getTxn d id = some x) (hsrc : x.src = .port n tag)
    (hsilent : x.silent = false) (hpoison : x.poisoned = false) (hmask : d.pins.mask.getLsbD n = false) : respond d id .okay =
      let done := (getPort d n).done ++ [(id, x.reserved, ⟨tag, .okay, (answerData x .okay).1, (answerData x .okay).2⟩)]
      pushDue (setTxn (setPort d n { getPort d n with done := done }) id { x with left := 0, unsent := [] }) x.master x.at_ true := by
  rw [respond_eq_answerOut hx (by simp [hsrc])]
  simp [answerOut, hx, hsrc, hsilent, hpoison, hmask]

/-- `e` hfinished the same requests as `d`, the same in its ports and pins, and the same in its tiles. -/
structure SameRequests (d e : Dev) : Prop where
  txns  : e.txns = d.txns
  ports : e.ports = d.ports
  pins  : e.pins = d.pins
  tiles : e.tiles = d.tiles

theorem SameRequests.trans {d e f : Dev} (h : SameRequests d e) (h' : SameRequests e f) : SameRequests d f :=
  ⟨h'.txns.trans h.txns, h'.ports.trans h.ports, h'.pins.trans h.pins, h'.tiles.trans h.tiles⟩

theorem SentOn.sameRequests {d e : Dev} (h : SentOn d e) : SameRequests d e := by
  obtain ⟨g, n, -, rfl⟩ := h
  exact ⟨rfl, rfl, rfl, rfl⟩

theorem sameRequests_eCount (d : Dev) (owner cls n : Nat) : SameRequests d (eCount d owner cls n) := ⟨rfl, rfl, rfl, rfl⟩

section SetFlags
variable (d : Dev) (g : Nat) (x : Incarnation) (f : NumFlags)

theorem sameRequests_setFlags : SameRequests d (setFlags d g x f) := by
  obtain ⟨r, t, h⟩ := setFlags_eq d g x f
  rw [h]
  exact ⟨rfl, rfl, rfl, rfl⟩

theorem getInc_setFlags : getInc (setFlags d g x f) g = some { x with flags := x.flags ||| f } := by
  obtain ⟨r, t, h⟩ := setFlags_eq d g x f
  rw [h]
  exact mget_minsert ..

theorem queued_setFlags : queued (setFlags d g x f) = queued d := by
  obtain ⟨r, t, h⟩ := setFlags_eq d g x f
  rw [h]
  rfl

end SetFlags

/-- Staging without the requests of a transaction. -/
def withoutTxn (d : Dev) (s : Staged) : Dev :=
  { d with mangle := { d.mangle with queue := d.mangle.queue.filter fun e => e.txn ≠ s.txn } }

/-- Before the drain's answer: the tub's lines are used, the drain leaves staging, and the flags of its result are set. -/
def drained (d : Dev) (t : Nat) (q : Staged) (x : Txn) (inc : Incarnation) (ovf : Bool) : Dev :=
  let d0 := { d with mangle := { d.mangle with busy := minsert d.mangle.busy t (netBeats x.sectors) } }
  setFlags (eCount (unstage (useLeases d0 q) q) t 9 (netBeats x.sectors)) q.gen inc (if ovf then fResult else 0)

section Drain
variable {d : Dev} {t : Nat} {q : Staged} {x : Txn} {inc : Incarnation}

theorem drainDeliver_eq (hq : headAt d t true = some q) (hx : getTxn d q.txn = some x) (hinc : getInc d q.gen = some inc)
    (hgood : inc.failed = false) (hflaws : ∀ f ∈ d.mangle.flaws, f.gen ≠ q.gen) :
    let r := drainSectors inc.op inc.fmt inc.mode inc.wb inc.accs (tubSector x.addr) x.sectors
    drainDeliver d t = respond (onTxn (drained d t q x inc r.2) q.txn fun x => { x with lines := drainLines x r.1 }) q.txn .okay := by
  have hread : stagedRead d q.gen x = d := by simp [stagedRead, hinc, hgood, tubRead_of_no_flaw hflaws]
  simp only [drainDeliver, hq, hx, hread, hinc, hgood]
  rfl

theorem sameRequests_drained (ovf : Bool) : SameRequests d (drained d t q x inc ovf) := by
  unfold drained
  extract_lets m d0
  have hleft : SameRequests d (withoutTxn (useLeases d0 q) q) := ⟨rfl, rfl, rfl, rfl⟩
  have hunstaged : SameRequests d (unstage (useLeases d0 q) q) := hleft.trans (sentOn_laneFill _).sameRequests
  exact hunstaged.trans ((sameRequests_eCount ..).trans (sameRequests_setFlags ..))

/-- The flags of the result are the tub's (R213). -/
theorem getInc_drained (ovf : Bool) : getInc (drained d t q x inc ovf) q.gen =
    some { inc with flags := inc.flags ||| (if ovf then fResult else 0) } := by
  unfold drained
  exact getInc_setFlags ..

/-- The drain has left staging. -/
theorem queued_drained (ovf : Bool) : queued (drained d t q x inc ovf) = (queued d).filter fun e => e.txn ≠ q.txn := by
  unfold drained
  extract_lets m d0
  have hleft : SentOn (withoutTxn (useLeases d0 q) q) (unstage (useLeases d0 q) q) := sentOn_laneFill _
  rw [queued_setFlags, queued, eCount_mangle, ← queued, hleft.queued_eq, queued, queued, List.filter_map]
  rfl

/-- The drain is answered with the rounded elements, and RESULT_OVF joins the flags where one overflows (R208, R213, R237). -/
theorem drainDeliver_answers {n : Nat} {tag : BitVec 8} (hq : headAt d t true = some q) (hx : getTxn d q.txn = some x)
    (hinc : getInc d q.gen = some inc) (hgood : inc.failed = false) (hsrc : x.src = .port n tag) (hsilent : x.silent = false)
    (hpoison : x.poisoned = false) (hmask : d.pins.mask.getLsbD n = false) (hflaws : ∀ f ∈ d.mangle.flaws, f.gen ≠ q.gen) :
    let r := drainSectors inc.op inc.fmt inc.mode inc.wb inc.accs (tubSector x.addr) x.sectors
    let a := answerData { x with lines := drainLines x r.1 } .okay
    getInc (drainDeliver d t) q.gen = some { inc with flags := inc.flags ||| (if r.2 then fResult else 0) } ∧
    queued (drainDeliver d t) = (queued d).filter (fun e => e.txn ≠ q.txn) ∧
    (getPort (drainDeliver d t) n).done = (getPort d n).done ++ [(q.txn, x.reserved, ⟨tag, .okay, a.1, a.2⟩)] ∧
    (drainDeliver d t).tiles = d.tiles := by
  intro r a
  have hsame := sameRequests_drained (d := d) (t := t) (q := q) (x := x) (inc := inc) r.2
  generalize he : drained d t q x inc r.2 = e at hsame
  have hxe : getTxn e q.txn = some x := (getTxn_congr hsame.txns _).trans hx
  have hdeliver : drainDeliver d t = respond (setTxn e q.txn { x with lines := drainLines x r.1 }) q.txn .okay := by
    rw [drainDeliver_eq hq hx hinc hgood hflaws, he, onTxn, hxe]
  have hanswer := respond_okay_port (getTxn_setTxn e q.txn { x with lines := drainLines x r.1 }) hsrc hsilent hpoison
    (by rw [setTxn_pins, hsame.pins]; exact hmask)
  rw [hdeliver, hanswer]
  refine ⟨?_, ?_, ?_, hsame.tiles⟩
  · rw [← getInc_drained (d := d) (t := t) (q := q) (x := x) r.2, he]
    rfl
  · rw [← queued_drained (t := t) (x := x) (inc := inc) r.2, he]
    rfl
  · have hdone : (getPort (setTxn e q.txn { x with lines := drainLines x r.1 }) n).done = (getPort d n).done :=
      congrArg Port.done (getPort_congr hsame.ports n)
    exact (congrArg Port.done (getPort_setPort ..)).trans (congrArg (· ++ _) hdone)

end Drain

/-- A command whose whole effect is on the device ends with what it makes of it. -/
theorem endsDev_of_onDev {c : Instr} {s : State} {f : Dev → Dev} {P : Dev → Prop} (hc : exec c s = onDev s f) (hP : P (f s.dev)) :
    EndsDev c s P := ⟨_, hc, hP⟩

end Sys2Proof.Machine

section
open Sys2Proof.Machine Sys2Proof.Claims

/-- Settles O21: KEY_SWITCH and DRAIN_DELIVER by what they do to the queue and to the tub; BATCH_BEGIN by the beat that enters, or by
the drains alone, which no lane takes. -/
theorem keysSwitchAndDrainsDeliver : Obligations.KeysSwitchAndDrainsDeliver := by
  refine ⟨⟨fun k s hnext hk hdone => ?_, fun k s hnext => ?_, fun k q s hnext hq hkey hother hdrain hneeds hsent hleft => ?_⟩, ?_⟩
  · exact endsDev_of_onDev rfl (keySwitch_decides hnext hk hdone)
  · obtain ⟨hkey, hnone⟩ := batchBegin_key hnext
    exact endsDev_of_onDev rfl ⟨hkey, hnone, batchBegin_of_drains hnext⟩
  · exact endsDev_of_onDev rfl (batchBegin_of_single hnext hq hkey hother hdrain hneeds hsent hleft)
  · intro t q x inc n tag s hq hx hinc hgood _ hsrc hsilent hpoison hmask hflaws
    exact endsDev_of_onDev (f := (drainDeliver · t.val)) rfl
      (drainDeliver_answers hq hx hinc hgood hsrc hsilent hpoison hmask hflaws)

end
end

section
/-!
Contributions at Mangle control's input and at the lanes (R198, R213 to R217, R230). A beat that enters a lane pipeline changes counts,
its own staged request, and what the lanes and the leases record; so once the last one has entered, the CONTRIB's reduction finds the
tub's entries and flags as they were.
-/
namespace Sys2Proof.Machine
open Sys2Proof.Claims

/-! ## CONTRIB_STAGED (R216, R217, R230) -/

/-- The one request at the input is decided and nothing waits there; then beats are dispatched. -/
theorem pumpInput_singleton {d e : Dev} {id : Nat} (h : decideTub d id = some e) :
    pumpInput d [id] = laneFill { e with mangle := { e.mangle with input := [] } } := by
  simp [pumpInput, h]

theorem SentOn.input_eq {d e : Dev} (h : SentOn d e) : e.mangle.input = d.mangle.input := by obtain ⟨g, n, -, rfl⟩ := h; rfl

theorem SentOn.getTub_eq {d e : Dev} (h : SentOn d e) (i : Nat) : getTub e i = getTub d i := by obtain ⟨g, n, -, rfl⟩ := h; rfl

theorem SentOn.getInc_eq {d e : Dev} (h : SentOn d e) (g : Nat) : getInc e g = getInc d g := by obtain ⟨f, n, -, rfl⟩ := h; rfl

theorem sameRequests_raise (d : Dev) (e : Nat) (m b : Option Nat) : SameRequests d (raise d e m b) :=
  ⟨raise_txns .., raise_ports .., raise_pins .., raise_tiles ..⟩

/-- A CONTRIB of a tub raises CONTRIB_ACCEPTED, and TUB_SURPLUS where the tub was complete (R235). -/
def contribAccepted (d : Dev) (t : Tub) (m : Nat) : Dev :=
  let d1 := raise d Ev.CONTRIB_ACCEPTED (some m)
  if tubComplete t then raise d1 Ev.TUB_SURPLUS (some m) else d1

theorem contribAccepted_eq (d : Dev) (t : Tub) (m : Nat) : ∃ r y, contribAccepted d t m = { d with regs := r, tally := y } := by
  obtain ⟨y, hy⟩ := raiseN_eq d Ev.CONTRIB_ACCEPTED 1 (some m) none
  obtain ⟨z, hz⟩ := raiseN_eq (raise d Ev.CONTRIB_ACCEPTED (some m)) Ev.TUB_SURPLUS 1 (some m) none
  unfold contribAccepted
  dsimp only
  split
  · exact ⟨_, z, by rw [raise, hz, raise, hy]⟩
  · exact ⟨_, y, hy⟩

/-- Its sectors count towards the tub's completion (R235). -/
def contribCounted (d : Dev) (i : Nat) (t : Tub) (m sectors : Nat) : Dev :=
  setTub (contribAccepted d t m) i { t with sectorsIn := min (t.sectorsIn + sectors) (2 ^ 40 - 1) }

/-- What a CONTRIB of a resident tub takes in staging: an entry for each data beat, and no chunk is lacking (R216, R240). -/
def contribEntry (d : Dev) (id : Nat) (t : Tub) (inc : Incarnation) (sectors : Nat) : Staged :=
  ⟨id, t.gen, keyIndex inc.op inc.fmt inc.mode, inc.home, beatsOf sectors, d.cycle, false, [], 0, 0, 0⟩

/-- The device with one more staged request. -/
def withStaged (d : Dev) (s : Staged) : Dev := { d with mangle := { d.mangle with queue := d.mangle.queue ++ [s] } }

/-- A request of a resident tub lacks no chunk (R240). -/
theorem stage_of_resident {d : Dev} {g : Nat} {x : Incarnation} (hinc : getInc d g = some x) (hresident : x.spill = [])
    (id off n entries : Nat) (drain : Bool) : stage d id g off n entries drain =
      withStaged d ⟨id, g, keyIndex x.op x.fmt x.mode, x.home, entries, d.cycle, drain, [], 0, 0, 0⟩ := by
  simp [stage, hinc, lacking, hresident, withStaged]

section Staged
variable {d : Dev} {id : Nat} {x : Txn} {t : Tub} {inc : Incarnation} (ht : getTub d (tubIdOf x.addr) = t) (hopen : t.state = .open_)
  (htag : t.tag = x.attr) (hrange : rangeOk t (tubSector x.addr) x.sectors = true) (hinc : getInc d t.gen = some inc)
  (hresident : inc.spill = []) (hroom : stagingUsed d + beatsOf x.sectors ≤ 8192)
include ht hopen htag hrange hinc hresident hroom

theorem decideContrib_open : decideContrib d id x =
    some (withStaged (contribCounted d (tubIdOf x.addr) t x.master x.sectors) (contribEntry d id t inc x.sectors)) := by
  have hheader : ¬(t.state = .free ∨ t.tag ≠ x.attr) := by simp [hopen, htag]
  obtain ⟨r, y, haccepted⟩ := contribAccepted_eq d t x.master
  have hcounted : getInc (contribCounted d (tubIdOf x.addr) t x.master x.sectors) t.gen = some inc := by
    rw [contribCounted, haccepted]
    exact hinc
  have hcycle : (contribCounted d (tubIdOf x.addr) t x.master x.sectors).cycle = d.cycle := by
    rw [contribCounted, haccepted]
    rfl
  have hstage : decideContrib d id x = some (stage (contribCounted d (tubIdOf x.addr) t x.master x.sectors) id t.gen
      (tubSector x.addr) x.sectors (beatsOf x.sectors) false) := by
    unfold decideContrib
    dsimp only
    rw [ht, if_neg hheader, if_neg (by simp [hrange])]
    simp only [contribCounted, hopen, if_neg (Nat.not_lt.mpr hroom)]
    rfl
  rw [hstage, stage_of_resident hcounted hresident, hcycle]
  rfl

/-- The CONTRIB waits in its key's queue, its sectors count, and nothing waits at the input (R216, R217, R235). -/
theorem pumpInput_contrib (hinput : d.mangle.input = [id]) (hx : getTxn d id = some x) (hkind : x.kind = .contrib)
    (hmark : x.mark = none) :
    (pumpInput d d.mangle.input).mangle.input = [] ∧
    queued (pumpInput d d.mangle.input) = queued d ++ [contribEntry d id t inc x.sectors] ∧
    getTub (pumpInput d d.mangle.input) (tubIdOf x.addr) = { t with sectorsIn := min (t.sectorsIn + x.sectors) (2 ^ 40 - 1) } ∧
    getTxn (pumpInput d d.mangle.input) id = some x ∧ (pumpInput d d.mangle.input).tiles = d.tiles := by
  have hdecided : decideTub d id = some (withStaged (contribCounted d (tubIdOf x.addr) t x.master x.sectors)
      (contribEntry d id t inc x.sectors)) := by
    rw [← decideContrib_open ht hopen htag hrange hinc hresident hroom]
    simp only [decideTub, hx, hmark, hkind]
  obtain ⟨r, y, haccepted⟩ := contribAccepted_eq d t x.master
  rw [contribCounted, haccepted] at hdecided
  rw [hinput, pumpInput_singleton hdecided]
  generalize hlast : ({ withStaged _ _ with mangle := _ } : Dev) = e
  have hsent := sentOn_laneFill e
  rw [hsent.input_eq, hsent.queued_eq, hsent.getTub_eq, getTxn_congr hsent.sameRequests.txns, hsent.sameRequests.tiles, ← hlast]
  refine ⟨rfl, ?_, getTub_setTub .., hx, rfl⟩
  exact List.map_append

end Staged

/-! ## Beats enter the lanes (R214, R216) -/

/-- The staged requests of other transactions, but for how many of their beats stand in a lane input queue. -/
def queuedApart (d : Dev) (txn : Nat) : List Staged := (queued d).filter fun e => e.txn ≠ txn

/-- Beats of a transaction enter lane pipelines: requests, tubs' incarnations, damaged tub lines, and the staged requests of other
transactions stay as they are. -/
structure BeatsEnter (txn : Nat) (d e : Dev) : Prop where
  same  : SameRequests d e
  incs  : e.mangle.incs = d.mangle.incs
  flaws : e.mangle.flaws = d.mangle.flaws
  apart : queuedApart e txn = queuedApart d txn

theorem BeatsEnter.refl (txn : Nat) (d : Dev) : BeatsEnter txn d d := ⟨⟨rfl, rfl, rfl, rfl⟩, rfl, rfl, rfl⟩

theorem BeatsEnter.trans {txn : Nat} {d e f : Dev} (h : BeatsEnter txn d e) (h' : BeatsEnter txn e f) : BeatsEnter txn d f :=
  ⟨h.same.trans h'.same, h'.incs.trans h.incs, h'.flaws.trans h.flaws, h'.apart.trans h.apart⟩

/-- What changes neither requests nor anything of Mangle. -/
theorem BeatsEnter.of_mangle_eq {txn : Nat} {d e : Dev} (hsame : SameRequests d e) (h : e.mangle = d.mangle) : BeatsEnter txn d e :=
  ⟨hsame, by rw [h], by rw [h], by rw [queuedApart, queued, h]; rfl⟩

/-- Rewriting the staged requests of one transaction leaves the others. -/
theorem queuedApart_onStaged (d : Dev) (txn : Nat) {f : Staged → Staged} (hf : ∀ q, (f q).txn = q.txn) :
    queuedApart (onStaged d txn f) txn = queuedApart d txn := by
  simp only [queuedApart, queued, onStaged, updWhere]
  induction d.mangle.queue with
  | nil => rfl
  | cons q qs ih =>
    by_cases hq : q.txn = txn
    · simpa [hq, hf] using ih
    · simpa [hq] using ih

theorem beatsEnter_onStaged (d : Dev) (txn : Nat) {f : Staged → Staged} (hf : ∀ q, (f q).txn = q.txn) :
    BeatsEnter txn d (onStaged d txn f) :=
  ⟨⟨rfl, rfl, rfl, rfl⟩, rfl, rfl, queuedApart_onStaged d txn hf⟩

theorem beatsEnter_eCount (txn : Nat) (d : Dev) (owner cls n : Nat) : BeatsEnter txn d (eCount d owner cls n) :=
  .of_mangle_eq (sameRequests_eCount ..) rfl

theorem beatsEnter_raise (txn : Nat) (d : Dev) (e : Nat) (m b : Option Nat) : BeatsEnter txn d (raise d e m b) :=
  .of_mangle_eq (sameRequests_raise ..) (raise_mangle ..)

theorem beatsEnter_rmax (txn : Nat) (d : Dev) (off n : Nat) : BeatsEnter txn d (rmax d off n) := by
  refine .of_mangle_eq ?_ (rmax_mangle ..)
  fun_cases rmax <;> exact ⟨rfl, rfl, rfl, rfl⟩

theorem beatsEnter_sendBeat (d : Dev) (s : Staged) : BeatsEnter s.txn d (sendBeat d s) :=
  (beatsEnter_onStaged d s.txn (f := fun q => { q with sent := q.sent + 1 }) fun _ => rfl).trans (beatsEnter_eCount ..)

theorem beatsEnter_useLeases (txn : Nat) (d : Dev) (s : Staged) : BeatsEnter txn d (useLeases d s) := ⟨⟨rfl, rfl, rfl, rfl⟩, rfl, rfl, rfl⟩

theorem beatsEnter_enterBeat (d : Dev) (s : Staged) : BeatsEnter s.txn d (enterBeat d s) := by
  unfold enterBeat
  extract_lets d0 cyc d1 m d2
  have h₀ : BeatsEnter s.txn d d0 := by
    dsimp only [d0]
    split
    · exact beatsEnter_sendBeat d s
    · exact .refl _ d
  have h₁ : BeatsEnter s.txn d d1 := h₀.trans <|
    (beatsEnter_onStaged d0 s.txn (f := fun q => { q with entered := q.entered + 1 }) fun _ => rfl).trans (beatsEnter_useLeases ..)
  have h₂ : BeatsEnter s.txn d d2 := h₁.trans ⟨⟨rfl, rfl, rfl, rfl⟩, rfl, rfl, rfl⟩
  exact h₂.trans <| (beatsEnter_raise ..).trans <| (beatsEnter_eCount ..).trans (beatsEnter_rmax ..)

theorem beatsEnter_enterAll (n : Nat) (d : Dev) (txn : Nat) : BeatsEnter txn d (enterAll n d txn) := by
  induction n generalizing d with
  | zero => exact .refl txn d
  | succ n ih =>
    rw [enterAll]
    split
    next s hs =>
      have htxn : s.txn = txn := by simpa using List.find?_some hs
      split
      · exact (htxn ▸ beatsEnter_enterBeat d s).trans (ih _)
      · exact .refl txn d
    next => exact .refl txn d

/-! ## CONTRIB_REDUCED (R198, R213 to R215) -/

/-- What a CONTRIB's elements that no switch has had written before make of its tub's entries, and the flags that they set (R198,
R214). -/
def reduced (q : Staged) (x : Txn) (inc : Incarnation) : SMap Acc × NumFlags :=
  let lo := beatCut inc.fmt x.sectors q.written
  accumulate inc.op inc.fmt inc.mode inc.wb inc.accs
    (((elements inc.fmt (tubSector x.addr) x.sectors (sectorData x.beats)).drop lo).take (beatCut inc.fmt x.sectors q.entries - lo))

/-- The elements are in the tub's entries, the flags are set, and the CONTRIB has left staging. -/
def reducedAt (d : Dev) (q : Staged) (x : Txn) (inc : Incarnation) : Dev :=
  let d2 := onStaged d q.txn fun s => { s with written := q.entries }
  let r := reduced q x inc
  unstage (setFlags (eCount d2 q.tile 6 (beatLines inc x.sectors q.written q.entries)) q.gen { inc with accs := r.1 } r.2) q

section Reduced
variable {d : Dev} {q : Staged} {x : Txn} {inc : Incarnation}

theorem sentOn_unstage (d : Dev) (s : Staged) : SentOn (withoutTxn d s) (unstage d s) := sentOn_laneFill _

theorem queued_withoutTxn (d : Dev) (s : Staged) : queued (withoutTxn d s) = queuedApart d s.txn := by
  rw [queuedApart, queued, queued, List.filter_map]
  rfl

theorem sameRequests_unstage (d : Dev) (s : Staged) : SameRequests d (unstage d s) := by
  have hleft : SameRequests d (withoutTxn d s) := ⟨rfl, rfl, rfl, rfl⟩
  exact hleft.trans (sentOn_unstage d s).sameRequests

theorem sameRequests_reducedAt : SameRequests d (reducedAt d q x inc) := by
  have hcounted (e : Dev) (f : Staged → Staged) (n : Nat) : SameRequests e (eCount (onStaged e q.txn f) q.tile 6 n) := ⟨rfl, rfl, rfl, rfl⟩
  exact (hcounted d _ _).trans ((sameRequests_setFlags ..).trans (sameRequests_unstage ..))

theorem getInc_reducedAt : getInc (reducedAt d q x inc) q.gen =
    some { inc with accs := (reduced q x inc).1, flags := inc.flags ||| (reduced q x inc).2 } := by
  rw [reducedAt, (sentOn_unstage ..).getInc_eq]
  exact getInc_setFlags ..

theorem queued_reducedAt : queued (reducedAt d q x inc) = queuedApart d q.txn := by
  rw [reducedAt, (sentOn_unstage ..).queued_eq, queued_withoutTxn, queuedApart, queued_setFlags]
  exact queuedApart_onStaged d q.txn fun _ => rfl

theorem finishContrib_eq (hx : getTxn d q.txn = some x) (hinc : getInc d q.gen = some inc) (hgood : inc.failed = false)
    (hflaws : ∀ f ∈ d.mangle.flaws, f.gen ≠ q.gen) : finishContrib d q = respond (reducedAt d q x inc) q.txn .okay := by
  have hreduce : unstage (reduceTo d q q.entries) q = reducedAt d q x inc := by
    simp only [reducedAt, reduced, reduceTo, hx, hinc, hgood, tubRead_of_no_flaw hflaws, Bool.false_eq_true, ↓reduceIte]
  simp [finishContrib, hreduce, getInc_reducedAt, hgood]

/-- A CONTRIB is reduced into its tub's entries, sets its flags, leaves staging and is answered OKAY (R198, R213, R215). -/
theorem contribReduced_answers {t n : Nat} {tag : BitVec 8} (hq : headAt d t false = some q) (hx : getTxn d q.txn = some x)
    (hinc : getInc d q.gen = some inc) (hgood : inc.failed = false) (hkind : x.kind = .contrib) (hsrc : x.src = .port n tag)
    (hsilent : x.silent = false) (hpoison : x.poisoned = false) (hmask : d.pins.mask.getLsbD n = false)
    (hflaws : ∀ f ∈ d.mangle.flaws, f.gen ≠ q.gen) :
    getInc (contribReduced d t) q.gen =
      some { inc with accs := (reduced q x inc).1, flags := inc.flags ||| (reduced q x inc).2 } ∧
    queued (contribReduced d t) = (queued d).filter (fun e => e.txn ≠ q.txn) ∧
    (getPort (contribReduced d t) n).done = (getPort d n).done ++ [(q.txn, x.reserved, ⟨tag, .okay, [0], [0]⟩)] ∧
    (contribReduced d t).tiles = d.tiles := by
  have henter := beatsEnter_enterAll (q.entries - q.entered) d q.txn
  have hreduced : contribReduced d t = finishContrib (enterAll (q.entries - q.entered) d q.txn) q := by simp only [contribReduced, hq]
  generalize enterAll (q.entries - q.entered) d q.txn = e at henter hreduced
  have hxe : getTxn e q.txn = some x := (getTxn_congr henter.same.txns _).trans hx
  have hince : getInc e q.gen = some inc := by rw [getInc, henter.incs]; exact hinc
  have hflawse : ∀ f ∈ e.mangle.flaws, f.gen ≠ q.gen := by rw [henter.flaws]; exact hflaws
  have hsame : SameRequests d (reducedAt e q x inc) := henter.same.trans sameRequests_reducedAt
  have hentries := getInc_reducedAt (d := e) (q := q) (x := x) (inc := inc)
  have hqueued : queued (reducedAt e q x inc) = queuedApart d q.txn := queued_reducedAt.trans henter.apart
  rw [hreduced, finishContrib_eq hxe hince hgood hflawse]
  generalize reducedAt e q x inc = u at hsame hentries hqueued ⊢
  have hxu : getTxn u q.txn = some x := (getTxn_congr hsame.txns _).trans hx
  have hdata : answerData x .okay = ([0], [0]) := by simp [answerData, hkind]
  rw [respond_okay_port hxu hsrc hsilent hpoison (by rw [hsame.pins]; exact hmask), hdata]
  refine ⟨hentries, hqueued, ?_, hsame.tiles⟩
  have hdone : (getPort u n).done = (getPort d n).done := congrArg Port.done (getPort_congr hsame.ports n)
  exact (congrArg Port.done (getPort_setPort ..)).trans (congrArg (· ++ _) hdone)

end Reduced

end Sys2Proof.Machine

section
open Sys2Proof.Machine Sys2Proof.Claims

/-- Settles O22: CONTRIB_STAGED by the decision of the one request at the input; CONTRIB_REDUCED by the reduction that follows the
entry of the last beats, which leaves the tub's entries to it. -/
theorem contributionsAreStagedAndReduced : Obligations.ContributionsAreStagedAndReduced := by
  constructor
  · intro id x inc s i t hinput hx hkind hmark hopen htag hrange hinc hresident hroom
    exact endsDev_of_onDev (f := fun d => pumpInput d d.mangle.input) rfl
      (pumpInput_contrib rfl hopen htag hrange hinc hresident hroom hinput hx hkind hmark)
  · intro t q x inc n tag s hq hx hinc hgood hkind hsrc hsilent hpoison hmask hflaws
    exact endsDev_of_onDev (f := (contribReduced · t.val)) rfl
      (contribReduced_answers hq hx hinc hgood hkind hsrc hsilent hpoison hmask hflaws)

end
end

section
/-!
Chunks of tubs and the transfers of M16 (R239 to R241). A transfer's request begins behind those that wait for M16, and beyond that
changes nothing. The read of a chunk's lines before its write-back may find a failed check (R185): then the tub fails, which touches
neither leases nor what M16 has asked for.
-/
namespace Sys2Proof.Machine
open Sys2Proof.Claims

/-! ## A transfer of M16 begins (R240, R241) -/

section M16
variable (d : Dev) (k : Kind) (g c n : Nat) (b : List (BeatEn × BeatData))

@[simp] theorem m16Txn_mangle : (m16Txn d k g c n b).mangle = d.mangle := rfl

/-- M16's request is for the whole chunk, and names what it serves. -/
theorem getTxn_m16Txn : ∃ y, getTxn (m16Txn d k g c n b) d.nextTxn = some y ∧ y.kind = k ∧ y.master = 16 ∧ y.sectors = 128 ∧
    y.hint = .none ∧ y.src = .m16 g c ∧ y.addr = chunkAddr d n :=
  ⟨_, mget_minsert .., rfl, rfl, rfl, rfl, rfl, rfl⟩

theorem queue_m16Txn : (getMaster (m16Txn d k g c n b) 16).queue = (getMaster d 16).queue ++ [d.nextTxn] := by
  rw [m16Txn, queueAt, getMaster_setMaster]
  rfl

end M16

/-! ## CHUNK_RELEASE (R239) -/

/-- The resident chunks of the first freed incarnation with no request left are free at its home tile. -/
theorem chunkRelease_resident {d : Dev} {g : Nat} {x : Incarnation}
    (hfirst : d.mangle.incs.find? (fun e => e.2.freed && !(d.mangle.queue.any fun q => q.gen = e.1) && !m16Busy d e.1) = some (g, x))
    (hresident : x.spill = []) :
    getInc (chunkRelease d) g = none ∧
    mgetD 0 (chunkRelease d).mangle.taken x.home = mgetD 0 d.mangle.taken x.home - x.chunks ∧
    (∀ h, h ≠ x.home → mgetD 0 (chunkRelease d).mangle.taken h = mgetD 0 d.mangle.taken h) ∧ (chunkRelease d).tiles = d.tiles := by
  simp only [chunkRelease, hfirst, hresident, List.isEmpty_nil, ↓reduceIte, and_true]
  exact ⟨mget_merase .., mgetD_mputD .., fun h hh => mgetD_mputD_ne _ _ _ _ _ hh⟩

/-! ## LEASE_READ (R240) -/

theorem leaseRead_reads {d : Dev} {t g c : Nat} {x : Incarnation} (hwanted : wanted d t = some (g, c)) (hinc : getInc d g = some x)
    (hroom : (mgetD [] d.mangle.leases t).length < 16) :
    mgetD [] (leaseRead d t).mangle.leases t = mgetD [] d.mangle.leases t ++ [⟨g, c, d.cycle, 0⟩] ∧
    (∃ y, getTxn (leaseRead d t) d.nextTxn = some y ∧ y.kind = .read ∧ y.master = 16 ∧ y.sectors = 128 ∧ y.src = .m16 g c ∧
      y.addr = chunkAddr d (x.spill.getD c 0)) ∧
    (getMaster (leaseRead d t) 16).queue = (getMaster d 16).queue ++ [d.nextTxn] := by
  simp only [leaseRead, hwanted, hinc, hroom, ↓reduceIte]
  generalize hd : ({ d with mangle := _ } : Dev) = d1
  refine ⟨?_, ?_, ?_⟩
  · rw [m16Txn_mangle, ← hd]
    exact mgetD_mputD ..
  · obtain ⟨y, hy, hkind, hmaster, hsectors, -, hsrc, haddr⟩ := getTxn_m16Txn d1 .read g c (x.spill.getD c 0) []
    subst hd
    exact ⟨y, hy, hkind, hmaster, hsectors, hsrc, haddr⟩
  · rw [queue_m16Txn, ← hd]
    rfl

/-! ## LEASE_WRITEBACK (R241) -/

/-- Leases, what M16 has asked for, and where chunks lie in memory stay as they are. -/
structure LeasesStay (d e : Dev) : Prop where
  leases : e.mangle.leases = d.mangle.leases
  next   : e.nextTxn = d.nextTxn
  reg    : e.reg = d.reg
  inst   : e.boot = d.boot
  region : rget e 0x4010 = rget d 0x4010

theorem LeasesStay.refl (d : Dev) : LeasesStay d d := ⟨rfl, rfl, rfl, rfl, rfl⟩

theorem LeasesStay.trans {d e f : Dev} (h : LeasesStay d e) (h' : LeasesStay e f) : LeasesStay d f :=
  ⟨h'.leases.trans h.leases, h'.next.trans h.next, h'.reg.trans h.reg, h'.inst.trans h.inst, h'.region.trans h.region⟩

theorem LeasesStay.chunkAddr_eq {d e : Dev} (h : LeasesStay d e) (n : Nat) : chunkAddr e n = chunkAddr d n := by
  simp only [chunkAddr, rbits, h.inst, h.region]

section Stay
variable (d : Dev)

theorem leasesStay_raise (e : Nat) (m b : Option Nat) : LeasesStay d (raise d e m b) :=
  ⟨by rw [raise_mangle], raise_nextTxn .., raise_reg .., raise_boot .., rget_raise_ne _ _ _ _ _ (by decide)⟩

theorem leasesStay_rset {off : Nat} (h : 0x4010 ≠ off) (v : Word) : LeasesStay d (rset d off v) :=
  ⟨rfl, rfl, rfl, rfl, rget_rset_ne _ _ _ _ h⟩

theorem leasesStay_failGen (g : Nat) : LeasesStay d (failGen d g) := by
  unfold failGen
  extract_lets free m d0 d1
  have h₁ : LeasesStay d d1 := by
    dsimp only [d1]
    split <;> exact ⟨rfl, rfl, rfl, rfl, rfl⟩
  split
  next i t _ =>
    have hfailed : LeasesStay d1 (setTub d1 i { t with state := .failed }) := ⟨rfl, rfl, rfl, rfl, rfl⟩
    exact h₁.trans (hfailed.trans (leasesStay_raise ..))
  next => exact h₁

theorem leasesStay_pressError (kind : Nat) (dirty : Bool) (tile set way : Nat) : LeasesStay d (pressError d kind dirty tile set way) := by
  unfold pressError
  extract_lets d1
  have h₁ : LeasesStay d d1 := (leasesStay_rset d (by decide) _).trans (leasesStay_raise ..)
  split
  · exact h₁
  · exact h₁.trans (leasesStay_rset _ (by decide) _)

theorem leasesStay_tubRead (g lo n : Nat) : LeasesStay d (tubRead d g lo n) := by
  unfold tubRead
  extract_lets hit fs m d1
  have herrs (fs : List TubFlaw) (e : Dev) : LeasesStay e (fs.foldl (fun e f => pressError e 1 false f.tile f.set f.way) e) := by
    induction fs generalizing e with
    | nil => exact .refl e
    | cons f fs ih => exact (leasesStay_pressError ..).trans (ih _)
  split
  · exact .refl d
  · have h₁ : LeasesStay d d1 := ⟨rfl, rfl, rfl, rfl, rfl⟩
    exact h₁.trans ((herrs fs d1).trans (leasesStay_failGen ..))

theorem leasesStay_freeBeats : LeasesStay d (freeBeats d).2 := ⟨rfl, rfl, rfl, rfl, rfl⟩

theorem leasesStay_eCount (owner cls n : Nat) : LeasesStay d (eCount d owner cls n) := ⟨rfl, rfl, rfl, rfl, rfl⟩

end Stay

/-- A lease chunk is on its way out, and the requests that touch it lack it again. -/
def leaseGoesOut (d : Dev) (t : Nat) (l : Lease) : Dev :=
  let away (e : Lease) : Lease := if e = l then { e with phase := 2 } else e
  let lost (s : Staged) : Staged :=
    if touches d s l.gen l.chunk && !s.needs.contains l.chunk then { s with needs := s.needs ++ [l.chunk] } else s
  { d with mangle := { d.mangle with
      leases := mputD [] d.mangle.leases t ((mgetD [] d.mangle.leases t).map away), queue := d.mangle.queue.map lost } }

/-- The chunk's 64 beats have been read and have left the tile. -/
def leaseGone (d : Dev) (t : Nat) (l : Lease) (x : Incarnation) : Dev :=
  eCount (freeBeats (tubRead (leaseGoesOut d t l) l.gen (l.chunk * perChunk x) (perChunk x))).2 t 9 64

section Writeback
variable {d : Dev} {t : Nat} {l : Lease} {x : Incarnation} (hwanted : (wanted d t).isSome = true)
  (hfull : 16 ≤ (mgetD [] d.mangle.leases t).length) (honly : (mgetD [] d.mangle.leases t).filter (leaseIdle d t) = [l])
include hwanted hfull honly

theorem leaseWriteback_eq (hinc : getInc d l.gen = some x) (hspent : isSpent d l = false) :
    ∃ b, leaseWriteback d t = m16Txn (leaseGone d t l x) .writebolt l.gen l.chunk (x.spill.getD l.chunk 0) b := by
  simp only [leaseWriteback, hwanted, hfull, honly, hinc, hspent, decide_true, Bool.and_self, List.foldl_cons, List.foldl_nil]
  exact ⟨_, rfl⟩

/-- The only idle lease chunk is written back whole (R241). -/
theorem leaseWriteback_writes (hinc : getInc d l.gen = some x) (hspent : isSpent d l = false) :
    mgetD [] (leaseWriteback d t).mangle.leases t =
      (mgetD [] d.mangle.leases t).map (fun e => if e = l then { e with phase := 2 } else e) ∧
    (∃ y, getTxn (leaseWriteback d t) d.nextTxn = some y ∧ y.kind = .writebolt ∧ y.master = 16 ∧ y.sectors = 128 ∧
      y.hint = .none ∧ y.addr = chunkAddr d (x.spill.getD l.chunk 0)) ∧
    (getMaster (leaseWriteback d t) 16).queue = (getMaster d 16).queue ++ [d.nextTxn] := by
  obtain ⟨b, heq⟩ := leaseWriteback_eq hwanted hfull honly hinc hspent
  have hstay : LeasesStay (leaseGoesOut d t l) (leaseGone d t l x) :=
    (leasesStay_tubRead ..).trans ((leasesStay_freeBeats _).trans (leasesStay_eCount ..))
  rw [heq]
  generalize leaseGone d t l x = e at hstay
  have hnext : e.nextTxn = d.nextTxn := hstay.next
  refine ⟨?_, ?_, ?_⟩
  · rw [m16Txn_mangle, hstay.leases]
    exact mgetD_mputD ..
  · obtain ⟨y, hy, hkind, hmaster, hsectors, hhint, -, haddr⟩ := getTxn_m16Txn e .writebolt l.gen l.chunk (x.spill.getD l.chunk 0) b
    exact ⟨y, hnext ▸ hy, hkind, hmaster, hsectors, hhint, haddr.trans (hstay.chunkAddr_eq _)⟩
  · rw [queue_m16Txn, getMaster_congr hstay.reg, hnext]
    rfl

/-- The only idle lease chunk is free at once where nothing will read it again (log entry 16). -/
theorem leaseWriteback_of_spent (hspent : isSpent d l = true) : leaseWriteback d t =
    { d with mangle := { d.mangle with leases := mputD [] d.mangle.leases t ((mgetD [] d.mangle.leases t).erase l) } } := by
  simp only [leaseWriteback, hwanted, hfull, honly, hspent, decide_true, Bool.and_self, List.foldl_cons, List.foldl_nil]

end Writeback

end Sys2Proof.Machine

section
open Sys2Proof.Machine Sys2Proof.Claims

/-- Settles O26: each command by what it does to chunks and leases; a failed check that the write-back meets touches neither its
lease nor its request. -/
theorem chunksAreReleasedAndLeased : Obligations.ChunksAreReleasedAndLeased := by
  refine ⟨fun g x s hfirst hresident => ?_, fun t g c x s hwanted hinc hroom => ?_, fun t l x s hwanted hfull honly hinc hspent => ?_,
    fun t l s hwanted hfull honly hspent => ?_⟩
  · exact endsDev_of_onDev rfl (chunkRelease_resident hfirst hresident)
  · exact endsDev_of_onDev (f := (leaseRead · t.val)) rfl (leaseRead_reads hwanted hinc hroom)
  · exact endsDev_of_onDev (f := (leaseWriteback · t.val)) rfl (leaseWriteback_writes hwanted hfull honly hinc hspent)
  · refine endsDev_of_onDev (f := (leaseWriteback · t.val)) rfl ?_
    rw [leaseWriteback_of_spent hwanted hfull honly hspent]
    exact ⟨mgetD_mputD .., rfl, rfl, rfl⟩

end
end

section
/-!
NUMQ lays the state, the size class, the home tile and the tag of a tub side by side in DLG_TUBQ_STATE, as numbers that it adds (R249). A
header whose size class does not fit in its two bits reaches the state's field. No TUB_OPEN makes such a header.
-/
namespace Sys2Proof.Machine
open Sys2Proof.Claims

/-- Tub 0 is OPEN, with size class 16. -/
def wideTub : State :=
  { State.reset with dev := { Reset.dev with
      pins := { Reset.pins with rstAsserted := false, rstPin := false, pllCore := true }
      mangle := { Reset.mangle with tubs := [(0, { Reset.tub with state := .open_, size := 16 })] } } }

/-- The device after a query of tub 0 in that state. -/
def afterWideQuery : Dev := (portWrite wideTub.dram wideTub.dev 0x8020 0).2

theorem memory_after_wideQuery : (portWrite wideTub.dram wideTub.dev 0x8020 0).1 = wideTub.dram := by decide +kernel

theorem exec_numq_wideTub : exec (.numq 0) wideTub = .next { wideTub with dev := afterWideQuery } := by
  have hexec : exec (.numq 0) wideTub =
      .next { wideTub with dram := (portWrite wideTub.dram wideTub.dev 0x8020 0).1, dev := afterWideQuery } := rfl
  rw [hexec, memory_after_wideQuery]

theorem wideTub_state : (getTub wideTub.dev 0).state.code = 1 := by decide +kernel

theorem shown_state_after_wideQuery : rbits afterWideQuery 0x8130 31 29 = 2 := by decide +kernel

end Sys2Proof.Machine

section
open Sys2Proof Sys2Proof.Machine Sys2Proof.Claims

/-- Refutes O25: its clause of NUMQ bounds EXPECT, but neither the size class nor the home tile. The query of an OPEN tub of size
class 16 shows it SPILLED. -/
theorem not_tubsAreAmendedAbortedAndWatched : ¬ Obligations.TubsAreAmendedAbortedAndWatched := by
  rintro ⟨-, -, ⟨-, hquery⟩, -⟩
  obtain ⟨d, hexec, hstate, -⟩ := hquery 0 wideTub (by decide +kernel) (by decide +kernel)
  rw [exec_numq_wideTub] at hexec
  have hd : afterWideQuery = d := dev_eq_of_next hexec
  have hcontra : 2 = 1 :=
    calc 2
      _ = rbits d 0x8130 31 29 := by rw [← hd, shown_state_after_wideQuery]
      _ = (getTub wideTub.dev 0).state.code := hstate
      _ = 1 := wideTub_state
  exact absurd hcontra (by decide)

end
end

section
/-!
Which commands reach the memory of lines and the fuses. A write access reaches the memory through DLB_WARM_CTRL (0x1018) alone, and
only with a disorderly entry; no register reaches a fuse (R485). Every command's meaning is then framed by its shape.
-/
namespace Sys2Proof.Machine
open Sys2Proof.Claims

/-! ## Write accesses -/

section WriteAccess
variable (m : SMap DLine) (d : Dev) (off : Nat) (v : Word)

/-- The manager's accesses reach fields alone. -/
theorem writeAccess_manager_memory : (writeAccess m d .manager off v).1.1 = m := by
  unfold writeAccess
  dsimp only
  split
  · rfl
  split
  · split
    · split <;> rfl
    · rfl
  · rfl

theorem managerWrite_memory : (managerWrite m d off v).1.1 = m := by
  unfold managerWrite
  split
  · rfl
  · exact writeAccess_manager_memory ..

theorem regWriteMsg_memory (off : BitVec 24) : (regWriteMsg m d off v).1 = m := by
  unfold regWriteMsg
  split
  · rfl
  · exact managerWrite_memory ..

theorem memReset_release_memory : (memReset m d false).1 = m := rfl

variable {off v} (hoff : off = 0x1018 → bits v 31 30 ≠ 2)
include hoff

/-- A command register keeps the memory, but for a disorderly entry by DLB_WARM_CTRL (R504). -/
theorem regCmd_memory {r : (SMap DLine × Dev) × Bool} (h : regCmd m d off v = some r) : r.1.1 = m := by
  unfold regCmd at h
  split at h
  case h_1 => split at h <;> cases h; rfl
  case h_3 =>
    injection h with h
    rw [← h, warmCmd]
    split
    · rfl
    · split <;> rfl
    · exact absurd ‹_› (hoff rfl)
    · rfl
  case h_11 =>
    split at h
    · split at h <;> cases h; rfl
    · cases h
  all_goals cases h; rfl

theorem hostWrite_memory : (hostWrite m d off v).1.1 = m := by
  unfold hostWrite
  split
  · rename_i m1 d1 ok h; exact regCmd_memory (r := ((m1, d1), ok)) m d hoff h
  · rfl

theorem writeAccess_host_memory : (writeAccess m d .host off v).1.1 = m := by
  unfold writeAccess
  dsimp only
  split
  · rfl
  split
  · split
    · split <;> rfl
    · rfl
  · exact hostWrite_memory m _ hoff

theorem portWrite_memory : (portWrite m d off v).1 = m := by
  unfold portWrite
  split
  · rfl
  split
  · rfl
  · exact writeAccess_host_memory m d hoff

end WriteAccess

section OtherRegister
variable (m : SMap DLine) (d : Dev) {off : Nat} (hoff : off ≠ 0x1018)
include hoff

theorem mergedWrite_memory (hv mv : Word) : (mergedWrite m d off hv mv).1.1 = m := by
  unfold mergedWrite
  dsimp only
  split
  · rfl
  split
  · rfl
  · exact hostWrite_memory m _ fun h => absurd h hoff

theorem writeBy_memory (w : WriteBy) : (writeBy m d off w).1 = m := by
  cases w with
  | host v => exact portWrite_memory m d fun h => absurd h hoff
  | manager v => exact managerWrite_memory ..
  | both hv mv =>
    simp only [writeBy]
    split
    · rfl
    split
    · rfl
    · exact mergedWrite_memory m d hoff hv mv

theorem writeMet_memory (w : WriteBy) (met : List PortErr) : (writeMet m d off w met).1 = m := by
  unfold writeMet
  split
  · exact writeBy_memory m _ hoff w
  · exact writeBy_memory m d hoff w

end OtherRegister

theorem pendClear_memory (m : SMap DLine) (d : Dev) (n : Fin 8) (w : PendClear) : (pendClear m d n.val w).1 = m :=
  portWrite_memory m d fun h => absurd h (by unfold irqPend; omega)

theorem rawAccess_memory (f : Fuses) (m : SMap DLine) (d : Dev) (write : Bool) (addr : BitVec 22) (v : Word) (par : Bool)
    (h : (write && addr.toNat * 4 = 0x1018) = false) : (rawAccess f m d write addr v par).1 = m := by
  unfold rawAccess
  split
  · rfl
  split
  · rfl
  split
  · rename_i hwrite
    exact portWrite_memory m d fun hoff => absurd h (by simp [hwrite, hoff])
  · rfl

/-! ## The frame of a command -/

/-- The command stops, or answers a state with the fuses and the waiting commands of `s`; the memory is that of `s` too unless the
command is one of those that may change it. -/
def Framed (c : Instr) (s : State) (o : Host.Outcome State Fault Refusal) : Prop :=
  (∃ m d, o = .next { s with dram := m, dev := d } ∧ (touchesMemory c = false → m = s.dram)) ∨ ∃ r, o = .fault r

section Framed
variable {c : Instr} {s : State}

/-- A command that leaves the memory alone. -/
theorem framed_of_dev {o : Host.Outcome State Fault Refusal} {d : Dev} (h : o = .next { s with dev := d }) : Framed c s o :=
  .inl ⟨s.dram, d, h, fun _ => rfl⟩

/-- A command that may change the memory. -/
theorem framed_of_touching {o : Host.Outcome State Fault Refusal} {m : SMap DLine} {d : Dev} (h : o = .next { s with dram := m, dev := d })
    (hc : touchesMemory c = true) : Framed c s o :=
  .inl ⟨m, d, h, fun hn => absurd (hc.symm.trans hn) (by decide)⟩

theorem framed_onMem {f : SMap DLine → Dev → SMap DLine × Dev} (hf : touchesMemory c = false → (f s.dram s.dev).1 = s.dram) :
    Framed c s (onMem s f) :=
  .inl ⟨_, _, rfl, hf⟩

/-- A write of the host driver to another register than DLB_WARM_CTRL. -/
theorem framed_portWrite {off : Nat} (hoff : off ≠ 0x1018) (v : Dev → Word) : Framed c s (onMem s fun m d => portWrite m d off (v d)) :=
  framed_onMem fun _ => portWrite_memory _ _ fun h => absurd h hoff

theorem framed_hostCmd {off : Nat} (hoff : off ≠ 0x1018) (v : Word) : Framed c s (hostCmd off v s) := framed_portWrite hoff fun _ => v

/-- The offset of a split access or a register write, as a number. -/
theorem ne_warmCtrl {off : BitVec 24} (h : decide (off = 0x1018) = false) : off.toNat ≠ 0x1018 := fun heq =>
  of_decide_eq_false h (BitVec.eq_of_toNat_eq heq)

theorem tileOff_ne_warmCtrl (t off : Nat) : tileOff t off ≠ 0x1018 := by unfold tileOff; omega

theorem framed_warmStart (o : StartOutcome) : Framed (.warmStart o) s (execWarmStart o s) := by
  unfold execWarmStart
  split
  · exact framed_of_dev rfl
  split
  · exact .inr ⟨_, rfl⟩
  · exact framed_of_touching rfl rfl

/-- Every command but FUSE_PROG is framed. -/
theorem framed_exec (hfuse : ∀ w v, c ≠ .fuseProg w v) : Framed c s (exec c s) := by
  cases c with
  | fuseProg w v => exact absurd rfl (hfuse w v)
  | warmStart o => exact framed_warmStart o
  | columnCommandIssue | lineReadReturn | tileFreeze | resetAssert | coldStart | wsExtest | wsIntest | memTest =>
    exact framed_of_touching rfl rfl
  | memReset asserted =>
    cases asserted with
    | true => exact framed_of_touching rfl rfl
    | false => exact framed_onMem (f := fun m d => memReset m d false) fun _ => memReset_release_memory ..
  | disorderlyEntry => exact framed_of_touching rfl rfl
  | orderlyEntry => exact framed_onMem (f := fun m d => portWrite m d 0x1018 0x40000000) fun _ => portWrite_memory _ _ fun _ => by decide
  | cleanAll | flushAll | invalidateAll | tubAbortFail | tubAbortRelease | numq | takeOut | takeOutLift | svcReturn | svcReturnAll | join |
    evict | imgDataWrite | blankClear | blankQuery | lintTailWrite | tallyFreeze => exact framed_hostCmd (by decide) _
  | frzReturn | frzKeepOut | frzReturnAll | schedCtrlWrite | retrain | loopNearEnd | loopFarEnd | loopStop =>
    exact framed_hostCmd (tileOff_ne_warmCtrl _ _) _
  | opWrite k v => exact framed_hostCmd (by omega) v
  | irqSet n v => exact framed_hostCmd (by unfold irqSetOff; omega) v
  | rearm => exact framed_portWrite (off := 0xE0E0) (by decide) fun d => rget d 0xE0E0 ||| 0x80000000
  | go => exact framed_portWrite (off := 0x1000) (by decide) fun d => rget d 0x1000 ||| 0x80000000
  | tallyClear mask =>
    exact framed_portWrite (off := 0x10000) (by decide) fun d => (rget d 0x10000 &&& 0x80000000) ||| mask.setWidth 32
  | irqClear n w => exact framed_onMem (f := fun m d => pendClear m d n.val w) fun _ => pendClear_memory _ _ n w
  | purseGrantWrite w => exact framed_onMem (f := fun m d => writeBy m d 0xE0C0 w) fun _ => writeBy_memory _ _ (by decide) w
  | regWrite off v => exact framed_onMem (f := fun m d => regWriteMsg m d off v) fun _ => regWriteMsg_memory _ _ v off
  | splitLoWrite a off v | splitHiWrite a off v =>
    exact framed_onMem (f := fun m d => writeBy m d off.toNat (writeOf a v)) fun h => writeBy_memory _ _ (ne_warmCtrl h) _
  | registerWrite off w =>
    exact framed_onMem (f := fun m d => writeMet m d off.toNat w.by_ w.met) fun h => writeMet_memory _ _ (ne_warmCtrl h) w.by_ w.met
  | ycpErr w a v par =>
    exact framed_onMem (f := fun m d => rawAccess s.fuses m d w a v par) fun h => rawAccess_memory s.fuses _ _ w a v par h
  | _ => exact framed_of_dev rfl

end Framed

end Sys2Proof.Machine

section
open Sys2Proof.Machine Sys2Proof.Claims

/-- Settles O7: a command's meaning is an update of the device or one of the memory and the device (`framed_exec`), and the second kind
leaves the memory, outside the named commands, because a write access does. -/
theorem onlyNamedCommandsTouchMemoryAndFuses : Obligations.OnlyNamedCommandsTouchMemoryAndFuses := by
  intro c s t hexec
  by_cases hfuse : ∃ w v, c = .fuseProg w v
  · obtain ⟨w, v, rfl⟩ := hfuse
    exact ⟨fun h => absurd (show true = false from h) (by decide), fun h => absurd rfl (h w v)⟩
  · obtain ⟨m, d, hnext, hm⟩ | ⟨r, hfault⟩ := framed_exec (c := c) (s := s) fun w v h => hfuse ⟨w, v, h⟩
    · rw [hnext] at hexec
      injection hexec with ht
      subst ht
      exact ⟨hm, fun _ => rfl⟩
    · rw [hfault] at hexec
      cases hexec

end
end

section
/-!
The rows of banks and the power-down of ranks: what a bank and a rank read as after the updates of a channel, what a precharge, an
activate and a command of a whole rank leave, and then which of them each row command issues (R263 to R270).
-/
namespace Sys2Proof.Machine

/-! ## Banks and ranks of a channel -/

section Banks
variable (c : Chan) (b : Nat) (x : Bank) (k : Nat) (y : Rank) (t : Nat) (z : Cmd)

@[simp] theorem getBank_setBank : getBank (setBank c b x) b = x := mgetD_mputD ..
theorem getBank_setBank_ne {a : Nat} (h : a ≠ b) : getBank (setBank c b x) a = getBank c a := mgetD_mputD_ne _ _ _ _ _ h
@[simp] theorem getBank_setRank (a : Nat) : getBank (setRank c k y) a = getBank c a := rfl
@[simp] theorem getBank_record (a : Nat) : getBank (record c t z) a = getBank c a := rfl
@[simp] theorem getRank_setRank : getRank (setRank c k y) k = y := mgetD_mputD ..
@[simp] theorem getRank_record (a : Nat) : getRank (record c t z) a = getRank c a := rfl

end Banks

theorem chan_congr {d e : Dev} (h : d.tiles = e.tiles) (t : Nat) : chan d t = chan e t := congrArg Tile.chan (getTile_congr h t)

section Commands
variable (d : Dev) (t b row at_ : Nat)

/-- A precharge closes its bank and leaves the others. -/
theorem getBank_doPre : getBank (chan (doPre d t b at_) t) b = { getBank (chan d t) b with openRow := none, preAt := some at_ } := by
  rw [doPre, chan_onChan, getBank_record, getBank_setBank]

theorem getBank_doPre_ne {a : Nat} (h : a ≠ b) : getBank (chan (doPre d t b at_) t) a = getBank (chan d t) a := by
  rw [doPre, chan_onChan, getBank_record, getBank_setBank_ne _ _ _ h]

@[simp] theorem doPre_regs : (doPre d t b at_).regs = d.regs := rfl

theorem chan_doAct : ∃ z : Cmd, ∃ y : Rank, chan (doAct d t b row at_) t =
    record (setRank (setBank (chan d t) b { getBank (chan d t) b with openRow := some row, actAt := some at_, wrAt := none })
      (rankOf t b) y) t z := by
  rw [doAct, chan_congr (raise_tiles ..), chan_congr (eCount_tiles ..)]
  exact ⟨_, _, chan_onChan ..⟩

/-- An activate opens its row, leaves the other banks and takes no entry. -/
theorem doAct_opens : (getBank (chan (doAct d t b row at_) t) b).openRow = some row ∧
    (getBank (chan (doAct d t b row at_) t) b).actAt = some at_ ∧
    (∀ a, a ≠ b → getBank (chan (doAct d t b row at_) t) a = getBank (chan d t) a) ∧
    (chan (doAct d t b row at_) t).rq = (chan d t).rq ∧ (chan (doAct d t b row at_) t).ham = (chan d t).ham := by
  obtain ⟨z, y, h⟩ := chan_doAct d t b row at_
  rw [h]
  refine ⟨by simp, by simp, fun a ha => ?_, rfl, rfl⟩
  rw [getBank_record, getBank_setRank, getBank_setBank_ne _ _ _ ha]

end Commands

/-- A command of a whole rank: the rank changes, and the command goes out. -/
def rankCommand (d : Dev) (t k : Nat) (f : Rank → Rank) (z : Cmd) : Dev :=
  onChan d t fun c => record (setRank c k (f (getRank c k))) t z

theorem getRank_rankCommand (d : Dev) (t k : Nat) (f : Rank → Rank) (z : Cmd) :
    getRank (chan (rankCommand d t k f z) t) k = f (getRank (chan d t) k) := by
  rw [rankCommand, chan_onChan, getRank_record, getRank_setRank]

/-! ## Which command is issued -/

section Issue
variable {d : Dev} {t at_ : Nat}

/-- An entry whose bank is closed has it activated (R263). -/
theorem rowFor_of_closed {b : Nat} (hclosed : (getBank (chan d t) b).openRow = none) (hok : actOk d t b at_ = true) (row : Nat)
    (keep : Nat → Bool) : rowFor d t at_ b row keep = some (doAct d t b row at_) := by
  rw [rowFor, hclosed]
  exact if_pos hok

/-- With no refresh to go before it, the first read entry has its closed bank activated (R263, R268). -/
theorem rowCommand_activates {e : REntry} {es : List REntry} (hrefresh : refreshStep d t at_ = none) (hmode : (chan d t).mode = .read)
    (hreads : rankedReads d t = e :: es) (hclosed : (getBank (chan d t) e.bank).openRow = none) (hok : actOk d t e.bank at_ = true) :
    rowCommand d t at_ = doAct d t e.bank (nextRow (chan d t) e) at_ := by
  have hread : rowRead d t at_ = some (doAct d t e.bank (nextRow (chan d t) e) at_) := by
    rw [rowRead, hreads]
    simp only [List.findSome?_cons, rowFor_of_closed hclosed hok]
  have hfirst : (if inBurst d t then none else refreshStep d t at_) = none := by rw [hrefresh, ite_self]
  rw [rowCommand, hfirst]
  dsimp only
  rw [if_pos hmode, hread, Option.getD_some]

theorem rowIdleClose_precharges {b r : Nat} (hopen : (getBank (chan d t) b).openRow = some r) (hidle : rbits d (tileOff t 0x008) 15 8 ≠ 0)
    (hunwanted : rowWanted (chan d t) b r = false) (hissues : issues d t = true) (hcycle : openTo d t at_ = true)
    (hok : preOk d t b at_ = true) : rowIdleClose d t b at_ = doPre d t b at_ := by
  simp [rowIdleClose, hopen, hidle, hunwanted, hissues, hcycle, hok]

/-- Nothing keeps the rank out of power-down: no entry, no refresh, no alert or freeze, and training is done (R269, R275, R327, R481). -/
structure MaySleep (d : Dev) (t k at_ : Nat) : Prop where
  rank      : (ranksOf t).contains k = true
  enabled   : rbits d (tileOff t 0x00C) 15 0 ≠ 0
  unwanted  : rankWanted d t k = false
  fresh     : refreshPending (chan d t) t k = false
  issues    : issues d t = true
  cycle     : openTo d t at_ = true
  unfrozen  : isFrozen d t = false
  scheduled : scheduleRuns d t k = true
  clock     : d.pins.ck = true
  paid      : owed (chan d t) k = 0

theorem powerDownEntry_sleeps {k : Nat} (h : MaySleep d t k at_)
    (hbanks : ∀ b ∈ banksOf t k, (getBank (chan d t) b).openRow = none ∧ (getBank (chan d t) b).busyTo ≤ at_)
    (hup : rankUp (getRank (chan d t) k) (timing d t) at_ = true) (hslot : slotFree (chan d t) true (safeRank d t k) at_ = true) :
    ∃ z, powerDownEntry d t k at_ = rankCommand d t k (fun r => { r with down := true, downAt := at_ }) z := by
  have hclosed : ((banksOf t k).find? fun b => (getBank (chan d t) b).openRow.isSome) = none :=
    List.find?_eq_none.mpr fun b hb => by simp [(hbanks b hb).1]
  have hrested : ((banksOf t k).all fun b => (getBank (chan d t) b).busyTo ≤ at_) = true :=
    List.all_eq_true.mpr fun b hb => decide_eq_true (hbanks b hb).2
  refine ⟨asSent d t (cmd 5 false (16 * k) 0 0 at_), ?_⟩
  have hmem : k ∈ ranksOf t := List.contains_iff_mem.mp h.rank
  simp [powerDownEntry, rankCommand, hmem, h.enabled, h.unwanted, h.fresh, h.issues, h.cycle, h.unfrozen, h.scheduled, h.clock, h.paid,
    hclosed, hrested, hup, hslot]

theorem powerDownExit_wakes {k : Nat} (hdown : (getRank (chan d t) k).down = true)
    (hasked : refreshPending (chan d t) t k = true ∨ repays d t k = true ∨ (rankWanted d t k = true ∧ issues d t = true))
    (htime : (getRank (chan d t) k).downAt + (timing d t).pd ≤ at_) (hslot : slotFree (chan d t) true (safeRank d t k) at_ = true) :
    ∃ z, powerDownExit d t k at_ = rankCommand d t k (fun r => { r with down := false, upAt := some at_ }) z := by
  have hask : (refreshPending (chan d t) t k || repays d t k || (rankWanted d t k && issues d t)) = true := by
    simpa [or_assoc] using hasked
  refine ⟨asSent d t (cmd 6 false (16 * k) 0 0 at_), ?_⟩
  simp [powerDownExit, rankCommand, hdown, hask, hslot, Nat.not_lt.mpr htime]

end Issue

end Sys2Proof.Machine

section
open Sys2Proof.Machine Sys2Proof.Claims

/-- Settles O29: each row command is the activate, the precharge or the rank's command that its conditions name, and what that command
leaves is a rule of its own. -/
theorem rowCommandsMoveBanksAndRanks : Obligations.RowCommandsMoveBanksAndRanks := by
  refine ⟨fun t at_ e es s hrefresh hmode hreads hclosed hok => ?_, fun t bank at_ r s hopen hidle hunwanted hissues hcycle hok => ?_,
    fun t r at_ s hrank henabled hunwanted hfresh hissues hcycle hunfrozen hscheduled hclock hpaid hbanks hup hslot => ?_,
    fun t r at_ s hdown hasked htime hslot => ?_⟩
  · refine endsDev_of_onDev (f := (rowCommand · t.val at_)) rfl ?_
    rw [rowCommand_activates hrefresh hmode hreads hclosed hok]
    exact doAct_opens ..
  · refine endsDev_of_onDev (f := (rowIdleClose · t.val bank.toNat at_)) rfl ?_
    rw [rowIdleClose_precharges hopen hidle hunwanted hissues hcycle hok]
    exact ⟨by rw [getBank_doPre], by rw [getBank_doPre], fun b hb => getBank_doPre_ne _ _ _ _ hb, rfl⟩
  · refine endsDev_of_onDev (f := (powerDownEntry · t.val r.val at_)) rfl ?_
    obtain ⟨z, h⟩ := powerDownEntry_sleeps
      ⟨hrank, henabled, hunwanted, hfresh, hissues, hcycle, hunfrozen, hscheduled, hclock, hpaid⟩ hbanks hup hslot
    rw [h]
    exact ⟨getRank_rankCommand .., rfl⟩
  · refine endsDev_of_onDev (f := (powerDownExit · t.val r.val at_)) rfl ?_
    obtain ⟨z, h⟩ := powerDownExit_wakes hdown hasked htime hslot
    rw [h]
    exact ⟨getRank_rankCommand .., rfl⟩

end
end

section
/-!
Drains and their rounds, and the ages of entries. A round of entries that need no reservation takes the first sixteen in the order of
R261; a drain command begins one or leaves the channel in READ mode (R259, R261). An age marks the oldest entry that it has not marked
yet (R260, R262).
-/
namespace Sys2Proof.Machine
open Sys2Proof.Claims

/-! ## Lists -/

/-- An update by a number that one element alone has. -/
theorem updWhere_of_nodup {α : Type} (key : α → Nat) (f : α → α) {pre post : List α} {x : α}
    (hnodup : ((pre ++ x :: post).map key).Nodup) : updWhere (fun e => key e = key x) f (pre ++ x :: post) = pre ++ f x :: post := by
  simp only [List.map_append, List.map_cons, List.nodup_middle, List.nodup_cons, List.mem_append, not_or] at hnodup
  obtain ⟨⟨hpre, hpost⟩, -⟩ := hnodup
  have hother {l : List α} (hl : key x ∉ l.map key) : updWhere (fun e => key e = key x) f l = l := by
    refine (List.map_congr_left fun e he => if_neg ?_).trans (List.map_id l)
    exact fun h => hl (List.mem_map.mpr ⟨e, he, of_decide_eq_true h⟩)
  calc updWhere (fun e => key e = key x) f (pre ++ x :: post)
    _ = updWhere (fun e => key e = key x) f pre ++ f x :: updWhere (fun e => key e = key x) f post := by simp [updWhere]
    _ = pre ++ f x :: post := by rw [hother hpre, hother hpost]

/-- The first element that is not marked stands behind marked ones. -/
theorem find_unmarked {α : Type} {p : α → Bool} {pre post : List α} {x : α} (hpre : ∀ e ∈ pre, p e = true) (hx : p x = false) :
    (pre ++ x :: post).find? (fun e => !p e) = some x :=
  List.find?_eq_some_iff_append.mpr ⟨by rw [hx]; rfl, pre, post, rfl, fun e he => by rw [hpre e he]; rfl⟩

/-! ## Rounds (R261) -/

/-- Entries that a drain may take, in the order of R261: a FORCED one the urgent ones only. -/
def roundChoice (c : Chan) (m : Mode) : List HEntry := if m = .forced then (roundOrder c).filter HEntry.urgent else roundOrder c

/-- Entries that a round may take, and those of them that are not urgent. -/
def takeable (c : Chan) : List HEntry := c.ham.filter (roundable c)
def calm (c : Chan) : List HEntry := (takeable c).filter fun e => !e.urgent

/-- The entry's row is open. -/
def onOpenRow (c : Chan) (e : HEntry) : Bool := (getBank c e.bank).openRow = some e.row

theorem roundOrder_eq (c : Chan) : roundOrder c =
    (takeable c).filter HEntry.urgent ++ (calm c).filter (onOpenRow c) ++ (calm c).filter fun e => !onOpenRow c e := by
  have hcalm (p : HEntry → Bool) : (takeable c).filter (fun e => !e.urgent && p e) = (calm c).filter p := by
    rw [calm, List.filter_filter]
    simp only [Bool.and_comm]
  rw [← hcalm, ← hcalm]
  rfl

/-- The urgent entries stand first. -/
theorem filter_urgent_roundOrder (c : Chan) : (roundOrder c).filter HEntry.urgent = (takeable c).filter HEntry.urgent := by
  have hcalm (p : HEntry → Bool) : ((calm c).filter p).filter HEntry.urgent = [] :=
    List.filter_eq_nil_iff.mpr fun e he => by
      have hurgent := (List.mem_filter.mp (List.mem_filter.mp he).1).2
      simpa using hurgent
  rw [roundOrder_eq, List.filter_append, List.filter_append, hcalm, hcalm, List.append_nil, List.append_nil, List.filter_filter]
  simp only [Bool.and_self]

theorem mem_roundOrder {c : Chan} {e : HEntry} (h : e ∈ roundOrder c) : e ∈ c.ham ∧ roundable c e = true := by
  rw [roundOrder_eq] at h
  simp only [calm, takeable, List.mem_append, List.mem_filter] at h
  tauto

theorem mem_roundChoice {c : Chan} {m : Mode} {e : HEntry} (h : e ∈ roundChoice c m) : e ∈ roundOrder c := by
  unfold roundChoice at h
  split at h
  · exact (List.mem_filter.mp h).1
  · exact h

/-- An entry of the order is in the Hamper; an urgent one makes the channel have one. -/
theorem hasUrgent_of_choice {c : Chan} (h : (roundOrder c).filter HEntry.urgent ≠ []) : hasUrgent c = true := by
  obtain ⟨e, he⟩ := List.exists_mem_of_ne_nil _ h
  obtain ⟨hmem, hurgent⟩ := List.mem_filter.mp he
  exact List.any_eq_true.mpr ⟨e, (mem_roundOrder hmem).1, hurgent⟩

theorem ham_ne_nil_of_order {c : Chan} (h : roundOrder c ≠ []) : c.ham ≠ [] := by
  obtain ⟨e, he⟩ := List.exists_mem_of_ne_nil _ h
  exact List.ne_nil_of_mem (mem_roundOrder he).1

/-- An entry that is no DATA entry needs no reservation (R254). -/
theorem reserve_of_full (d : Dev) (t : Nat) {e : HEntry} (h : e.kind = .full) : reserve d t e = some d := by simp [reserve, h]

/-- Entries without a reservation are taken in their order. -/
theorem takeRound_of_full (t : Nat) (d : Dev) {es : List HEntry} (h : ∀ e ∈ es, e.kind = .full) (n : Nat) (ids : List Nat) :
    takeRound t n es d ids = (d, ids ++ (es.take n).map HEntry.id) := by
  induction es generalizing n ids with
  | nil => cases n <;> simp [takeRound]
  | cons e es ih =>
    cases n with
    | zero => simp [takeRound]
    | succ n =>
      simp only [takeRound, reserve_of_full d t (h e List.mem_cons_self), ih fun x hx => h x (List.mem_cons_of_mem e hx)]
      simp

section Round
variable {d : Dev} {t : Nat}

theorem beginRound_eq (m : Mode) : beginRound d t m =
    let r := takeRound t 16 (roundChoice (chan d t) m) d []
    if r.2.isEmpty then onChan r.1 t fun c => { c with mode := .read, round := [], roundWr := false }
      else onChan r.1 t fun c => { c with mode := m, round := r.2, roundWr := false } := by
  rw [roundChoice, filter_urgent_roundOrder, roundOrder_eq]
  rfl

/-- A round of entries without a reservation begins with the first sixteen of its choice. -/
theorem inRound_beginRound {m : Mode} (hfull : ∀ e ∈ (chan d t).ham, roundable (chan d t) e = true → e.kind = .full)
    (hsome : roundChoice (chan d t) m ≠ []) : inRound d (beginRound d t m) t m (roundChoice (chan d t) m) := by
  have hkinds : ∀ e ∈ roundChoice (chan d t) m, e.kind = .full := fun e he =>
    have ⟨hham, hround⟩ := mem_roundOrder (mem_roundChoice he)
    hfull e hham hround
  have htaken : ((roundChoice (chan d t) m).take 16).map HEntry.id ≠ [] := by simpa using hsome
  rw [beginRound_eq, takeRound_of_full t d hkinds, List.nil_append]
  dsimp only
  rw [if_neg (by simpa using htaken)]
  simp only [inRound, chan_onChan, and_self]

/-- A drain that starts is counted and begins its round (R259). -/
theorem inRound_startDrain {m : Mode} (hfull : ∀ e ∈ (chan d t).ham, roundable (chan d t) e = true → e.kind = .full)
    (hsome : roundChoice (chan d t) m ≠ []) : inRound d (startDrain d t m) t m (roundChoice (chan d t) m) := by
  have hchan : chan (raise (rinc d (tileOff t 0x014) 1) Ev.DRAIN_START) t = chan d t := chan_congr (by rw [raise_tiles, rinc_tiles]) t
  have h := inRound_beginRound (d := raise (rinc d (tileOff t 0x014) 1) Ev.DRAIN_START) (t := t) (m := m) (by rwa [hchan]) (by rwa [hchan])
  rw [inRound, hchan] at h
  exact h

/-! ## The drain commands (R259) -/

section Drain
variable (hissues : issues d t = true)
include hissues

theorem hwmDrain_starts (hmode : (chan d t).mode = .read) (hmark : hwm d t ≤ (chan d t).ham.length) :
    hwmDrain d t = startDrain d t .hwm := by
  simp [hwmDrain, hmode, hissues, hmark]

theorem forcedDrain_starts (hmode : (chan d t).mode = .read) (hmark : (chan d t).ham.length < hwm d t)
    (hurgent : hasUrgent (chan d t) = true) : forcedDrain d t = startDrain d t .forced := by
  simp [forcedDrain, hmode, hissues, hmark, hurgent]

theorem idleDrain_starts (hmode : (chan d t).mode = .read) (hmark : (chan d t).ham.length < hwm d t)
    (hcalm : hasUrgent (chan d t) = false) (hidle : readIdle d t = true) (hham : (chan d t).ham ≠ []) :
    idleDrain d t = startDrain d t .idle := by
  simp [idleDrain, hmode, hissues, hmark, hcalm, hidle, hham]

end Drain

/-! ## The end of a round (R259, R261) -/

/-- The mode of a drain after a round of it. -/
def modeAfter (d : Dev) (t : Nat) : Mode → Mode
  | .hwm => if (chan d t).ham.length ≤ lwm d t then .read else .hwm
  | .forced => if hwm d t ≤ (chan d t).ham.length then .hwm else if hasUrgent (chan d t) then .forced else .read
  | _ => if hwm d t ≤ (chan d t).ham.length then .hwm else if hasUrgent (chan d t) then .forced
    else if (chan d t).ham.length = 0 || !readIdle d t then .read else .idle

section RoundEnd
variable (hissues : issues d t = true) (hround : (chan d t).round = []) (hdrain : (chan d t).mode ≠ .read)
include hissues hround hdrain

theorem drainRoundEnd_eq : drainRoundEnd d t =
    (if modeAfter d t (chan d t).mode = .read then onChan d t fun c => { c with mode := .read, round := [], roundWr := false }
      else beginRound d t (modeAfter d t (chan d t).mode)) := by
  have hgo : ((chan d t).mode = .read || !(chan d t).round.isEmpty || !issues d t) = false := by simp [hissues, hround, hdrain]
  unfold drainRoundEnd
  dsimp only
  rw [if_neg (by rw [hgo]; decide)]
  cases (chan d t).mode <;> rfl

theorem inRound_drainRoundEnd {m : Mode} (hnext : modeAfter d t (chan d t).mode = m) (hm : m ≠ .read)
    (hfull : ∀ e ∈ (chan d t).ham, roundable (chan d t) e = true → e.kind = .full) (hsome : roundChoice (chan d t) m ≠ []) :
    inRound d (drainRoundEnd d t) t m (roundChoice (chan d t) m) := by
  rw [drainRoundEnd_eq hissues hround hdrain, hnext, if_neg hm]
  exact inRound_beginRound hfull hsome

theorem inRound_read_drainRoundEnd (hnext : modeAfter d t (chan d t).mode = .read) : inRound d (drainRoundEnd d t) t .read [] := by
  rw [drainRoundEnd_eq hissues hround hdrain, hnext, if_pos rfl, inRound, chan_onChan]
  exact ⟨rfl, rfl, rfl⟩

end RoundEnd

section ModeAfter
variable {m : Mode}

theorem modeAfter_high (h : (m = .hwm ∧ lwm d t < (chan d t).ham.length) ∨
    ((m = .forced ∨ m = .idle) ∧ hwm d t ≤ (chan d t).ham.length)) : modeAfter d t m = .hwm := by
  obtain ⟨rfl, hlow⟩ | ⟨rfl | rfl, hhigh⟩ := h
  · exact if_neg (Nat.not_le.mpr hlow)
  · exact if_pos hhigh
  · exact if_pos hhigh

theorem modeAfter_urgent (hm : m = .forced ∨ m = .idle) (hlow : (chan d t).ham.length < hwm d t) (hurgent : hasUrgent (chan d t) = true) :
    modeAfter d t m = .forced := by
  obtain rfl | rfl := hm <;> simp [modeAfter, Nat.not_le.mpr hlow, hurgent]

theorem modeAfter_idle (hlow : (chan d t).ham.length < hwm d t) (hcalm : hasUrgent (chan d t) = false) (hidle : readIdle d t = true)
    (hham : (chan d t).ham ≠ []) : modeAfter d t .idle = .idle := by
  simp [modeAfter, Nat.not_le.mpr hlow, hcalm, hidle, hham]

theorem modeAfter_over (h : (m = .hwm ∧ (chan d t).ham.length ≤ lwm d t) ∨
    (m = .forced ∧ (chan d t).ham.length < hwm d t ∧ hasUrgent (chan d t) = false) ∨
    (m = .idle ∧ (chan d t).ham.length < hwm d t ∧ hasUrgent (chan d t) = false ∧ ((chan d t).ham = [] ∨ readIdle d t = false))) :
    modeAfter d t m = .read := by
  obtain ⟨rfl, hlow⟩ | ⟨rfl, hlow, hcalm⟩ | ⟨rfl, hlow, hcalm, hend⟩ := h
  · exact if_pos hlow
  · simp [modeAfter, Nat.not_le.mpr hlow, hcalm]
  · have hdone : ((chan d t).ham.length = 0 || !readIdle d t) = true := by simpa using hend
    simp only [modeAfter, if_neg (Nat.not_le.mpr hlow), hcalm, if_pos hdone]
    rfl

end ModeAfter

end Round

/-! ## Ages (R260, R262) -/

section Ages
variable {d : Dev} {t : Nat}

/-- The oldest entry that is not urgent becomes urgent (R260). -/
theorem writeAgeUrgent_marks {pre post : List HEntry} {x : HEntry} (hham : (chan d t).ham = pre ++ x :: post)
    (hpre : ∀ e ∈ pre, e.urgent = true) (hx : x.urgent = false) (hnodup : ((pre ++ x :: post).map HEntry.id).Nodup) :
    chan (writeAgeUrgent d t) t = { chan d t with ham := pre ++ { x with urgent := true } :: post } := by
  rw [writeAgeUrgent, chan_onChan, hham, find_unmarked (p := HEntry.urgent) hpre hx]
  dsimp only
  rw [updWhere_of_nodup HEntry.id _ hnodup]

/-- An age that raises the priority is counted (R262). -/
theorem counted_countEscalate {e : Dev} (h : e.regs = d.regs) (p : Nat) :
    if p = 7 then (countEscalate e t p).regs = d.regs else counted d (countEscalate e t p) (tileOff t 0x01C) 1 := by
  unfold countEscalate
  split
  · exact h
  · rw [counted, rget_raise_ne _ _ _ _ _ (by unfold tileOff; omega), toNat_rget_rinc, rget_congr h]

theorem countEscalate_tiles (e : Dev) (p : Nat) : (countEscalate e t p).tiles = e.tiles := by
  obtain ⟨r, y, h, -⟩ := countEscalate_eq e t p
  rw [h]

theorem getJob_countEscalate (e : Dev) (p i : Nat) : getJob (countEscalate e t p) i = getJob e i := by
  obtain ⟨r, y, h, -⟩ := countEscalate_eq e t p
  rw [h]
  rfl

/-- A read entry that its age has raised. -/
def agedRead (d : Dev) (t : Nat) (x : REntry) : Dev :=
  countEscalate (onChan d t fun c => { c with rq := updWhere (fun e => e.id = x.id) (fun e => { e with aged := true }) c.rq }) t
    (readPrio d t x)

/-- What holds of all entries that wait for a slot holds of the oldest. -/
theorem foldl_older {P : SlotWait → Prop} {w : SlotWait} {ws : List SlotWait} (h : ∀ v ∈ w :: ws, P v) :
    P (ws.foldl (fun a b => if b.born < a.born then b else a) w) :=
  List.foldlRecOn ws _ (h w List.mem_cons_self) fun a ha b hb => by
    split
    · exact h b (List.mem_cons_of_mem w hb)
    · exact ha

/-- The oldest read entry that has not aged is older than every entry that waits for a slot (R262, R367). -/
theorem escalateOldest_read {x : REntry} (hfind : (chan d t).rq.find? (fun e => !e.aged) = some x)
    (hwaits : ∀ w ∈ slotWaiters d t, w.aged = true ∨ x.id < w.born) : escalateOldest d t = agedRead d t x := by
  have hborn : ∀ w ∈ (slotWaiters d t).filter (fun w => !w.aged), x.id < w.born := fun w hw => by
    obtain ⟨hmem, haged⟩ := List.mem_filter.mp hw
    exact (hwaits w hmem).resolve_left fun h => by rw [h] at haged; exact absurd haged (by decide)
  unfold escalateOldest
  dsimp only
  rw [hfind]
  generalize (slotWaiters d t).filter (fun w => !w.aged) = waits at hborn
  cases waits with
  | nil => rfl
  | cons w ws =>
    have hold := foldl_older (P := fun v => x.id < v.born) hborn
    dsimp only
    rw [Option.filter_some, if_pos (decide_eq_true hold)]
    rfl

/-- An entry that waits for a slot is older than every read entry that has not aged (R262, R367). -/
theorem escalateOldest_wait {w : SlotWait} {j : Job} (hwaits : slotWaiters d t = [w]) (hw : w.aged = false) (hj : getJob d w.job = some j)
    (hreads : ∀ e ∈ (chan d t).rq, e.aged = true ∨ w.born ≤ e.id) :
    escalateOldest d t = countEscalate (setJob d w.job { j with aged := true }) t w.prio := by
  have hone : (slotWaiters d t).filter (fun w => !w.aged) = [w] := by simp [hwaits, hw]
  unfold escalateOldest
  dsimp only
  rw [hone]
  cases hfind : (chan d t).rq.find? (fun e => !e.aged) with
  | none => simp only [Option.filter_none, List.foldl_nil, hj]
  | some x =>
    have haged : x.aged = false := by simpa using List.find?_some hfind
    have hborn : ¬x.id < w.born :=
      Nat.not_lt.mpr ((hreads x (List.mem_of_find?_eq_some hfind)).resolve_left (by simp [haged]))
    dsimp only
    rw [List.foldl_nil, Option.filter_some, if_neg (by simpa using hborn), hj]

theorem agedRead_spec {pre post : List REntry} {x : REntry} (hrq : (chan d t).rq = pre ++ x :: post)
    (hnodup : ((pre ++ x :: post).map REntry.id).Nodup) :
    chan (agedRead d t x) t = { chan d t with rq := pre ++ { x with aged := true } :: post } ∧
    (if readPrio d t x = 7 then (agedRead d t x).regs = d.regs else counted d (agedRead d t x) (tileOff t 0x01C) 1) := by
  refine ⟨?_, counted_countEscalate (onChan_regs ..) _⟩
  rw [agedRead, chan_congr (countEscalate_tiles ..), chan_onChan, hrq, updWhere_of_nodup REntry.id _ hnodup]

/-- The BG entry ages (R262). -/
theorem readEscalate_bg {x : REntry} (hbg : (chan d t).bg = some x) (hx : x.aged = false) : readEscalate d t true =
    countEscalate (onChan d t fun c => { c with bg := some { x with aged := true } }) t (readPrio d t x) := by
  simp [readEscalate, hbg, hx]

end Ages

end Sys2Proof.Machine

section
open Sys2Proof.Machine Sys2Proof.Claims

/-- Settles O27: each drain command begins its round or ends its drain (`inRound_startDrain`, `drainRoundEnd_eq`), and an age marks the
oldest entry left (`writeAgeUrgent_marks`, `escalateOldest_read`, `escalateOldest_wait`, `readEscalate_bg`). -/
theorem drainsTakeTheirRounds : Obligations.DrainsTakeTheirRounds := by
  refine ⟨fun t s hissues hfull hsome => ⟨fun hmode hmark => ?_, fun hmode hmark hurgent => ?_, fun hmode hmark hcalm hidle => ?_,
      fun hround hmark => ?_, fun hround hmode hmark hurgent => ?_, fun hround hmode hmark hcalm hidle => ?_⟩,
    fun t s hissues hround hover => ?_,
    fun t pre post x s hham hpre hx hnodup => ?_, fun t pre post x s hrq hpre hx hnodup hwaits => ?_,
    fun t w j s hwaits hw hj hreads => ?_, fun t x s hbg hx => ?_⟩
  · refine endsDev_of_onDev (f := (hwmDrain · t.val)) rfl ?_
    rw [hwmDrain_starts hissues hmode hmark]
    exact inRound_startDrain (m := .hwm) hfull hsome
  · refine endsDev_of_onDev (f := (forcedDrain · t.val)) rfl ?_
    rw [forcedDrain_starts hissues hmode hmark (hasUrgent_of_choice hurgent)]
    exact inRound_startDrain (m := .forced) hfull hurgent
  · refine endsDev_of_onDev (f := (idleDrain · t.val)) rfl ?_
    rw [idleDrain_starts hissues hmode hmark hcalm hidle (ham_ne_nil_of_order hsome)]
    exact inRound_startDrain (m := .idle) hfull hsome
  · have hdrain : (chan s.dev t.val).mode ≠ .read := by
      obtain ⟨h, -⟩ | ⟨h | h, -⟩ := hmark <;> rw [h] <;> decide
    exact endsDev_of_onDev (f := (drainRoundEnd · t.val)) rfl
      (inRound_drainRoundEnd (m := .hwm) hissues hround hdrain (modeAfter_high hmark) (by decide) hfull hsome)
  · have hdrain : (chan s.dev t.val).mode ≠ .read := by
      obtain h | h := hmode <;> rw [h] <;> decide
    exact endsDev_of_onDev (f := (drainRoundEnd · t.val)) rfl
      (inRound_drainRoundEnd (m := .forced) hissues hround hdrain (modeAfter_urgent hmode hmark (hasUrgent_of_choice hurgent)) (by decide)
        hfull hurgent)
  · have hdrain : (chan s.dev t.val).mode ≠ .read := by rw [hmode]; decide
    have hnext : modeAfter s.dev t.val (chan s.dev t.val).mode = .idle := by
      rw [hmode]
      exact modeAfter_idle hmark hcalm hidle (ham_ne_nil_of_order hsome)
    exact endsDev_of_onDev (f := (drainRoundEnd · t.val)) rfl
      (inRound_drainRoundEnd (m := .idle) hissues hround hdrain hnext (by decide) hfull hsome)
  · have hdrain : (chan s.dev t.val).mode ≠ .read := by
      obtain ⟨h, -⟩ | ⟨h, -⟩ | ⟨h, -⟩ := hover <;> rw [h] <;> decide
    exact endsDev_of_onDev (f := (drainRoundEnd · t.val)) rfl
      (inRound_read_drainRoundEnd hissues hround hdrain (modeAfter_over hover))
  · exact endsDev_of_onDev (f := (writeAgeUrgent · t.val)) rfl ⟨writeAgeUrgent_marks hham hpre hx hnodup, rfl⟩
  · refine endsDev_of_onDev (f := (readEscalate · t.val false)) rfl ?_
    have hfind : (chan s.dev t.val).rq.find? (fun e => !e.aged) = some x := by rw [hrq, find_unmarked (p := REntry.aged) hpre hx]
    have heq : readEscalate s.dev t.val false = agedRead s.dev t.val x := escalateOldest_read hfind hwaits
    rw [heq]
    exact agedRead_spec hrq hnodup
  · refine endsDev_of_onDev (f := (readEscalate · t.val false)) rfl ?_
    have heq : readEscalate s.dev t.val false = countEscalate (setJob s.dev w.job { j with aged := true }) t.val w.prio :=
      escalateOldest_wait hwaits hw hj hreads
    rw [heq]
    exact ⟨(getJob_countEscalate ..).trans (getJob_setJob ..), countEscalate_tiles .., counted_countEscalate rfl _⟩
  · refine endsDev_of_onDev (f := (readEscalate · t.val true)) rfl ?_
    rw [readEscalate_bg hbg hx]
    exact ⟨(chan_congr (countEscalate_tiles ..) _).trans (chan_onChan ..), counted_countEscalate rfl _⟩

end
end

section
/-!
The windows of the arbiter and of the regulator (R287, R292, R297, R304, R308, R311, R312). What the masks discard at a tile touches no
quota count and no decided grant there or elsewhere, so a quota window begins at each slice alone. What a regulation window records
of the one that ends touches no register that the capacity or the guarantees are read from.
-/
namespace Sys2Proof.Machine
open Sys2Proof.Claims

/-! ## Repetition -/

/-- A fold makes true what the step at one of its elements makes true and every step keeps. -/
theorem foldl_establishes {α β : Type} {P : β → Prop} {f : β → α → β} {a : α} {l : List α} (ha : a ∈ l) (hself : ∀ b, P (f b a))
    (hkeep : ∀ b c, P b → P (f b c)) (b : β) : P (l.foldl f b) := by
  obtain ⟨pre, post, rfl⟩ := List.append_of_mem ha
  rw [List.foldl_append, List.foldl_cons]
  exact List.foldlRecOn post f (hself _) fun b hb c _ => hkeep b c hb

/-- A fold over tiles, each step of which changes what a slice shows at its own tile alone, changes it once at each of them. The steps
keep an invariant that they may use. -/
theorem view_foldl_slices {β : Type} {view : Slice → β} {g : β → β} {f : Dev → Nat → Dev} {I : Dev → Prop} {l : List Nat}
    (hself : ∀ d, I d → ∀ t ∈ l, view (slice (f d t) t) = g (view (slice d t)))
    (hother : ∀ d, I d → ∀ t ∈ l, ∀ k, k ≠ t → view (slice (f d t) k) = view (slice d k))
    (hkeep : ∀ d, I d → ∀ t ∈ l, I (f d t)) (hl : l.Nodup) {d : Dev} (hd : I d) (k : Nat) :
    view (slice (l.foldl f d) k) = if k ∈ l then g (view (slice d k)) else view (slice d k) := by
  induction l generalizing d with
  | nil => rfl
  | cons t l ih =>
    obtain ⟨ht, hl⟩ := List.nodup_cons.mp hl
    have hmem : t ∈ t :: l := List.mem_cons_self
    have hrest := ih (fun d hd u hu => hself d hd u (.tail t hu)) (fun d hd u hu => hother d hd u (.tail t hu))
      (fun d hd u hu => hkeep d hd u (.tail t hu)) hl (hkeep d hd t hmem)
    rw [List.foldl_cons, hrest]
    by_cases hk : k = t
    · subst hk
      rw [if_neg ht, if_pos hmem, hself d hd k hmem]
    · rw [hother d hd t hmem k hk]
      simp [hk]

/-! ## What the masks leave (R143, R312) -/

theorem slice_congr {d e : Dev} (h : d.tiles = e.tiles) (t : Nat) : slice d t = slice e t := congrArg Tile.slice (getTile_congr h t)

/-- The quota count of a slice and its decided grants. -/
def quotaView (s : Slice) : Nat × Option (Nat × Bool) × Option (Nat × Bool) := (s.quota, s.decided, s.atWindow)

/-- `e` has the quota of `d`, and every slice the same count, decided grants, and mark of QUOTA_MASKED. -/
structure SameQuota (d e : Dev) : Prop where
  quota  : e.reg.quota = d.reg.quota
  qwin   : e.reg.qwin = d.reg.qwin
  views  : ∀ k, quotaView (slice e k) = quotaView (slice d k)
  raised : ∀ k, (slice e k).quotaRaised = (slice d k).quotaRaised

theorem SameQuota.of_tiles_eq {d e : Dev} (htiles : e.tiles = d.tiles) (hquota : e.reg.quota = d.reg.quota)
    (hqwin : e.reg.qwin = d.reg.qwin) : SameQuota d e :=
  ⟨hquota, hqwin, fun k => congrArg quotaView (slice_congr htiles k), fun k => congrArg Slice.quotaRaised (slice_congr htiles k)⟩

theorem SameQuota.refl (d : Dev) : SameQuota d d := .of_tiles_eq rfl rfl rfl

theorem SameQuota.trans {d e f : Dev} (h : SameQuota d e) (h' : SameQuota e f) : SameQuota d f :=
  ⟨h'.quota.trans h.quota, h'.qwin.trans h.qwin, fun k => (h'.views k).trans (h.views k), fun k => (h'.raised k).trans (h.raised k)⟩

theorem SameQuota.foldl {α : Type} {f : Dev → α → Dev} (h : ∀ d a, SameQuota d (f d a)) (l : List α) (d : Dev) :
    SameQuota d (l.foldl f d) :=
  List.foldlRecOn (motive := SameQuota d) l f (.refl d) fun e he a _ => he.trans (h e a)

section Discards
variable (d : Dev)

/-- What an update of a slice leaves of it, it leaves of every slice. -/
theorem view_onSlice {β : Type} {view : Slice → β} {f : Slice → Slice} (hf : ∀ s, view (f s) = view s) (t k : Nat) :
    view (slice (onSlice d t f) k) = view (slice d k) := by
  by_cases hk : k = t
  · subst hk
    rw [slice_onSlice, hf]
  · rw [slice_onSlice_ne _ _ _ _ hk]

theorem sameQuota_onSlice (t : Nat) {f : Slice → Slice} (hview : ∀ s, quotaView (f s) = quotaView s)
    (hraised : ∀ s, (f s).quotaRaised = s.quotaRaised) : SameQuota d (onSlice d t f) :=
  ⟨rfl, rfl, view_onSlice d hview t, view_onSlice d hraised t⟩

theorem sameQuota_discardParts (ids : List Nat) (t : Nat) : SameQuota d (discardParts ids d t) :=
  sameQuota_onSlice d t (fun _ => rfl) fun _ => rfl

theorem sameQuota_releaseBolt (t bolt : Nat) : SameQuota d (releaseBolt d t bolt) := sameQuota_onSlice d t (fun _ => rfl) fun _ => rfl

/-- A bolt operation that is withdrawn leaves its panel, and the held parts and inputs of its members. -/
theorem sameQuota_discardBolts (ids : List Nat) (o : BoltOp) : SameQuota d (discardBolts ids d o) := by
  unfold discardBolts
  split
  · extract_lets d₁ d₂ blunt
    have h₁ : SameQuota d d₁ := .of_tiles_eq rfl rfl rfl
    have h₂ : SameQuota d₁ d₂ := .foldl (f := fun e m => releaseBolt e (tileAt e o.stripe.panel m) o.bolt)
      (fun e m => sameQuota_releaseBolt e _ _) _ _
    exact (h₁.trans h₂).trans (.foldl (f := fun e t => onSlice e t fun s =>
      { s with held := s.held.filter (fun p => !isPartOf o p), arb := s.arb.map fun e => (e.1, e.2.map blunt) })
      (fun e t => sameQuota_onSlice e t (fun _ => rfl) fun _ => rfl) _ _)
  · exact .refl d

theorem sameQuota_send (dst : Nat) (b : MsgBody) : SameQuota d (send d dst b) := by
  obtain ⟨l, n, h⟩ := sameButLink_send d dst b
  rw [h]
  exact .of_tiles_eq rfl rfl rfl

theorem sameQuota_answerOut (id : Nat) (c : Rsp) : SameQuota d (answerOut d id c) := by
  unfold answerOut
  split
  · exact .refl d
  · dsimp only
    split
    · split
      · exact .of_tiles_eq rfl rfl rfl
      · exact .of_tiles_eq rfl rfl rfl
    · exact (sameQuota_send d ..).trans (.of_tiles_eq rfl rfl rfl)
    · exact .of_tiles_eq rfl rfl rfl
    · exact .of_tiles_eq rfl rfl rfl

theorem sameQuota_silenceTxn (id : Nat) : SameQuota d (silenceTxn d id) := by
  unfold silenceTxn
  split
  · exact .refl d
  · extract_lets n d₁ waits mangle d₂ master d₃
    have h₃ : SameQuota d d₃ := .of_tiles_eq rfl rfl rfl
    split
    · exact .of_tiles_eq rfl rfl rfl
    split
    · exact h₃.trans (sameQuota_answerOut ..)
    split
    · exact h₃.trans (.of_tiles_eq rfl rfl rfl)
    · exact h₃.trans (.of_tiles_eq rfl rfl rfl)

theorem sameQuota_dropUndecided (t : Nat) : SameQuota d (dropUndecided d t) := by
  unfold dropUndecided
  extract_lets keep late ids d₁
  split
  · exact .refl d
  · exact ((sameQuota_discardParts ..).trans (.foldl (fun e o => sameQuota_discardBolts e ids o) _ _)).trans
      (.foldl sameQuota_silenceTxn _ _)

/-- Where no masked port has an input at a tile, nothing is discarded there. -/
theorem dropUndecided_of_unmasked {t : Nat} (h : maskedInputs d t = []) : dropUndecided d t = d := by
  have hlate (keep : List Part) : ((slice d t).arb.flatMap fun e =>
      if e.1 < 16 && masked d e.1 then e.2.filter (!keep.contains ·) else []) = [] := by
    refine List.flatMap_eq_nil_iff.mpr fun e he => if_neg ?_
    exact List.filter_eq_nil_iff.mp h e he
  unfold dropUndecided
  extract_lets keep late ids d₁
  have hids : ids = [] := by simp [ids, show late = [] from hlate keep]
  rw [if_pos (by rw [hids]; rfl)]

end Discards

/-! ## QUOTA_WINDOW_END (R308) -/

/-- A slice as a quota window begins there: its count restarts, and what was decided for that case is the next grant (R308, R311). -/
def windowStart (s : Slice) : Slice := { s with quota := 0, quotaRaised := false, decided := s.atWindow }

theorem beginWindow_eq (d : Dev) (t : Nat) : beginWindow d t = raiseMasked (dropUndecided (onSlice d t windowStart) t) t := rfl

theorem raiseMasked_cases (d : Dev) (t : Nat) : raiseMasked d t = d ∨
    raiseMasked d t = onSlice (raise d Ev.QUOTA_MASKED) t fun s => { s with quotaRaised := true } := by
  unfold raiseMasked
  split
  · exact .inr rfl
  · exact .inl rfl

/-- A count below the quota masks nothing (R308). -/
theorem raiseMasked_of_below {d : Dev} {t : Nat} (h : (slice d t).quota < d.reg.quota) : raiseMasked d t = d := by
  have hspent : quotaSpent d t = false := by simp [quotaSpent, Nat.not_le.mpr h]
  simp [raiseMasked, quotaMasks, hspent]

/-- Raising QUOTA_MASKED marks its own slice, and touches no other part of a tile. -/
theorem slice_raiseMasked (d : Dev) (t k : Nat) : ∃ b, slice (raiseMasked d t) k = { slice d k with quotaRaised := b } := by
  obtain h | h := raiseMasked_cases d t
  · exact ⟨(slice d k).quotaRaised, by rw [h]⟩
  · rw [h]
    by_cases hk : k = t
    · subst hk
      exact ⟨true, by rw [slice_onSlice, slice_congr (raise_tiles ..)]⟩
    · exact ⟨(slice d k).quotaRaised, by rw [slice_onSlice_ne _ _ _ _ hk, slice_congr (raise_tiles ..)]⟩

theorem raiseMasked_reg (d : Dev) (t : Nat) : (raiseMasked d t).reg = d.reg := by
  obtain h | h := raiseMasked_cases d t
  · rw [h]
  · rw [h]
    exact raise_reg ..

theorem raiseMasked_pins (d : Dev) (t : Nat) : (raiseMasked d t).pins = d.pins := by
  obtain h | h := raiseMasked_cases d t
  · rw [h]
  · rw [h]
    exact raise_pins ..

theorem chan_raiseMasked (d : Dev) (t k : Nat) : chan (raiseMasked d t) k = chan d k := by
  obtain h | h := raiseMasked_cases d t
  · rw [h]
  · rw [h, chan_onSlice, chan_congr (raise_tiles ..)]

theorem svc_raiseMasked (d : Dev) (t k : Nat) : svc (raiseMasked d t) k = svc d k := by
  obtain h | h := raiseMasked_cases d t
  · rw [h]
  · rw [h, svc_onSlice]
    exact congrArg Tile.svc (getTile_congr (raise_tiles ..) k)

section BeginWindow
variable (d : Dev) (t : Nat)

theorem beginWindow_quota : (beginWindow d t).reg.quota = d.reg.quota := by
  rw [beginWindow_eq, raiseMasked_reg, (sameQuota_dropUndecided ..).quota]
  rfl

theorem beginWindow_qwin : (beginWindow d t).reg.qwin = d.reg.qwin := by
  rw [beginWindow_eq, raiseMasked_reg, (sameQuota_dropUndecided ..).qwin]
  rfl

/-- At its own tile a window begins with count 0 and the grant that was decided for it. -/
theorem quotaView_beginWindow_self : quotaView (slice (beginWindow d t) t) = (0, (slice d t).atWindow, (slice d t).atWindow) := by
  obtain ⟨b, hb⟩ := slice_raiseMasked (dropUndecided (onSlice d t windowStart) t) t t
  have hview := (sameQuota_dropUndecided (onSlice d t windowStart) t).views t
  rw [slice_onSlice] at hview
  rw [beginWindow_eq, hb]
  exact hview

/-- No other tile's count or decided grant changes. -/
theorem quotaView_beginWindow_other {k : Nat} (hk : k ≠ t) : quotaView (slice (beginWindow d t) k) = quotaView (slice d k) := by
  obtain ⟨b, hb⟩ := slice_raiseMasked (dropUndecided (onSlice d t windowStart) t) t k
  have hview := (sameQuota_dropUndecided (onSlice d t windowStart) t).views k
  rw [slice_onSlice_ne _ _ _ _ hk] at hview
  rw [beginWindow_eq, hb]
  exact hview

/-- A quota above 0 masks nothing at the beginning of a window (R308). -/
theorem beginWindow_of_quota_pos (hquota : d.reg.quota ≠ 0) : beginWindow d t = dropUndecided (onSlice d t windowStart) t := by
  have hsame := sameQuota_dropUndecided (onSlice d t windowStart) t
  have hzero : (slice (dropUndecided (onSlice d t windowStart) t) t).quota = 0 := by
    have hview := hsame.views t
    rw [slice_onSlice] at hview
    exact congrArg Prod.fst hview
  rw [beginWindow_eq, raiseMasked_of_below]
  rw [hzero, hsame.quota]
  exact Nat.pos_of_ne_zero hquota

/-- Where nothing waits of a masked port, a window changes its own slice, and may raise QUOTA_MASKED. -/
theorem beginWindow_of_unmasked (h : maskedInputs d t = []) : beginWindow d t = raiseMasked (onSlice d t windowStart) t := by
  have hstart : maskedInputs (onSlice d t windowStart) t = [] := by
    rw [maskedInputs, slice_onSlice]
    exact h
  rw [beginWindow_eq, dropUndecided_of_unmasked _ hstart]

end BeginWindow

/-! ### All tiles -/

/-- No tile holds an input of a masked port. -/
def Unmasked (d : Dev) : Prop := ∀ k, k < 320 → maskedInputs d k = []

theorem Unmasked.beginWindow {d : Dev} (h : Unmasked d) {t : Nat} (ht : t < 320) : Unmasked (beginWindow d t) := by
  intro k hk
  obtain ⟨b, hb⟩ := slice_raiseMasked (onSlice d t windowStart) t k
  have harb : (slice (onSlice d t windowStart) k).arb = (slice d k).arb  :=
    view_onSlice (view := Slice.arb) (f := windowStart) d (fun _ => rfl) t k
  have hpins : (raiseMasked (onSlice d t windowStart) t).pins = d.pins := raiseMasked_pins ..
  rw [beginWindow_of_unmasked _ _ (h t ht), maskedInputs, hb]
  simp only [harb, masked, hpins]
  exact h k hk

/-- A window begins at every tile. -/
def windowsBegun (d : Dev) : Dev := (List.range 320).foldl beginWindow d

theorem windowsBegun_quota (d : Dev) : (windowsBegun d).reg.quota = d.reg.quota :=
  List.foldlRecOn (motive := fun e => e.reg.quota = d.reg.quota) _ _ rfl fun e he t _ => (beginWindow_quota e t).trans he

theorem windowsBegun_qwin (d : Dev) : (windowsBegun d).reg.qwin = d.reg.qwin :=
  List.foldlRecOn (motive := fun e => e.reg.qwin = d.reg.qwin) _ _ rfl fun e he t _ => (beginWindow_qwin e t).trans he

theorem quotaView_windowsBegun (d : Dev) {k : Nat} (hk : k < 320) :
    quotaView (slice (windowsBegun d) k) = (0, (slice d k).atWindow, (slice d k).atWindow) := by
  have h := view_foldl_slices (view := quotaView) (g := fun v => (0, v.2.2, v.2.2)) (f := beginWindow) (I := fun _ => True)
    (fun d _ t _ => quotaView_beginWindow_self d t) (fun d _ t _ k hk => quotaView_beginWindow_other d t hk) (fun _ _ _ _ => trivial)
    (List.nodup_range (n := 320)) (d := d) trivial k
  rw [windowsBegun, h, if_pos (List.mem_range.mpr hk)]
  rfl

/-- A quota above 0 masks nothing in the windows that begin (R308). -/
theorem quotaRaised_windowsBegun {d : Dev} (hquota : d.reg.quota ≠ 0) {k : Nat} (hk : k < 320) :
    (slice (windowsBegun d) k).quotaRaised = false := by
  have hraised {d : Dev} (hd : d.reg.quota ≠ 0) (t k : Nat) :
      (slice (beginWindow d t) k).quotaRaised = (slice (onSlice d t windowStart) k).quotaRaised := by
    rw [beginWindow_of_quota_pos _ _ hd, (sameQuota_dropUndecided ..).raised]
  have h := view_foldl_slices (view := Slice.quotaRaised) (g := fun _ => false) (f := beginWindow) (I := fun d => d.reg.quota ≠ 0)
    (fun d hd t _ => by rw [hraised hd, slice_onSlice, windowStart])
    (fun d hd t _ k hk => by rw [hraised hd, slice_onSlice_ne _ _ _ _ hk])
    (fun d hd t _ => by rwa [beginWindow_quota]) (List.nodup_range (n := 320)) hquota k
  rw [windowsBegun, h, if_pos (List.mem_range.mpr hk)]

/-- A slice but for the mark of QUOTA_MASKED. -/
def unraised (s : Slice) : Slice := { s with quotaRaised := false }

theorem unraised_raiseMasked (d : Dev) (t k : Nat) : unraised (slice (raiseMasked d t) k) = unraised (slice d k) := by
  obtain ⟨b, hb⟩ := slice_raiseMasked d t k
  rw [hb]
  rfl

section AllUnmasked
variable {d : Dev} (hd : Unmasked d)
include hd

theorem unraised_windowsBegun {k : Nat} (hk : k < 320) : unraised (slice (windowsBegun d) k) = windowStart (slice d k) := by
  have hslice {d : Dev} (hd : Unmasked d) {t : Nat} (ht : t ∈ List.range 320) (k : Nat) :
      unraised (slice (beginWindow d t) k) = unraised (slice (onSlice d t windowStart) k) := by
    rw [beginWindow_of_unmasked _ _ (hd t (List.mem_range.mp ht)), unraised_raiseMasked]
  have h := view_foldl_slices (view := unraised) (g := windowStart) (f := beginWindow) (I := Unmasked)
    (fun d hd t ht => by rw [hslice hd ht, slice_onSlice]; rfl)
    (fun d hd t ht k hk => by rw [hslice hd ht, slice_onSlice_ne _ _ _ _ hk])
    (fun d hd t ht => hd.beginWindow (List.mem_range.mp ht)) (List.nodup_range (n := 320)) hd k
  rw [windowsBegun, h, if_pos (List.mem_range.mpr hk)]
  rfl

/-- The channels and their service stand beside the windows. -/
theorem chan_svc_windowsBegun (k : Nat) : chan (windowsBegun d) k = chan d k ∧ svc (windowsBegun d) k = svc d k := by
  have h := List.foldlRecOn (motive := fun e => Unmasked e ∧ chan e k = chan d k ∧ svc e k = svc d k) (List.range 320) beginWindow
    ⟨hd, rfl, rfl⟩ fun e he t ht => by
      obtain ⟨hu, hchan, hsvc⟩ := he
      have ht' := List.mem_range.mp ht
      refine ⟨hu.beginWindow ht', ?_⟩
      rw [beginWindow_of_unmasked _ _ (hu t ht'), chan_raiseMasked, svc_raiseMasked, chan_onSlice, svc_onSlice]
      exact ⟨hchan, hsvc⟩
  exact h.2

/-- Where the quota is above 0 nothing is raised either. -/
theorem windowsBegun_regs (hquota : d.reg.quota ≠ 0) : (windowsBegun d).regs = d.regs := by
  have h := List.foldlRecOn (motive := fun e => Unmasked e ∧ e.reg.quota ≠ 0 ∧ e.regs = d.regs) (List.range 320) beginWindow
    ⟨hd, hquota, rfl⟩ fun e he t ht => by
      obtain ⟨hu, hpos, hregs⟩ := he
      have ht' := List.mem_range.mp ht
      refine ⟨hu.beginWindow ht', by rwa [beginWindow_quota], ?_⟩
      have hstart : (slice (onSlice e t windowStart) t).quota < (onSlice e t windowStart).reg.quota := by
        rw [slice_onSlice]
        exact Nat.pos_of_ne_zero hpos
      rw [beginWindow_of_unmasked _ _ (hu t ht'), raiseMasked_of_below hstart]
      exact hregs
  exact h.2.2

end AllUnmasked

theorem quotaWindowEnd_of_done {d : Dev} (h : d.boot.done = true) : quotaWindowEnd d = windowsBegun (latchQuota d) := by
  rw [quotaWindowEnd, h]
  rfl

/-! ## REG_WINDOW_END (R287, R292, R297, R304) -/

/-- `e` is `d` but for the counters, the pending bits, and the two registers of missed guarantees. -/
structure SameRates (d e : Dev) : Prop where
  parts : ∃ r y, e = { d with regs := r, tally := y }
  regs  : ∀ off, off < 0x80 ∨ 0xA0 ≤ off → off ≠ 0x2130 → off ≠ 0x2134 → rget e off = rget d off

theorem SameRates.refl (d : Dev) : SameRates d d := ⟨⟨d.regs, d.tally, rfl⟩, fun _ _ _ _ => rfl⟩

theorem SameRates.trans {d e f : Dev} (h : SameRates d e) (h' : SameRates e f) : SameRates d f := by
  refine ⟨?_, fun off hpend hinfo hcount => (h'.regs off hpend hinfo hcount).trans (h.regs off hpend hinfo hcount)⟩
  obtain ⟨_, _, rfl⟩ := h.parts
  obtain ⟨r, y, rfl⟩ := h'.parts
  exact ⟨r, y, rfl⟩

theorem sameRates_rset (d : Dev) {off : Nat} (hoff : off = 0x2130 ∨ off = 0x2134) (v : Word) : SameRates d (rset d off v) :=
  ⟨⟨_, d.tally, rfl⟩, fun _ _ hinfo hcount => rget_rset_ne _ _ _ _ (by omega)⟩

theorem sameRates_raise (d : Dev) (e : Nat) (m b : Option Nat) : SameRates d (raise d e m b) := by
  refine ⟨?_, fun off hpend _ _ => rget_raise_ne d e off m b hpend⟩
  obtain ⟨y, h⟩ := raiseN_eq d e 1 m b
  exact ⟨_, y, h⟩

section Rates
variable {d e : Dev} (h : SameRates d e)
include h

theorem SameRates.reg_eq : e.reg = d.reg := by obtain ⟨_, _, rfl⟩ := h.parts; rfl

theorem SameRates.rbits_eq {off : Nat} (hpend : off < 0x80 ∨ 0xA0 ≤ off) (hinfo : off ≠ 0x2130) (hcount : off ≠ 0x2134) (hi lo : Nat) :
    rbits e off hi lo = rbits d off hi lo := congrArg (bits · hi lo) (h.regs off hpend hinfo hcount)

theorem SameRates.slowRate_eq (r : Nat) : slowRate e r = slowRate d r := by
  have hpins : e.pins = d.pins := by obtain ⟨_, _, rfl⟩ := h.parts; rfl
  have henergy : e.energy = d.energy := by obtain ⟨_, _, rfl⟩ := h.parts; rfl
  simp (disch := omega) only [slowRate, h.regs, hpins, henergy]

theorem SameRates.deliverRegion_eq (r : Nat) : deliverRegion e r = deliverRegion d r := by
  have hheat : getHeat e r = getHeat d r := by obtain ⟨_, _, rfl⟩ := h.parts; rfl
  have hout : outCount e r = outCount d r := by obtain ⟨_, _, rfl⟩ := h.parts; rfl
  simp (disch := omega) only [deliverRegion, h.slowRate_eq, hheat, hout, h.regs, h.rbits_eq]

/-- The deliverable capacity is the same in both (R292). -/
theorem SameRates.deliverable_eq : deliverable e = deliverable d := by
  simp (disch := omega) only [deliverable, h.deliverRegion_eq, h.rbits_eq]

theorem SameRates.guarSum_eq : guarSum e = guarSum d := by
  refine congrArg List.sum (List.map_congr_left fun m hm => h.rbits_eq ?_ ?_ ?_ 15 0) <;> omega

end Rates

/-! ### Missed guarantees (R304) -/

/-- A missed guarantee is raised and captured. -/
def MissRecorded (d : Dev) : Prop := isPending d Ev.GUARANTEE_MISSED ∧ (rget d 0x2130).getLsbD 31 = true

theorem sameRates_recordMiss (d : Dev) (m : Nat) : SameRates d (recordMiss d m) := by
  unfold recordMiss
  extract_lets d₁
  have h₁ : SameRates d d₁ := (sameRates_raise ..).trans (sameRates_rset _ (.inr rfl) _)
  split
  · exact h₁
  · exact h₁.trans (sameRates_rset _ (.inl rfl) _)

theorem missRecorded_recordMiss (d : Dev) {m : Nat} (hm : m < 24) : MissRecorded (recordMiss d m) := by
  unfold recordMiss
  extract_lets d₁
  have hpending : isPending d₁ Ev.GUARANTEE_MISSED := by
    rw [isPending, rget_rinc_ne _ _ _ (by decide)]
    exact isPending_raise d _ _ (by decide)
  split
  · exact ⟨hpending, ‹_›⟩
  · refine ⟨?_, ?_⟩
    · rw [isPending, rget_rset_ne _ _ _ _ (by decide)]
      exact hpending
    · have hclass := trafficClass_lt d m
      rw [rget_rset, BitVec.getLsbD_ofNat, Nat.add_assoc, Nat.testBit_two_pow_add_eq, Nat.testBit_lt_two_pow (by omega)]
      rfl

/-- The misses of the window that ends, recorded (R303, R304). -/
def missesRecorded (d : Dev) : Dev := (masters.filter (missed d)).foldl recordMiss d

theorem sameRates_missesRecorded (d : Dev) : SameRates d (missesRecorded d) :=
  List.foldlRecOn (motive := SameRates d) _ recordMiss (.refl d) fun e he m _ => he.trans (sameRates_recordMiss e m)

theorem missRecorded_missesRecorded {d : Dev} {m : Nat} (hm : m < 24) (hmiss : missed d m = true) :
    MissRecorded (missesRecorded d) := by
  have hlt : ∀ k ∈ masters.filter (missed d), k < 24 := fun k hk => List.mem_range.mp (List.mem_filter.mp hk).1
  have hmem : m ∈ masters.filter (missed d) := List.mem_filter.mpr ⟨List.mem_range.mpr hm, hmiss⟩
  rw [missesRecorded]
  obtain hnil | ⟨pre, k, hlast⟩ := List.eq_nil_or_concat (masters.filter (missed d))
  · rw [hnil] at hmem
    exact absurd hmem List.not_mem_nil
  · rw [hlast, List.concat_eq_append, List.foldl_append]
    exact missRecorded_recordMiss _ (hlt k (by simp [hlast]))

/-! ### The window that begins -/

/-- A new FACTOR is raised (R297). -/
def factorRaised (d : Dev) : Dev := if factorFor (deliverable d) (guarSum d) = d.reg.factor then d else raise d Ev.GUARANTEE_SCALED

/-- The rates of the next window (R287, R292, R297, R302). -/
def ratesSet (d : Dev) : Dev :=
  let e := factorRaised d
  { e with reg := { e.reg with factor := factorFor (deliverable d) (guarSum d), deliver := deliverable d, guarSum := guarSum d,
                               mon := BitVec.ofNat 4 (rbits e 0x211C 3 0), window := max 1 (rbits e 0x2100 7 0) } }

/-- A master's charge begins again (R287). -/
def restartCharge (d : Dev) (m : Nat) : Dev :=
  setMaster d m { getMaster d m with charge := 0, overBudget := false, pressed := pressedNow d m }

theorem regWindowEnd_of_applied {d : Dev} (h : d.boot.applied = true) :
    regWindowEnd d = masters.foldl restartCharge (ratesSet (missesRecorded d)) := by
  rw [regWindowEnd, if_neg (by simp [h])]
  unfold ratesSet factorRaised missesRecorded restartCharge
  dsimp only

/-- The charges restart in the masters alone. -/
theorem foldl_restartCharge_eq (l : List Nat) (d : Dev) :
    ∃ ms, l.foldl restartCharge d = { d with reg := { d.reg with masters := ms } } := by
  induction l generalizing d with
  | nil => exact ⟨d.reg.masters, rfl⟩
  | cons m l ih =>
    obtain ⟨ms, h⟩ := ih (restartCharge d m)
    exact ⟨ms, h⟩

theorem charge_foldl_restartCharge {l : List Nat} {m : Nat} (hm : m ∈ l) (d : Dev) : (getMaster (l.foldl restartCharge d) m).charge = 0 := by
  refine foldl_establishes (P := fun d => (getMaster d m).charge = 0) hm (fun d => ?_) (fun d k hd => ?_) d
  · rw [restartCharge, getMaster_setMaster]
  · by_cases hk : m = k
    · rw [hk, restartCharge, getMaster_setMaster]
    · rw [restartCharge, getMaster_setMaster_ne _ _ _ _ hk, hd]

theorem held_queue_foldl_restartCharge (l : List Nat) (d : Dev) (m : Nat) :
    (getMaster (l.foldl restartCharge d) m).held = (getMaster d m).held ∧
      (getMaster (l.foldl restartCharge d) m).queue = (getMaster d m).queue := by
  refine List.foldlRecOn (motive := fun e => (getMaster e m).held = (getMaster d m).held ∧ (getMaster e m).queue = (getMaster d m).queue)
    l restartCharge ⟨rfl, rfl⟩ fun e he k _ => ?_
  by_cases hk : m = k
  · subst hk
    rw [restartCharge, getMaster_setMaster]
    exact he
  · rw [restartCharge, getMaster_setMaster_ne _ _ _ _ hk]
    exact he

/-! ### What the next window finds -/

theorem sameRates_factorRaised (d : Dev) : SameRates d (factorRaised d) := by
  unfold factorRaised
  split
  · exact .refl d
  · exact sameRates_raise ..

theorem MissRecorded.factorRaised {d : Dev} (h : MissRecorded d) : MissRecorded (factorRaised d) := by
  obtain ⟨hpending, hcaptured⟩ := h
  unfold Machine.factorRaised
  split
  · exact ⟨hpending, hcaptured⟩
  · exact ⟨getLsbD_raise_of_getLsbD hpending .., getLsbD_raise_of_getLsbD hcaptured ..⟩

theorem isPending_factorRaised {d : Dev} (h : factorFor (deliverable d) (guarSum d) ≠ d.reg.factor) :
    isPending (factorRaised d) Ev.GUARANTEE_SCALED := by
  rw [factorRaised, if_neg h]
  exact isPending_raise d _ _ (by decide)

section NextWindow
variable {d : Dev} (happlied : d.boot.applied = true)
include happlied

/-- The end of a window changes registers, counters and the regulator; the capacity and the guarantees are those of the state before. -/
theorem regWindowEnd_eq : ∃ tally mon ms, regWindowEnd d =
    { d with regs := (factorRaised (missesRecorded d)).regs, tally := tally,
             reg := { d.reg with factor := factorFor (deliverable d) (guarSum d), deliver := deliverable d, guarSum := guarSum d,
                                 mon := mon, window := max 1 (rbits d 0x2100 7 0), masters := ms } } := by
  have hmisses := sameRates_missesRecorded d
  have hraised := hmisses.trans (sameRates_factorRaised (missesRecorded d))
  have hwindow : rbits (factorRaised (missesRecorded d)) 0x2100 7 0 = rbits d 0x2100 7 0 :=
    hraised.rbits_eq (by decide) (by decide) (by decide) 7 0
  obtain ⟨ms, hms⟩ := foldl_restartCharge_eq masters (ratesSet (missesRecorded d))
  obtain ⟨r, tally, hparts⟩ := hraised.parts
  rw [regWindowEnd_of_applied happlied, hms, ratesSet, hmisses.deliverable_eq, hmisses.guarSum_eq, hwindow]
  exact ⟨tally, BitVec.ofNat 4 (rbits (factorRaised (missesRecorded d)) 0x211C 3 0), ms, by rw [hparts]⟩

theorem rget_regWindowEnd (off : Nat) : rget (regWindowEnd d) off = rget (factorRaised (missesRecorded d)) off := by
  obtain ⟨tally, mon, ms, h⟩ := regWindowEnd_eq happlied
  exact rget_congr (by rw [h]) off

/-- Every charge begins again; credits and queues stay (R287). -/
theorem getMaster_regWindowEnd {m : Nat} (hm : m < 24) : (getMaster (regWindowEnd d) m).charge = 0 ∧
    (getMaster (regWindowEnd d) m).held = (getMaster d m).held ∧ (getMaster (regWindowEnd d) m).queue = (getMaster d m).queue := by
  have hraised := (sameRates_missesRecorded d).trans (sameRates_factorRaised (missesRecorded d))
  have hmasters : (ratesSet (missesRecorded d)).reg.masters = d.reg.masters := by rw [ratesSet, hraised.reg_eq]
  have hsame : getMaster (ratesSet (missesRecorded d)) m = getMaster d m := congrArg (mgetD Reset.master · m) hmasters
  rw [regWindowEnd_of_applied happlied, ← hsame]
  exact ⟨charge_foldl_restartCharge (List.mem_range.mpr hm) _, held_queue_foldl_restartCharge masters _ m⟩

/-- A new FACTOR is raised (R297). -/
theorem isPending_scaled_regWindowEnd (h : factorFor (deliverable d) (guarSum d) ≠ d.reg.factor) :
    isPending (regWindowEnd d) Ev.GUARANTEE_SCALED := by
  have hmisses := sameRates_missesRecorded d
  rw [isPending, rget_regWindowEnd happlied]
  refine isPending_factorRaised ?_
  rwa [hmisses.deliverable_eq, hmisses.guarSum_eq, hmisses.reg_eq]

theorem missRecorded_regWindowEnd {m : Nat} (hm : m < 24) (hmiss : missed d m = true) : MissRecorded (regWindowEnd d) := by
  rw [MissRecorded, isPending, rget_regWindowEnd happlied, rget_regWindowEnd happlied]
  exact (missRecorded_missesRecorded hm hmiss).factorRaised

end NextWindow

end Sys2Proof.Machine

section
open Sys2Proof.Machine Sys2Proof.Claims

/-- Settles O16: a quota window begins at each slice alone (`quotaView_windowsBegun`, `unraised_windowsBegun`), and the end of a
regulation window is `regWindowEnd_eq`, with what it records of the window that ends (`missRecorded_regWindowEnd`). -/
theorem windowsRestartTheirCounts : Obligations.WindowsRestartTheirCounts := by
  refine ⟨fun s hdone => endsDev_of_onDev (f := quotaWindowEnd) rfl ?_, fun s happlied => endsDev_of_onDev (f := regWindowEnd) rfl ?_⟩
  · have hmasked (h : ∀ k, k < 320 → maskedInputs s.dev k = []) : Unmasked (latchQuota s.dev) := h
    rw [quotaWindowEnd_of_done hdone]
    refine ⟨fun k hk => ?_, fun hnone k => ⟨fun hk => ?_, ?_⟩, windowsBegun_quota _, windowsBegun_qwin _,
      fun hquota => ⟨fun k hk => ?_, fun hnone => ?_⟩⟩
    · have hview := quotaView_windowsBegun (latchQuota s.dev) hk
      simp only [quotaView, Prod.mk.injEq] at hview
      obtain ⟨hcount, hdecided, -⟩ := hview
      exact ⟨hcount, hdecided⟩
    · exact unraised_windowsBegun (hmasked hnone) hk
    · exact chan_svc_windowsBegun (hmasked hnone) k
    · exact quotaRaised_windowsBegun hquota hk
    · exact windowsBegun_regs (hmasked hnone) hquota
  · obtain ⟨tally, mon, ms, heq⟩ := regWindowEnd_eq happlied
    have hfactor : (regWindowEnd s.dev).reg.factor = factorFor (deliverable s.dev) (guarSum s.dev) := by rw [heq]
    refine ⟨hfactor, by rw [heq], by rw [heq], by rw [heq], fun m hm => getMaster_regWindowEnd happlied hm, fun hnew => ?_,
      fun m hm hmiss => missRecorded_regWindowEnd happlied hm hmiss, by rw [heq], by rw [heq]⟩
    exact isPending_scaled_regWindowEnd happlied (hfactor ▸ hnew)

end
end

section
/-!
What a TILE_GRANT takes up beside its own request. It settles slices and panels, so whatever waits there and may go on does. With the
tile map of reset that may be a WRITEBOLT of the tile's own panel, which completes while the arbiter decides; with that of
`disputedMap` it may be a WRITEBOLT of another panel, which completes beside the request that is granted.
-/
namespace Sys2Proof.Machine
open Sys2Proof.Claims

/-! ## A decision beside a WRITEBOLT -/

/-- The bolt whose first line tile 80, member 0 of panel 5, holds. -/
def besideBolt : Nat := stripeBolt Reset.dev ⟨5, 2, 6, 0, 0⟩

/-- A READ of M3 of that line, which waits at the arbiter of tile 80. -/
def besidePart : Part := ⟨0, 0, 3, 0, .read .none, ⟨80, 2, 6, 0⟩, besideBolt⟩

def besideTxn : Txn :=
  ⟨.port 3 7, 3, .read, 0, BitVec.ofNat 34 (64 * besideBolt), 2, .none, 0, [(0, 0)], 0, none, true, 1, true, 0, 0, [], 1, [], false,
    false, none⟩

/-- The slice of member m of panel 5, which has granted `grantedWritebolt` and holds its lines for it. -/
def memberSlice (m : Nat) : Slice :=
  { Reset.slice with zeroing := [grantedWritebolt.bolt], arb := if m = 0 then [(3, [besidePart])] else [] }

/-- All members of panel 5 have granted the WRITEBOLT, and every Hamper there has room; the tile map is that of reset
(`writeboltWaits_seated`). -/
def writeboltWaits : State :=
  { State.reset with dev := { Reset.dev with
      pins := { Reset.pins with rstAsserted := false, rstPin := false, pllCore := true, ready := true }
      txns := [(0, besideTxn), (1, writeboltTxn)], nextTxn := 2
      tiles := (List.range 16).map fun m => (80 + m, { Reset.tile with slice := memberSlice m })
      panels := [(5, { Reset.panel with boltOps := [grantedWritebolt] })]
      blank := { Reset.blank with valid := [(0, 62914559)], known := true } } }

theorem writeboltWaits_seated : seated writeboltWaits.dev 5 := by decide +kernel

theorem parts_left_after_decision : (getTxn (tileGrant writeboltWaits.dev 80) 1).map Txn.left = some 0 := by decide +kernel

/-! ## A granted READ of a masked port -/

/-- The last line of a READ of M4, whose port is masked. -/
def maskedPart : Part := ⟨0, 0, 4, 0, .read .none, disputedLoc, disputedBolt⟩

def maskedTxn : Txn := { disputedTxn .read with src := .port 4 7, master := 4, left := 1 }

/-- The arbiter of tile 83 has decided to grant it, and it hits; the WRITEBOLT of panel 5 is of M4 too. -/
def maskedRead : State :=
  let d := disputedMap { holdsDisputed true (entryCrc 77) with arb := [(4, [maskedPart])], decided := some (4, false) }
  { State.reset with dev := { d with txns := (0, maskedTxn) :: d.txns, pins := { d.pins with mask := 0x10 } } }

theorem maskedRead_hits : readHit maskedRead.dev 83 4 0 maskedPart false .none maskedTxn := by decide +kernel

theorem two_completions_after_grant : (getMaster (tileGrant maskedRead.dev 83) 4).due.length = 2 := by decide +kernel

end Sys2Proof.Machine

section
open Sys2Proof Sys2Proof.Machine Sys2Proof.Claims

/-- Refutes O17: its first clause does not ask that the panel be idle. Where tile 80 decides its grant, the transactions are promised to
stay; but the WRITEBOLT that waits in its panel goes on in the same command, and all 16 parts of its transaction finish. -/
theorem not_readsAreServed : ¬ Obligations.ReadsAreServed := by
  rintro ⟨hdecides, -⟩
  obtain ⟨d, hexec, -, -, -, htxns, -⟩ := hdecides 80 3 besidePart false writeboltWaits (by decide) rfl (by decide +kernel)
    (by decide +kernel)
  rw [exec_tileGrant] at hexec
  have hd : tileGrant writeboltWaits.dev 80 = d := dev_eq_of_next hexec
  have hcontra : some 0 = some 16 :=
    calc some 0
      _ = (getTxn d 1).map Txn.left := by rw [← hd, parts_left_after_decision]
      _ = (getTxn writeboltWaits.dev 1).map Txn.left := congrArg _ (getTxn_congr htxns 1)
      _ = some 16 := rfl
  exact absurd hcontra (by decide)

/-- Refutes O13: its last clause does not ask that the panel be `seated`. The silent completion of M4's READ is promised to be the one
new completion of M4; but the WRITEBOLT of panel 5, M4's too, goes on in the same command and completes as well. -/
theorem not_creditsResponsesAndMasks : ¬ Obligations.CreditsResponsesAndMasks := by
  rintro ⟨-, -, -, hgranted⟩
  obtain ⟨d, hexec, -, -, -, -, hdue⟩ := hgranted 83 4 0 maskedPart false .none 4 7 maskedTxn maskedRead (by decide) maskedRead_hits
    rfl rfl
  rw [exec_tileGrant] at hexec
  have hd : tileGrant maskedRead.dev 83 = d := dev_eq_of_next hexec
  have hcontra : 2 = 1 :=
    calc 2
      _ = (getMaster d 4).due.length := by rw [← hd, two_completions_after_grant]
      _ = 1 := congrArg List.length hdue
  exact absurd hcontra (by decide)

end
end

section
/-!
The refreshes of a hem (R268, R315 to R319, R325 to R327): where a due point lies, what a refresh command leaves of its channel, and which
of the cases of R325 a refresh that falls due belongs to. Passing a due point, or a new count of what is owed, changes nothing that a
refresh command waits for.
-/
namespace Sys2Proof.Machine
open Sys2Proof.Claims

/-! ## Due points (R319) -/

theorem roundUp_bounds {i : Nat} (hi : 0 < i) (n : Nat) : n ≤ (n + i - 1) / i * i ∧ (n + i - 1) / i * i < n + i := by
  have hdiv := Nat.div_add_mod (n + i - 1) i
  have hmod := Nat.mod_lt (n + i - 1) hi
  rw [Nat.mul_comm] at hdiv
  omega

/-- The first point of a schedule from a hem cycle on is a whole number of intervals after interval 0's, and less than one after it. -/
theorem pointFrom_spec (d : Dev) (t rank x : Nat) (half : Bool) :
    let i := max 1 (interval d t half)
    let o := phase d t rank * i / 256
    let y := pointFrom d t rank x half
    x ≤ y ∧ o ≤ y ∧ (y - o) % i = 0 ∧ (y = o ∨ y < x + i) := by
  extract_lets i o y
  have hi : 0 < i := by omega
  by_cases hx : x ≤ o
  · have hy : y = o := if_pos hx
    rw [hy, Nat.sub_self]
    exact ⟨hx, le_rfl, Nat.zero_mod i, .inl rfl⟩
  · have hy : y = o + (x - o + i - 1) / i * i := if_neg hx
    have hround := roundUp_bounds hi (x - o)
    rw [hy, Nat.add_sub_cancel_left, Nat.mul_mod_left]
    omega

/-! ## What the near ranks owe (R325) -/

theorem owed_setOwed (c : Chan) (k n : Nat) : owed (setOwed c k n) k = n := mgetD_mputD ..

/-! ## The refresh command (R268, R318) -/

theorem isFar_of_lt {t : Nat} (ht : t < 256) : isFar t = false := decide_eq_false (Nat.not_le.mpr ht)
theorem isFar_of_le {t : Nat} (ht : 256 ≤ t) : isFar t = true := decide_eq_true ht

section Command
variable (d : Dev) (t k at_ : Nat)

/-- An update of a channel that leaves its commands, banks and ranks leaves what a refresh waits for. -/
theorem refreshReady_onChan {f : Chan → Chan} (hhistory : ∀ c, (f c).history = c.history) (hranks : ∀ c, (f c).ranks = c.ranks)
    (hbanks : ∀ c, (f c).banks = c.banks) : refreshReady (onChan d t f) t k at_ = refreshReady d t k at_ := by
  unfold refreshReady
  rw [chan_onChan]
  simp only [slotFree, getRank, getBank, hhistory, hranks, hbanks]
  rfl

/-- REFRESH is counted only: it has no pending bit. -/
theorem doRefresh_regs : (doRefresh d t k at_).regs = d.regs := raise_regs ..

/-- A near rank's refresh keeps the rank for tRFC_N. -/
theorem chan_doRefresh_near (ht : t < 256) : ∃ z, chan (doRefresh d t k at_) t =
    record (setRank (chan d t) k { getRank (chan d t) k with busyTo := at_ + (timing d t).rfc }) t z := by
  rw [doRefresh, chan_congr (raise_tiles ..), chan_congr (eCount_tiles ..), chan_onChan]
  simp only [isFar_of_lt ht]
  exact ⟨_, rfl⟩

/-- A far stack's refresh, due or asked for, keeps its one bank. -/
theorem chan_doRefresh_far (ht : 256 ≤ t) : ∃ z, chan (doRefresh d t k at_) t =
    record (setBank (chan d t) k { getBank (chan d t) k with busyTo := at_ + (timing d t).rfc }) t z := by
  rw [doRefresh, chan_congr (raise_tiles ..), chan_congr (eCount_tiles ..), chan_onChan]
  simp only [isFar_of_le ht]
  exact ⟨_, rfl⟩

end Command

/-! ## A refresh that falls due now (R268, R330) -/

section DueNow
variable {d : Dev} {t k at_ : Nat}

theorem dueNow_of_ready (hready : refreshReady d t k at_ = true) (hfirst : (chan d t).dueRef = []) (hpattern : patternRuns d t = false) :
    dueNow d t k at_ = doRefresh d t k at_ := by
  simp [dueNow, hready, hfirst, hpattern]

theorem dueNow_of_waits (h : ¬((chan d t).dueRef = [] ∧ refreshReady d t k at_ = true)) :
    dueNow d t k at_ = onChan d t fun c => { c with dueRef := c.dueRef ++ [k] } := by
  refine if_neg fun hnow => h ?_
  simp only [Bool.and_eq_true, List.isEmpty_iff] at hnow
  obtain ⟨⟨hready, hfirst⟩, -⟩ := hnow
  exact ⟨hfirst, hready⟩

/-- Issued or waiting, it changes no register. -/
theorem dueNow_regs : (dueNow d t k at_).regs = d.regs := by
  unfold dueNow
  split
  · exact doRefresh_regs ..
  · exact onChan_regs ..

/-- Nor does it change what the near ranks owe, or how far their schedules have come. -/
theorem dueNow_debt (ht : t < 256) :
    (chan (dueNow d t k at_) t).owed = (chan d t).owed ∧ (chan (dueNow d t k at_) t).base = (chan d t).base := by
  unfold dueNow
  split
  · obtain ⟨z, hz⟩ := chan_doRefresh_near d t k at_ ht
    rw [hz]
    exact ⟨rfl, rfl⟩
  · rw [chan_onChan]
    exact ⟨rfl, rfl⟩

/-- A refresh that is issued keeps its rank busy; another joins those that wait. -/
theorem dueNow_near (ht : t < 256) (hpattern : patternRuns d t = false) :
    if (chan d t).dueRef = [] ∧ refreshReady d t k at_ = true then
      (getRank (chan (dueNow d t k at_) t) k).busyTo = at_ + (timing d t).rfc ∧ (chan (dueNow d t k at_) t).dueRef = []
    else (chan (dueNow d t k at_) t).dueRef = (chan d t).dueRef ++ [k] := by
  split
  · rename_i h
    obtain ⟨hfirst, hready⟩ := h
    obtain ⟨z, hz⟩ := chan_doRefresh_near d t k at_ ht
    rw [dueNow_of_ready hready hfirst hpattern, hz, getRank_record, getRank_setRank]
    exact ⟨rfl, hfirst⟩
  · rename_i h
    rw [dueNow_of_waits h, chan_onChan]

end DueNow

/-! ## The cases of R325 and R326 -/

section NearDue
variable {d : Dev} {t k at_ : Nat}

theorem nearDue_postpones (hpolicy : rbits d 0x4000 3 2 = 1) (hserves : inService d t = true)
    (howed : owed (chan d t) k < owedLimit d) (hreads : readWaits d t k = true) :
    nearDue d t k at_ = onChan d t fun c => setOwed c k (owed c k + 1) := by
  simp [nearDue, hpolicy, hserves, Nat.not_le.mpr howed, hreads]

theorem nearDue_forces (hpolicy : rbits d 0x4000 3 2 = 1) (hserves : inService d t = true)
    (howed : owedLimit d ≤ owed (chan d t) k) :
    nearDue d t k at_ = dueNow (raise (rinc d (tileOff t 0x188) 1) Ev.REFRESH_FORCED) t k at_ := by
  simp [nearDue, hpolicy, hserves, howed]

theorem nearDue_at_once (h : rbits d 0x4000 3 2 ≠ 1 ∨ inService d t = false ∨
    (owed (chan d t) k < owedLimit d ∧ readWaits d t k = false)) : nearDue d t k at_ = dueNow d t k at_ := by
  obtain hpolicy | hout | ⟨howed, hreads⟩ := h
  · simp [nearDue, hpolicy]
  · simp [nearDue, hout]
  · simp [nearDue, Nat.not_le.mpr howed, hreads]

end NearDue

/-! ## A due point is reached (R315, R325, R326) -/

section PastDue
variable (d : Dev) (t k at_ : Nat)

/-- The schedule has passed the point: nothing else of the channel has changed. -/
theorem chan_pastDue : chan (pastDue d t k at_) t = { chan d t with base := minsert (chan d t).base k at_ } := chan_onChan ..

theorem owed_pastDue (r : Nat) : owed (chan (pastDue d t k at_) t) r = owed (chan d t) r := by
  rw [chan_pastDue]
  rfl

theorem readWaits_pastDue (r : Nat) : readWaits (pastDue d t k at_) t r = readWaits d t r := by
  unfold readWaits readsOn
  rw [chan_pastDue]
  rfl

theorem inService_pastDue : inService (pastDue d t k at_) t = inService d t := by
  rw [inService, pastDue, svc_onChan]
  rfl

theorem patternRuns_onChan (f : Chan → Chan) : patternRuns (onChan d t f) t = patternRuns d t := by
  unfold patternRuns inBurst
  rw [svc_onChan]

theorem refreshReady_pastDue (r : Nat) : refreshReady (pastDue d t k at_) t r at_ = refreshReady d t r at_ :=
  refreshReady_onChan d t r at_ (fun _ => rfl) (fun _ => rfl) fun _ => rfl

end PastDue

section RefreshDue
variable {d : Dev} {t k at_ : Nat}

theorem refreshDue_near (ht : t < 256) (hk : k < 2) (hruns : scheduleRuns d t k = true) (hat : at_ = nextDue d t k) :
    refreshDue d t k at_ = nearDue (pastDue d t k at_) t k at_ := by
  simp [refreshDue, isFar_of_lt ht, Nat.mod_eq_of_lt hk, hruns, hat]

section Near
variable (ht : t < 256) (hk : k < 2) (hruns : scheduleRuns d t k = true) (hat : at_ = nextDue d t k)
include ht hk hruns hat

theorem refreshDue_postpones (hpolicy : rbits d 0x4000 3 2 = 1) (hserves : inService d t = true)
    (howed : owed (chan d t) k < owedLimit d) (hreads : readWaits d t k = true) :
    owed (chan (refreshDue d t k at_) t) k = owed (chan d t) k + 1 ∧ (refreshDue d t k at_).regs = d.regs ∧
    (chan (refreshDue d t k at_) t).dueRef = (chan d t).dueRef ∧ mget (chan (refreshDue d t k at_) t).base k = some at_ := by
  rw [refreshDue_near ht hk hruns hat, nearDue_postpones (d := pastDue d t k at_) hpolicy (by rwa [inService_pastDue]) (by rwa [owed_pastDue])
    (by rwa [readWaits_pastDue]), chan_onChan, chan_pastDue]
  exact ⟨owed_setOwed .., rfl, rfl, mget_minsert ..⟩

theorem refreshDue_forces (hpolicy : rbits d 0x4000 3 2 = 1) (hserves : inService d t = true)
    (howed : owedLimit d ≤ owed (chan d t) k) :
    owed (chan (refreshDue d t k at_) t) k = owed (chan d t) k ∧ isPending (refreshDue d t k at_) Ev.REFRESH_FORCED ∧
    counted d (refreshDue d t k at_) (tileOff t 0x188) 1 := by
  rw [refreshDue_near ht hk hruns hat, nearDue_forces (d := pastDue d t k at_) hpolicy (by rwa [inService_pastDue]) (by rwa [owed_pastDue])]
  refine ⟨?_, ?_, ?_⟩
  · rw [owed, (dueNow_debt ht).1, chan_congr (raise_tiles ..)]
    exact owed_pastDue ..
  · rw [isPending, rget_congr dueNow_regs]
    exact isPending_raise _ _ _ (by decide)
  · rw [counted, rget_congr dueNow_regs, rget_raise_ne _ _ _ _ _ (by unfold tileOff; omega), toNat_rget_rinc]
    rfl

theorem refreshDue_at_once (hpattern : patternRuns d t = false)
    (h : rbits d 0x4000 3 2 ≠ 1 ∨ inService d t = false ∨ (owed (chan d t) k < owedLimit d ∧ readWaits d t k = false)) :
    owed (chan (refreshDue d t k at_) t) k = owed (chan d t) k ∧ (refreshDue d t k at_).regs = d.regs ∧
    mget (chan (refreshDue d t k at_) t).base k = some at_ ∧
    if (chan d t).dueRef = [] ∧ refreshReady d t k at_ = true then
      (getRank (chan (refreshDue d t k at_) t) k).busyTo = at_ + (timing d t).rfc ∧ (chan (refreshDue d t k at_) t).dueRef = []
    else (chan (refreshDue d t k at_) t).dueRef = (chan d t).dueRef ++ [k] := by
  have hnow := dueNow_near (d := pastDue d t k at_) (k := k) (at_ := at_) ht ((patternRuns_onChan ..).trans hpattern)
  rw [refreshReady_pastDue] at hnow
  rw [refreshDue_near ht hk hruns hat, nearDue_at_once (d := pastDue d t k at_) (by rwa [inService_pastDue, owed_pastDue, readWaits_pastDue])]
  obtain ⟨howed, hbase⟩ := dueNow_debt (d := pastDue d t k at_) (k := k) (at_ := at_) ht
  rw [chan_pastDue] at howed hbase hnow
  refine ⟨?_, dueNow_regs, ?_, hnow⟩
  · rw [owed, howed]
    rfl
  · rw [hbase]
    exact mget_minsert ..

end Near

/-- A far channel has passed a due point of its schedule, and its rotor has moved on (R315). -/
def turned (d : Dev) (t k at_ : Nat) : Dev := onChan (pastDue d t 0 at_) t fun c => { c with rotor := (k + 1) % 48 }

theorem chan_turned : chan (turned d t k at_) t =
    { chan d t with base := minsert (chan d t).base 0 at_, rotor := (k + 1) % 48 } := by rw [turned, chan_onChan, chan_pastDue]

theorem refreshReady_turned : refreshReady (turned d t k at_) t k at_ = refreshReady d t k at_ :=
  (refreshReady_onChan (f := fun c => { c with rotor := (k + 1) % 48 }) _ t k at_ (fun _ => rfl) (fun _ => rfl) fun _ => rfl).trans
    (refreshReady_pastDue d t 0 at_ k)

theorem patternRuns_turned : patternRuns (turned d t k at_) t = patternRuns d t :=
  (patternRuns_onChan ..).trans (patternRuns_onChan ..)

theorem refreshDue_far (ht : 256 ≤ t) (hk : k = (chan d t).rotor) (hruns : scheduleRuns d t 0 = true) (hat : at_ = nextDue d t 0) :
    refreshDue d t k at_ = dueNow (turned d t k at_) t k at_ := by
  simp [refreshDue, turned, isFar_of_le ht, hk, hruns, hat]

/-- A far channel's due refresh goes to the bank at the rotor, and to no other (R315). -/
theorem refreshDue_rotates (ht : 256 ≤ t) (hk : k = (chan d t).rotor) (hruns : scheduleRuns d t 0 = true) (hat : at_ = nextDue d t 0)
    (hpattern : patternRuns d t = false) (hfirst : (chan d t).dueRef = []) (hready : refreshReady d t k at_ = true) :
    (chan (refreshDue d t k at_) t).rotor = (k + 1) % 48 ∧ mget (chan (refreshDue d t k at_) t).base 0 = some at_ ∧
    (getBank (chan (refreshDue d t k at_) t) k).busyTo = at_ + (timing d t).rfc ∧
    (∀ b, b ≠ k → getBank (chan (refreshDue d t k at_) t) b = getBank (chan d t) b) := by
  have hdue : refreshDue d t k at_ = doRefresh (turned d t k at_) t k at_ := by
    rw [refreshDue_far ht hk hruns hat, dueNow_of_ready (refreshReady_turned.trans hready) (by rw [chan_turned]; exact hfirst)
      (patternRuns_turned.trans hpattern)]
  obtain ⟨z, hz⟩ := chan_doRefresh_far (turned d t k at_) t k at_ ht
  rw [hdue, hz, chan_turned]
  refine ⟨rfl, mget_minsert .., ?_, fun b hb => ?_⟩
  · rw [getBank_record, getBank_setBank]
    rfl
  · rw [getBank_record, getBank_setBank_ne _ _ _ hb]
    rfl

end RefreshDue

/-! ## Refreshes owed, and those a stack asks for (R318, R327) -/

section Owed
variable {d : Dev} {t k at_ n : Nat}

theorem chan_doPre_owed (b : Nat) : (chan (doPre d t b at_) t).owed = (chan d t).owed := by
  rw [doPre, chan_onChan]
  rfl

theorem refreshRepay_repays (ht : t < 256) (howed : owed (chan d t) k = n + 1) (hreads : readWaits d t k = false)
    (hdue : (chan d t).dueRef.contains k = false) (hburst : inBurst d t = false) :
    if refreshReady d t k at_ then
      owed (chan (refreshRepay d t k at_) t) k = n ∧ (getRank (chan (refreshRepay d t k at_) t) k).busyTo = at_ + (timing d t).rfc
    else owed (chan (refreshRepay d t k at_) t) k = n + 1 := by
  have hopen : (isFar t || owed (chan d t) k = 0 || readWaits d t k || (chan d t).dueRef.contains k || inBurst d t) = false := by
    simp [isFar_of_lt ht, howed, hreads, hdue, hburst, -List.contains_eq_mem]
  unfold refreshRepay
  dsimp only
  rw [hopen, if_neg Bool.false_ne_true]
  split
  · obtain ⟨z, hz⟩ := chan_doRefresh_near (onChan d t fun c => setOwed c k (owed c k - 1)) t k at_ ht
    rw [hz, chan_onChan, howed]
    exact ⟨owed_setOwed .., congrArg Rank.busyTo (getRank_setRank ..)⟩
  · split
    · rw [owed, chan_doPre_owed]
      exact howed
    · exact howed

theorem rfmRequest_stopped (hstopped : scheduleRuns d t 0 = false) : rfmRequest d t k at_ = d := by
  simp [rfmRequest, hstopped]

/-- A far channel with one RFM request, which waits (R318). -/
def asked (d : Dev) (t k at_ : Nat) : Dev := onChan d t fun c => { c with rfm := c.rfm ++ [(k, at_)] }

/-- The request has been taken for its command, and counted. -/
def taken (d : Dev) (t k at_ : Nat) : Dev :=
  rinc (onChan (asked d t k at_) t fun c => { c with rfm := c.rfm.erase (k, at_) }) (tileOff t 0x18C) 1

theorem timing_taken : timing (taken d t k at_) t = timing d t := by
  -- The count of RFM requests is a register of a tile's block, which stands above every register of the timing.
  have hstays {off : Nat} (hoff : off < 0x100000) (hi lo : Nat) : rbits (taken d t k at_) off hi lo = rbits d off hi lo :=
    congrArg (bits · hi lo) (rget_rinc_ne _ _ _ (by unfold tileOff; omega))
  have hbase : (if isFar t then 0xD010 else 0xD000) + 16 < 0x100000 := by split <;> decide
  have hrfc : (if isFar t then 0xC008 else 0xC004) < 0x100000 := by split <;> decide
  unfold timing
  simp only [hstays hrfc]
  repeat rw [hstays (by omega)]

section Rfm
variable (ht : 256 ≤ t) (hk : k < 48) (hrfm : (chan d t).rfm = []) (hruns : scheduleRuns d t 0 = true)
  (hck : d.pins.ck = true) (hpattern : patternRuns d t = false)
include hrfm

theorem chan_asked : chan (asked d t k at_) t = { chan d t with rfm := [(k, at_)] } := by
  rw [asked, chan_onChan, hrfm, List.nil_append]

theorem chan_taken : chan (taken d t k at_) t = { chan d t with rfm := [] } := by
  rw [taken, chan_congr (rinc_tiles ..), chan_onChan, chan_asked hrfm, List.erase_cons_head]

/-- The request's bank is ready: it is the first of the row commands. -/
theorem refreshStep_asked (hready : refreshReady (asked d t k at_) t k at_ = true) : refreshStep (asked d t k at_) t at_ =
    some (doRefresh (taken d t k at_) t k at_) := by
  have hfind : (chan (asked d t k at_) t).rfm.find? (fun r => refreshReady (asked d t k at_) t r.1 at_) = some (k, at_) := by
    rw [chan_asked hrfm, List.find?_cons_of_pos (by exact hready)]
  rw [refreshStep]
  simp only [hfind]
  rfl

include ht hk hruns hck hpattern

theorem rfmRequest_eq : rfmRequest d t k at_ = if refreshReady d t k at_ then
    doRefresh (taken d t k at_) t k at_
    else asked d t k at_ := by
  have hnew : (!isFar t || 48 ≤ k || !scheduleRuns d t 0 || !d.pins.ck || (chan d t).rfm.any (fun r => r.1 = k)) = false := by
    simp [isFar_of_le ht, Nat.not_le.mpr hk, hruns, hck, hrfm]
  have hready : refreshReady (asked d t k at_) t k at_ = refreshReady d t k at_ :=
    refreshReady_onChan d t k at_ (fun _ => rfl) (fun _ => rfl) fun _ => rfl
  have hpat : patternRuns (asked d t k at_) t = false := (patternRuns_onChan ..).trans hpattern
  unfold rfmRequest
  rw [hnew, if_neg Bool.false_ne_true]
  change (if refreshReady (asked d t k at_) t k at_ && !patternRuns (asked d t k at_) t then
    (refreshStep (asked d t k at_) t at_).getD (asked d t k at_) else asked d t k at_) = _
  rw [hpat, Bool.not_false, Bool.and_true, ← hready]
  split
  · rename_i h
    rw [refreshStep_asked hrfm h, Option.getD_some]
  · rfl

/-- An RFM request refreshes its bank at once where it is ready, and waits for it otherwise (R318). -/
theorem rfmRequest_refreshes : if refreshReady d t k at_ then
      (chan (rfmRequest d t k at_) t).rfm = [] ∧ (getBank (chan (rfmRequest d t k at_) t) k).busyTo = at_ + (timing d t).rfc ∧
        counted d (rfmRequest d t k at_) (tileOff t 0x18C) 1
    else (chan (rfmRequest d t k at_) t).rfm = [(k, at_)] ∧ (rfmRequest d t k at_).regs = d.regs := by
  rw [rfmRequest_eq ht hk hrfm hruns hck hpattern]
  split
  · obtain ⟨z, hz⟩ := chan_doRefresh_far (taken d t k at_) t k at_ ht
    rw [hz, chan_taken hrfm, getBank_record, getBank_setBank, timing_taken]
    refine ⟨rfl, rfl, ?_⟩
    rw [counted, rget_congr (doRefresh_regs ..)]
    exact toNat_rget_rinc ..
  · rw [chan_asked hrfm]
    exact ⟨rfl, rfl⟩

end Rfm

end Owed

end Sys2Proof.Machine

section
open Sys2Proof.Machine Sys2Proof.Claims

/-- Settles O34: a due point is that of R319 (`pointFrom_spec`); a near rank's refresh that reaches it is postponed, forced or due at once
(`nearDue_postpones`, `nearDue_forces`, `nearDue_at_once`), a far channel's goes to the bank at the rotor; a refresh owed or asked for is
issued where `refreshReady` holds. -/
theorem refreshFollowsItsDebt : Obligations.RefreshFollowsItsDebt := by
  refine ⟨pointFrom_spec, fun t k at_ s ht hk hruns hat hpattern => ⟨fun hpolicy hserves howed hreads => ?_,
    fun hpolicy hserves howed => ?_, fun h => ?_⟩, fun t k at_ s ht hk _ hruns hat hpattern hfirst hready => ?_,
    fun t k at_ n s ht howed hreads hdue hburst => ?_, fun t b at_ s ht hb hrfm => ⟨fun hstopped => ?_, fun hruns hck hpattern => ?_⟩⟩
  · exact endsDev_of_onDev (f := (refreshDue · t.val k.toNat at_)) rfl (refreshDue_postpones ht hk hruns hat hpolicy hserves howed hreads)
  · exact endsDev_of_onDev (f := (refreshDue · t.val k.toNat at_)) rfl (refreshDue_forces ht hk hruns hat hpolicy hserves howed)
  · exact endsDev_of_onDev (f := (refreshDue · t.val k.toNat at_)) rfl (refreshDue_at_once ht hk hruns hat hpattern h)
  · exact endsDev_of_onDev (f := (refreshDue · t.val k.toNat at_)) rfl (refreshDue_rotates ht hk hruns hat hpattern hfirst hready)
  · exact endsDev_of_onDev (f := (refreshRepay · t.val k.val at_)) rfl (refreshRepay_repays ht howed hreads hdue hburst)
  · exact congrArg (fun d => Host.Outcome.next { s with dev := d }) (rfmRequest_stopped hstopped)
  · exact endsDev_of_onDev (f := (rfmRequest · t.val b.toNat at_)) rfl (rfmRequest_refreshes ht hb hrfm hruns hck hpattern)

end
end

section
/-!
TEMP_POLL and a tile map that breaks R87 (R321, R333). Tile 319 names member 15 of panel 20, and the panels are 0 to 19: `allIdle` speaks
of these alone. `tileAt` still gives tile 319 for member 15 of panel 19, so a poll settles its slice with those of panel 19, and that takes
up what waits in the panel that the tile names. A poll itself touches no slice, and a slice at rest takes nothing up; but a ZERO that waits
in panel 20 goes on there and then.
-/
namespace Sys2Proof.Machine
open Sys2Proof.Claims

/-! ## What settling depends on -/

/-- `e` has the tile map, the panels, the transactions and the Blank map of `d`, and every slice shows the same to `view`. -/
structure SameSeats {β : Type} (view : Slice → β) (d e : Dev) : Prop where
  views  : ∀ k, view (slice e k) = view (slice d k)
  panels : e.panels = d.panels
  txns   : e.txns = d.txns
  blank  : e.blank = d.blank
  map    : ∀ off, 0x4400 ≤ off → off < 0x4C00 → rget e off = rget d off

namespace SameSeats
variable {β : Type} {view : Slice → β} {d e f : Dev}

theorem refl (view : Slice → β) (d : Dev) : SameSeats view d d := ⟨fun _ => rfl, rfl, rfl, rfl, fun _ _ _ => rfl⟩

theorem trans (h : SameSeats view d e) (h' : SameSeats view e f) : SameSeats view d f :=
  ⟨fun k => (h'.views k).trans (h.views k), h'.panels.trans h.panels, h'.txns.trans h.txns, h'.blank.trans h.blank,
    fun off hlo hhi => (h'.map off hlo hhi).trans (h.map off hlo hhi)⟩

theorem foldl {α : Type} {g : Dev → α → Dev} (h : ∀ d a, SameSeats view d (g d a)) (l : List α) (d : Dev) :
    SameSeats view d (l.foldl g d) :=
  List.foldlRecOn (motive := SameSeats view d) l g (.refl view d) fun e he a _ => he.trans (h e a)

theorem ite {c : Prop} [Decidable c] (he : SameSeats view d e) (hf : SameSeats view d f) : SameSeats view d (if c then e else f) := by
  split
  · exact he
  · exact hf

theorem onChan (view : Slice → β) (d : Dev) (t : Nat) (g : Chan → Chan) : SameSeats view d (onChan d t g) :=
  ⟨fun k => congrArg view (slice_onChan d t k g), rfl, rfl, rfl, fun _ _ _ => rfl⟩

theorem onSlice (d : Dev) (t : Nat) {g : Slice → Slice} (h : ∀ s, view (g s) = view s) : SameSeats view d (onSlice d t g) :=
  ⟨view_onSlice d h t, rfl, rfl, rfl, fun _ _ _ => rfl⟩

theorem panelOf (h : SameSeats view d e) {t : Nat} (ht : t < 320) : panelOf e t = panelOf d t :=
  congrArg (bits · 8 4) (h.map _ (by omega) (by omega))

theorem tileAt (h : SameSeats view d e) {p m : Nat} (hp : p < 31) (hm : m < 16) : tileAt e p m = tileAt d p m := by
  have hfind : (List.range 320).find? (fun t => rget e (0x4400 + 4 * t) = BitVec.ofNat 32 (p * 16 + m)) =
      (List.range 320).find? fun t => rget d (0x4400 + 4 * t) = BitVec.ofNat 32 (p * 16 + m) :=
    List.find?_congr fun t ht => by rw [h.map _ (by omega) (by have := List.mem_range.mp ht; omega)]
  unfold Machine.tileAt
  dsimp only
  rw [h.map _ (by omega) (by omega), hfind]

theorem getPanel (h : SameSeats view d e) (p : Nat) : getPanel e p = getPanel d p := getPanel_congr h.panels p

end SameSeats

/-! ## A poll (R321, R328) -/

section Poll
variable (d : Dev)

theorem sameSeats_rset_temp (t : Nat) (v : Word) : SameSeats id d (rset d (tileOff t 0x184) v) :=
  ⟨fun _ => rfl, rfl, rfl, rfl, fun _ _ _ => rget_rset_ne _ _ _ _ (by unfold tileOff; omega)⟩

theorem sameSeats_raiseIf (b : Bool) (e : Nat) : SameSeats id d (raiseIf b d e) :=
  .ite ⟨slice_congr (raise_tiles ..), raise_panels .., raise_txns .., raise_blank .., fun _ _ _ => rget_raise_ne _ _ _ _ _ (by omega)⟩
    (.refl id d)

theorem sameSeats_onLayer (t k : Nat) (g : Layer → Layer) : SameSeats id d (onLayer d t k g) :=
  ⟨fun _ => rfl, rfl, rfl, rfl, fun _ _ _ => rfl⟩

theorem sameSeats_addTasks (t : Nat) (ks : List HemTask) : SameSeats id d (addTasks d t ks) := .onChan id d t _

theorem sameSeats_pollNear (r : Readings) (acc : Dev × Option (BitVec 8)) (t : Nat) : SameSeats id acc.1 (pollNear r acc t).1 := by
  unfold pollNear
  split
  · exact .refl id _
  · extract_lets v d₀ l₀ l₁ off d₁
    have h₀ : SameSeats id acc.1 d₀ := (sameSeats_onLayer acc.1 t 0 _).trans (sameSeats_onLayer _ t 1 _)
    exact (h₀.trans (sameSeats_rset_temp d₀ t _)).trans (sameSeats_addTasks d₁ t _)

theorem sameSeats_pollNears (r : Readings) (v : Option (BitVec 8)) (l : List Nat) : SameSeats id d (l.foldl (pollNear r) (d, v)).1 :=
  List.foldlRecOn (motive := fun acc : Dev × Option (BitVec 8) => SameSeats id d acc.1) l (pollNear r) (SameSeats.refl id d)
    fun acc hacc t _ => hacc.trans (sameSeats_pollNear r acc t)

theorem sameSeats_pollRegion (r : Readings) (g : Nat) : SameSeats id d (pollRegion r d g).1 := by
  unfold pollRegion
  split
  · split
    rename_i d₁ v hnear
    have h := sameSeats_pollNears d r none (List.range 256)
    rwa [hnear] at h
  · split
    · extract_lets v off
      exact (sameSeats_rset_temp d _ _).trans (sameSeats_addTasks ..)
    · exact .refl id d

theorem sameSeats_repayAbove : SameSeats id d (repayAbove d) :=
  .foldl (fun d _ => .foldl (fun d _ => .ite (.onChan ..) (.refl id d)) _ d) _ d

theorem sameSeats_pollOne (r : Readings) (g : Nat) : SameSeats id d (pollOne r d g) := by
  unfold pollOne
  have hregion := sameSeats_pollRegion d r g
  split
  rename_i d1 v alive hpoll
  rw [hpoll] at hregion
  extract_lets h n d2 d3 d4 d5 d6
  have hread : SameSeats id d d2 := hregion.trans ⟨fun _ => rfl, rfl, rfl, rfl, fun _ _ _ => rfl⟩
  have hraised : SameSeats id d d6 := hread.trans ((((sameSeats_raiseIf d2 ..).trans (sameSeats_raiseIf d3 ..)).trans
    (sameSeats_raiseIf d4 ..)).trans (sameSeats_raiseIf d5 ..))
  exact .ite (hraised.trans (sameSeats_repayAbove d6)) hraised

theorem sameSeats_poll (r : Readings) : SameSeats id d (pollAll (pollNow d) r) :=
  have hnow : SameSeats id d (pollNow d) := ⟨fun _ => rfl, rfl, rfl, rfl, fun _ _ _ => rfl⟩
  hnow.trans (SameSeats.foldl (fun d g => sameSeats_pollOne d r g) (List.range 3) (pollNow d))

end Poll

/-! ## A slice at rest (R333) -/

section Rest
variable {d : Dev} {t : Nat}

theorem sameSeats_onSlice_of_eq {g : Slice → Slice} (h : g (slice d t) = slice d t) : SameSeats id d (onSlice d t g) := by
  refine ⟨fun k => ?_, rfl, rfl, rfl, fun _ _ _ => rfl⟩
  by_cases hk : k = t
  · subst hk
    rw [slice_onSlice, h]
  · rw [slice_onSlice_ne _ _ _ _ hk]

theorem sameSeats_sweepDeferred (h : (slice d t).deferred = []) : SameSeats id d (sweepDeferred d t) := by
  unfold sweepDeferred
  refine .ite (.refl id d) ?_
  rw [h]
  refine sameSeats_onSlice_of_eq (g := fun s => { s with deferred := [] }) ?_
  rw [← h]

theorem fillBlank_of_rest (h : ∀ m ∈ (slice d t).miss, m.state ≠ .zero ∧ m.state ≠ .whole) : fillBlank d t = d := by
  unfold fillBlank
  extract_lets mine
  have hnone : (slice d t).miss.filter mine = [] := List.filter_eq_nil_iff.mpr fun m hm => by
    obtain ⟨hzero, hwhole⟩ := h m hm
    unfold mine
    split
    · exact absurd ‹_› hzero
    · exact absurd ‹_› hwhole
    · exact Bool.false_ne_true
  rw [hnone]
  rfl

theorem unstall_of_rest (h : (slice d t).stalled = none) : unstall d t = d := by simp [unstall, h]

theorem sameSeats_pumpHeld (h : (slice d t).held = []) : SameSeats id d (pumpHeld d t) := by
  rw [pumpHeld, h, pumpList]
  refine (sameSeats_onSlice_of_eq (g := fun s => { s with held := [] }) (by rw [← h])).trans (sameSeats_onSlice_of_eq ?_)
  rfl

/-- What settling a slice at rest leaves to do is in its panel. -/
theorem settle_of_rest (h : idleSlice (slice d t)) : ∃ e, SameSeats id d e ∧ settle d t = pumpBolts e (panelOf e t) := by
  obtain ⟨hheld, hstalled, hdeferred, hmiss⟩ := h
  have hsweep := sameSeats_sweepDeferred hdeferred
  have hslice : slice (sweepDeferred d t) t = slice d t := hsweep.views t
  have hfill : fillBlank (sweepDeferred d t) t = sweepDeferred d t := fillBlank_of_rest (by rwa [hslice])
  have hstall : unstall (sweepDeferred d t) t = sweepDeferred d t := unstall_of_rest (by rwa [hslice])
  refine ⟨_, hsweep.trans (sameSeats_pumpHeld (by rwa [hslice])), ?_⟩
  rw [settle, hfill, hstall]

theorem pumpBolts_of_none {p : Nat} (h : (getPanel d p).boltOps = []) : pumpBolts d p = d := by
  rw [pumpBolts, h]
  rfl

end Rest

/-! ## The ZERO of panel 20 (R182, R350) -/

/-- The bolt that the ZERO clears. -/
def strayBolt : Nat := stripeBolt Reset.dev ⟨0, 2, 5, 0, 0⟩

/-- The ZERO of that bolt, which every member of panel 20 has granted. -/
def strayZero : BoltOp := ⟨0, strayBolt, true, .none, ⟨20, 2, 5, 0, 0⟩, 4, List.range 16, []⟩

/-- A device whose hems have been trained, with tile 319 in panel 20, which holds that ZERO; the tile's slice holds the bolt's lines for
it. -/
def strayDev : Dev :=
  { Reset.dev with
      pins := { Reset.pins with rstAsserted := false, rstPin := false, pllCore := true, ready := true, ck := true }
      boot := { Reset.dev.boot with trainDone := true }
      regs := [(0x4400 + 4 * 319, 16 * 20 + 15)]
      tiles := [(319, { Reset.tile with slice := { Reset.slice with zeroing := [strayBolt] } })]
      panels := [(20, { Reset.panel with boltOps := [strayZero] })] }

def strayState : State := { State.reset with dev := strayDev }

theorem strayDev_allIdle : allIdle strayDev := by decide +kernel

/-- Tile 319 alone is settled and names panel 20. -/
theorem strayDev_seats : ∀ p, p < 20 → ∀ m, m < 16 → tileAt strayDev p m < 320 ∧
    (panelOf strayDev (tileAt strayDev p m) = 20 → p = 19 ∧ m = 15) := by decide +kernel

theorem strayDev_last : tileAt strayDev 19 15 = 319 ∧ panelOf strayDev 319 = 20 ∧ tileAt strayDev 20 15 = 319 := by decide +kernel

theorem mget_singleton_ne {α : Type} {j k : Nat} (h : j ≠ k) (a : α) : mget [(k, a)] j = none := if_neg (Ne.symm h)

theorem strayDev_boltOps {p : Nat} (hp : p ≠ 20) : (getPanel strayDev p).boltOps = [] := by
  have hnone : mget strayDev.panels p = none := mget_singleton_ne hp _
  rw [getPanel, mgetD, hnone]
  rfl

/-- No slice holds a part back. -/
theorem strayDev_idleSlice (t : Nat) : idleSlice (slice strayDev t) := by
  by_cases ht : t = 319
  · subst ht
    decide +kernel
  · have hnone : mget strayDev.tiles t = none := mget_singleton_ne ht _
    rw [slice, getTile, mgetD, hnone]
    decide +kernel

/-! ### A member's part of a ZERO -/

section Member
variable (o : BoltOp) (d : Dev) (m : Nat)

theorem sameSeats_putWay (l : Loc) (w : Nat) (x : Way) : SameSeats Slice.zeroing d (putWay d l w x) :=
  .onSlice (g := fun s => setSet s (setIndex l) (setWay (getSet s (setIndex l)) w x)) d l.tile fun _ => rfl

theorem sameSeats_invalidate (l : Loc) : SameSeats Slice.zeroing d (invalidate d l) := by
  unfold invalidate
  split
  · exact sameSeats_putWay d l _ _
  · exact .refl _ d

theorem sameSeats_cancelBolt (bolt t : Nat) : SameSeats Slice.zeroing d (cancelBolt bolt d t) := by
  unfold cancelBolt
  extract_lets mine d₁
  exact (SameSeats.onChan _ d t _).trans (.foldl (fun d x => .onChan _ d x _) _ d₁)

/-- A member that applies a ZERO takes its lines off those that its slice holds for the bolt, and leaves the other slices'. -/
theorem zeroMember_eq : ∃ e, SameSeats Slice.zeroing d e ∧ zeroMember o d m = releaseBolt e (tileAt d o.stripe.panel m) o.bolt := by
  refine ⟨_, .trans (.foldl (fun d l => ?_) (plyLocs d o.stripe m) d) (sameSeats_cancelBolt ..), rfl⟩
  exact (sameSeats_invalidate d l).trans ⟨fun _ => rfl, rfl, rfl, rfl, fun _ _ _ => rfl⟩

theorem sameSeats_releaseBolt (t bolt : Nat) : SameSeats (fun _ => ()) d (releaseBolt d t bolt) := .onSlice d t fun _ => rfl

end Member

theorem SameSeats.forget {β : Type} {view : Slice → β} {d e : Dev} (h : SameSeats view d e) : SameSeats (fun _ => ()) d e :=
  ⟨fun _ => rfl, h.panels, h.txns, h.blank, h.map⟩

/-! ### What has waited goes on -/

section Stray
variable {d : Dev}

/-- Tile 319 holds the lines of the stray bolt at most once. -/
def HoldsOnce (d : Dev) : Prop := (slice d 319).zeroing.erase strayBolt = []

theorem HoldsOnce.zeroMember (h : HoldsOnce d) (m : Nat) : HoldsOnce (zeroMember strayZero d m) := by
  obtain ⟨e, he, heq⟩ := zeroMember_eq strayZero d m
  have hzeroing : (slice e 319).zeroing = (slice d 319).zeroing := he.views 319
  rw [HoldsOnce, heq, releaseBolt]
  by_cases ht : tileAt d strayZero.stripe.panel m = 319
  · rw [ht, slice_onSlice, hzeroing]
    exact (congrArg (List.erase · strayBolt) h).trans (List.erase_nil _)
  · rw [slice_onSlice_ne _ _ _ _ (Ne.symm ht), hzeroing]
    exact h

theorem sameSeats_zeroMember (m : Nat) : SameSeats (fun _ => ()) d (zeroMember strayZero d m) := by
  obtain ⟨e, he, heq⟩ := zeroMember_eq strayZero d m
  rw [heq]
  exact he.forget.trans (sameSeats_releaseBolt ..)

/-- Member 15 of panel 20 is tile 319: it is done with the bolt. -/
theorem zeroing_last (h : HoldsOnce d) (hlast : tileAt d 20 15 = 319) : (slice (zeroMember strayZero d 15) 319).zeroing = [] := by
  obtain ⟨e, he, heq⟩ := zeroMember_eq strayZero d 15
  have hzeroing : (slice e 319).zeroing = (slice d 319).zeroing := he.views 319
  have hat : tileAt d strayZero.stripe.panel 15 = 319 := hlast
  rw [heq, hat, releaseBolt, slice_onSlice]
  exact (congrArg (List.erase · strayBolt) hzeroing).trans h

theorem foldl_range_sixteen {α : Type} (f : α → Nat → α) (a : α) : (List.range 16).foldl f a = f ((List.range 15).foldl f a) 15 := by
  rw [List.range_succ, List.foldl_append]
  rfl

/-- What a ZERO of the stray bolt does to its members, once it has left its panel and the Blank map. -/
def strayCleared (d : Dev) : Dev :=
  (List.range 16).foldl (zeroMember strayZero) (setBlank (removeBoltOp d strayZero) strayBolt)

section Finish
variable (h : SameSeats id strayDev d)
include h

theorem getPanel_stray : getPanel d 20 = { Reset.panel with boltOps := [strayZero] } := h.getPanel 20

theorem strayZero_goes_on : (decide (strayZero.granted.length < 16) || overtaken d strayZero ||
    (panelTiles d strayZero.stripe.panel).any (applying d strayZero)) = false := by
  have hfirst : overtaken d strayZero = false := by
    rw [overtaken, show strayZero.stripe.panel = 20 from rfl, getPanel_stray h]
    rfl
  have happlies (t : Nat) : applying d strayZero t = false := by
    have hslice : slice d t = slice strayDev t := h.views t
    obtain ⟨hheld, hstalled, -, -⟩ := strayDev_idleSlice t
    simp [applying, hslice, hheld, hstalled]
  rw [hfirst, List.any_eq_false.mpr fun t _ => Bool.eq_false_iff.mp (happlies t)]
  rfl

theorem blankLook_stray : blankLook (removeBoltOp d strayZero) strayBolt = removeBoltOp d strayZero := by
  have herrs : (removeBoltOp d strayZero).blank = Reset.blank := h.blank
  unfold blankLook
  rw [herrs]
  rfl

theorem strayCleared_rest : (getPanel (strayCleared d) 20).jobs = [] ∧ getTxn (strayCleared d) 0 = none ∧
    (slice (strayCleared d) 319).zeroing = [] := by
  have hseats (l : List Nat) (e : Dev) : SameSeats (fun _ => ()) e (l.foldl (zeroMember strayZero) e) :=
    .foldl (fun e m => sameSeats_zeroMember (d := e) m) l e
  have hall := hseats (List.range 16) (setBlank (removeBoltOp d strayZero) strayBolt)
  refine ⟨?_, ?_, ?_⟩
  · have hpanel : getPanel (removeBoltOp d strayZero) 20 = _ := getPanel_setPanel ..
    rw [strayCleared, hall.getPanel]
    refine (congrArg Panel.jobs hpanel).trans ?_
    rw [show strayZero.stripe.panel = 20 from rfl, getPanel_stray h]
    rfl
  · rw [strayCleared, getTxn, hall.txns]
    exact congrArg (mget · 0) h.txns
  · rw [strayCleared, foldl_range_sixteen]
    refine zeroing_last ?_ ?_
    · refine List.foldlRecOn (motive := HoldsOnce) _ _ ?_ fun e he m _ => he.zeroMember m
      have hslice : slice (setBlank (removeBoltOp d strayZero) strayBolt) 319 = slice strayDev 319 := h.views 319
      rw [HoldsOnce, hslice]
      exact List.erase_cons_head ..
    · rw [(hseats ..).tileAt (by decide) (by decide)]
      exact (h.tileAt (by decide) (by decide)).trans strayDev_last.2.2

/-- The ZERO of panel 20 takes effect, in whatever device has the seats of `strayDev`. -/
theorem zeroing_finishBolt : (slice (finishBolt d strayZero) 319).zeroing = [] := by
  obtain ⟨hjobs, htxn, hzeroing⟩ := strayCleared_rest h
  have hblank : blankJobs (strayCleared d) strayZero.stripe = strayCleared d := by
    have hjobs' : (getPanel (strayCleared d) strayZero.stripe.panel).jobs = [] := hjobs
    simp only [blankJobs, hjobs', List.foldl_nil]
  have hdone (m : Nat) : partDone (strayCleared d) strayZero.txn m none false = strayCleared d := by
    have htxn' : getTxn (strayCleared d) strayZero.txn = none := htxn
    simp only [partDone, htxn']
  have heq : finishBolt d strayZero = (List.range 16).foldl (fun e m => partDone e strayZero.txn m none false)
      (blankJobs (strayCleared d) strayZero.stripe) := by
    rw [finishBolt, strayZero_goes_on h, if_neg Bool.false_ne_true, if_pos (show strayZero.zero = true from rfl),
      show strayZero.bolt = strayBolt from rfl, blankLook_stray h]
    rfl
  rw [heq, hblank, List.foldl_fixed' (f := fun e m => partDone e strayZero.txn m none false) hdone, hzeroing]

end Finish

/-! ### The poll settles tile 319 last -/

theorem pumpBolts_stray (h : SameSeats id strayDev d) {p : Nat} (hp : p ≠ 20) : pumpBolts d p = d :=
  pumpBolts_of_none ((congrArg Panel.boltOps (h.getPanel p)).trans (strayDev_boltOps hp))

theorem settle_stray (h : SameSeats id strayDev d) {t : Nat} (ht : t < 320) :
    ∃ e, SameSeats id strayDev e ∧ settle d t = pumpBolts e (panelOf strayDev t) := by
  have hslice : slice d t = slice strayDev t := h.views t
  obtain ⟨e, he, heq⟩ := settle_of_rest (d := d) (t := t) (by rw [hslice]; exact strayDev_idleSlice t)
  exact ⟨e, h.trans he, by rw [heq, (h.trans he).panelOf ht]⟩

/-- Any other tile of panels 0 to 19 takes nothing up. -/
theorem sameSeats_settle_stray (h : SameSeats id strayDev d) {p m : Nat} (hp : p < 20) (hm : m < 16) (hother : ¬(p = 19 ∧ m = 15)) :
    SameSeats id strayDev (settle d (tileAt strayDev p m)) := by
  obtain ⟨ht, hpanel⟩ := strayDev_seats p hp m hm
  obtain ⟨e, he, heq⟩ := settle_stray h ht
  rw [heq, pumpBolts_stray he fun h20 => hother (hpanel h20)]
  exact he

theorem panelTiles_stray (h : SameSeats id strayDev d) {p : Nat} (hp : p < 20) : panelTiles d p = panelTiles strayDev p :=
  List.map_congr_left fun _ hm => h.tileAt (by omega) (List.mem_range.mp hm)

theorem sameSeats_settlePanel_stray (h : SameSeats id strayDev d) {p : Nat} (hp : p < 19) :
    SameSeats id strayDev (settlePanel d p) := by
  rw [settlePanel, pumpBolts_stray h (by omega), panelTiles_stray h (by omega), panelTiles, List.foldl_map]
  exact List.foldlRecOn (motive := SameSeats id strayDev) _ _ h fun e he m hm =>
    sameSeats_settle_stray he (by omega) (List.mem_range.mp hm) (by omega)

theorem zeroing_settlePanel_last (h : SameSeats id strayDev d) : (slice (settlePanel d 19) 319).zeroing = [] := by
  obtain ⟨htile, hpanel, -⟩ := strayDev_last
  rw [settlePanel, pumpBolts_stray h (by decide), panelTiles_stray h (by decide), panelTiles, List.foldl_map, foldl_range_sixteen, htile]
  have hinit : SameSeats id strayDev ((List.range 15).foldl (fun e m => settle e (tileAt strayDev 19 m)) d) :=
    List.foldlRecOn (motive := SameSeats id strayDev) _ _ h fun e he m hm => by
      have hm := List.mem_range.mp hm
      exact sameSeats_settle_stray he (by decide) (by omega) (by omega)
  obtain ⟨e, he, heq⟩ := settle_stray hinit (t := 319) (by decide)
  rw [heq, hpanel, pumpBolts, getPanel_stray he]
  exact zeroing_finishBolt he

end Stray

/-- After a poll, whatever it reads, the slice of tile 319 holds nothing for the bolt. -/
theorem zeroing_tempPoll (r : Readings) : (slice (tempPoll strayDev r) 319).zeroing = [] := by
  have hdue : (!strayDev.boot.trainDone || !pollDue strayDev) = false := rfl
  have hbefore : SameSeats id strayDev ((List.range 19).foldl settlePanel (pollAll (pollNow strayDev) r)) :=
    List.foldlRecOn (motive := SameSeats id strayDev) _ _ (sameSeats_poll strayDev r) fun e he p hp =>
      sameSeats_settlePanel_stray he (List.mem_range.mp hp)
  rw [tempPoll, hdue, if_neg Bool.false_ne_true, List.range_succ, List.foldl_append, List.foldl_cons, List.foldl_nil]
  exact zeroing_settlePanel_last hbefore

end Sys2Proof.Machine

section
open Sys2Proof Sys2Proof.Machine Sys2Proof.Claims

/-- Refutes O35: its last clause, that no slice changes, does not ask that the tiles be `seated`. In `strayDev` the panels that `allIdle`
speaks of are idle, but tile 319 names panel 20, and the poll, which settles that tile too, lets the ZERO go on that waits there: the slice
of tile 319 gives up what it holds for the bolt. -/
theorem not_tempPollUpdatesItsRegion : ¬ Obligations.TempPollUpdatesItsRegion := by
  rintro ⟨-, hpoll⟩
  obtain ⟨d, hexec, v, -, -, -, -, -, -, -, -, -, -, -, -, hslices⟩ :=
    hpoll ⟨[], none, none, 0, 0, 0⟩ 0 strayState rfl rfl strayDev_allIdle
  have hd : tempPoll strayDev ⟨[], none, none, 0, 0, 0⟩ = d := dev_eq_of_next hexec
  have hcontra : [] = [strayBolt] :=
    calc []
      _ = (slice d 319).zeroing := by rw [← hd, zeroing_tempPoll]
      _ = (slice strayDev 319).zeroing := congrArg Slice.zeroing (hslices 319 (by decide))
      _ = [strayBolt] := rfl
  exact absurd hcontra (List.cons_ne_nil _ _).symm

end
end

section
/-!
What a step can do to the queue and to the fuses. A command's meaning is framed (`framed_exec`), WARM_START alone can stop, and
FUSE_PROG alone reaches the fuses, which it blows and never clears.
-/
namespace Sys2Proof.Machine
open Sys2Proof.Claims

/-! ## Stops (R480) -/

/-- Every command but WARM_START answers a next state. -/
theorem exec_answers {c : Instr} (hwarm : ∀ o, c ≠ .warmStart o) (s : State) : ∃ t, exec c s = .next t := by
  cases c with
  | warmStart o => exact absurd rfl (hwarm o)
  | _ => exact ⟨_, rfl⟩

/-- A command that answers leaves the waiting commands alone. -/
theorem pending_of_exec {c : Instr} {s t : State} (h : exec c s = .next t) : t.pending = s.pending := by
  by_cases hfuse : ∃ w v, c = .fuseProg w v
  · obtain ⟨w, v, rfl⟩ := hfuse
    cases h
    rfl
  · obtain ⟨m, d, hnext, -⟩ | ⟨r, hfault⟩ := framed_exec (c := c) (s := s) fun w v h => hfuse ⟨w, v, h⟩
    · rw [hnext] at h
      cases h
      rfl
    · rw [hfault] at h
      cases h

/-- WARM_START answers a next state, or it stops where a start may run that R480 does not allow to be a warm one. -/
theorem warmStart_answers_or_stops (o : StartOutcome) (s : State) : (∃ t, exec (.warmStart o) s = .next t) ∨
    (mayStart s.dev true = true ∧ s.dev.boot.warmOk = false ∧ exec (.warmStart o) s = .fault .warmUndefined) := by
  simp only [exec, execWarmStart]
  by_cases hstart : mayStart s.dev true = true
  · by_cases hok : s.dev.boot.warmOk = true
    · exact .inl ⟨_, by simp only [hstart, hok, onMem, Bool.not_true, Bool.false_eq_true, if_false]; rfl⟩
    · exact .inr ⟨hstart, by simpa using hok, by simp [hstart, hok]⟩
  · exact .inl ⟨s, by simp [hstart]⟩

/-! ## Fuses (R485) -/

/-- Fuses `g` may follow fuses `f`: no blown one clears, and MIN_SEQ does not fall. -/
structure FusesRise (f g : Fuses) : Prop where
  minSeq : f.minSeq ≤ g.minSeq
  revoke : f.revoke &&& g.revoke = f.revoke
  debug : f.debug = true → g.debug = true
  uid : f.uid &&& g.uid = f.uid
  length : g.keys.length = f.keys.length
  keys : ∀ k, f.keys.getD k 0 &&& g.keys.getD k 0 = f.keys.getD k 0

theorem and_or_self_left {n : Nat} (a b : BitVec n) : a &&& (a ||| b) = a := by
  ext i hi
  cases h : a[i] <;> simp [h]

theorem and_eq_left_trans {n : Nat} {a b c : BitVec n} (hab : a &&& b = a) (hbc : b &&& c = b) : a &&& c = a := by
  calc a &&& c
    _ = a &&& b &&& c := by rw [hab]
    _ = a &&& b := by rw [BitVec.and_assoc, hbc]
    _ = a := hab

theorem FusesRise.refl (f : Fuses) : FusesRise f f :=
  ⟨le_rfl, BitVec.and_self, id, BitVec.and_self, rfl, fun _ => BitVec.and_self⟩

theorem FusesRise.trans {f g h : Fuses} (hfg : FusesRise f g) (hgh : FusesRise g h) : FusesRise f h where
  minSeq := hfg.minSeq.trans hgh.minSeq
  revoke := and_eq_left_trans hfg.revoke hgh.revoke
  debug := hgh.debug ∘ hfg.debug
  uid := and_eq_left_trans hfg.uid hgh.uid
  length := hgh.length.trans hfg.length
  keys k := and_eq_left_trans (hfg.keys k) (hgh.keys k)

/-- A key slot after FUSE_PROG of another, or of the same. -/
theorem getD_set_or (keys : List (BitVec 384)) (i k : Nat) (v : BitVec 384) :
    keys.getD k 0 &&& (keys.set i (keys.getD i 0 ||| v)).getD k 0 = keys.getD k 0 := by
  by_cases hik : i = k
  · subst hik
    by_cases hlen : i < keys.length
    · simp [List.getD, hlen, and_or_self_left]
    · simp [List.getD, hlen]
  · simp [List.getD, hik]

theorem fusesRise_blow (f : Fuses) (w : Nat) (v : BitVec 384) : FusesRise f (blow f w v) := by
  have hf := FusesRise.refl f
  unfold blow
  split
  · exact { hf with revoke := and_or_self_left .. }
  · exact { hf with minSeq := le_max_left .. }
  · exact { hf with debug := fun h => by simp [h] }
  · exact { hf with uid := and_or_self_left .. }
  · split
    · exact { hf with length := List.length_set, keys := fun k => getD_set_or f.keys _ k v }
    · exact hf

theorem fusesRise_exec {c : Instr} {s t : State} (h : exec c s = .next t) : FusesRise s.fuses t.fuses := by
  by_cases hfuse : ∃ w v, c = .fuseProg w v
  · obtain ⟨w, v, rfl⟩ := hfuse
    cases h
    exact fusesRise_blow s.fuses w.val v
  · rw [(onlyNamedCommandsTouchMemoryAndFuses c s t h).2 fun w v hc => hfuse ⟨w, v, hc⟩]
    exact .refl _

theorem fusesRise_step {s t : State} (h : step s = .next t) : FusesRise s.fuses t.fuses := by
  unfold step at h
  split at h
  · cases h
    exact .refl _
  · rename_i c rest _
    exact fusesRise_exec (s := { s with pending := rest }) h

/-- A run of n + 1 steps that ends is a step and a run of n. -/
theorem run_succ (M : Host.Core) {n : Nat} {s t : M.State} (h : M.run (n + 1) s = .next t) :
    ∃ u, M.step s = .next u ∧ M.run n u = .next t := by
  rw [Host.Core.run] at h
  split at h
  · rename_i u hstep
    exact ⟨u, hstep, h⟩
  · cases h
  · cases h

theorem fusesRise_run {n : Nat} {s t : State} (h : core.run n s = .next t) : FusesRise s.fuses t.fuses := by
  induction n generalizing s with
  | zero =>
    cases h
    exact .refl _
  | succ n ih =>
    obtain ⟨u, hstep, hrest⟩ := run_succ core h
    exact (fusesRise_step hstep).trans (ih hrest)

end Sys2Proof.Machine

section
open Sys2Proof Sys2Proof.Machine

/-- Settles O1: a step takes the front command by definition. -/
theorem stepRunsFrontCommand : Obligations.StepRunsFrontCommand := fun _ _ _ => rfl

/-- Settles O2: WARM_START alone can stop; a command that answers is framed, or is FUSE_PROG. -/
theorem onlyTheUndefinedWarmStartStops : Obligations.OnlyTheUndefinedWarmStartStops := by
  intro c s
  by_cases hwarm : ∃ o, c = .warmStart o
  · obtain ⟨o, rfl⟩ := hwarm
    obtain ⟨t, h⟩ | hstop := warmStart_answers_or_stops o s
    · exact .inl ⟨t, h, pending_of_exec h⟩
    · exact .inr ⟨o, rfl, hstop⟩
  · obtain ⟨t, h⟩ := exec_answers (fun o hc => hwarm ⟨o, hc⟩) s
    exact .inl ⟨t, h, pending_of_exec h⟩

/-- Settles O6, by induction on the run: FUSE_PROG alone changes a fuse, and what it blows stays blown. -/
theorem fusesOnlyRiseOverRuns : Obligations.FusesOnlyRiseOverRuns := by
  intro n s t hrun
  obtain ⟨hseq, hrevoke, hdebug, huid, hlength, hkeys⟩ := fusesRise_run hrun
  exact ⟨hseq, hrevoke, hdebug, huid, hlength, hkeys⟩

end
end

section
/-!
Every operation on the memory of lines keeps its canonical form. The form is that of the lines put, made undefined or selected
(`wf_memPut`, `wf_merase`, `wf_filter`), so each function of the model keeps it by the shape in which it uses these three.
-/
namespace Sys2Proof.Machine
open Sys2Proof.Claims

section Canonical
variable {m : SMap DLine} {d : Dev} {t at_ : Nat}

theorem wf_nil : Memory.wf ([] : SMap DLine) = true := rfl

/-- The memory of a pair, stated apart: the kernel then need not compare what stands beside it. -/
theorem wf_fst_fst (h : Memory.wf m = true) (d : Dev) (b : Bool) : Memory.wf (((m, d), b) : (SMap DLine × Dev) × Bool).1.1 = true := h

theorem wf_ite {c : Prop} [Decidable c] {a b : SMap DLine × Dev} (ha : Memory.wf a.1 = true) (hb : Memory.wf b.1 = true) :
    Memory.wf (if c then a else b).1 = true := by
  split
  · exact ha
  · exact hb

/-- Repetition of what keeps the form keeps it. -/
theorem wf_foldl {α : Type} {f : SMap DLine × Dev → α → SMap DLine × Dev}
    (hf : ∀ s a, Memory.wf s.1 = true → Memory.wf (f s a).1 = true) (l : List α) {s : SMap DLine × Dev} (h : Memory.wf s.1 = true) :
    Memory.wf (l.foldl f s).1 = true :=
  List.foldlRecOn (motive := fun s => Memory.wf s.1 = true) l f h fun s hs a _ => hf s a hs

theorem wf_foldl_lines {α : Type} {f : SMap DLine → α → SMap DLine} (hf : ∀ m a, Memory.wf m = true → Memory.wf (f m a) = true)
    (l : List α) (h : Memory.wf m = true) : Memory.wf (l.foldl f m) = true :=
  List.foldlRecOn (motive := fun m => Memory.wf m = true) l f h fun m hm a _ => hf m a hm

/-! ## Column commands and returns -/

theorem wf_memSet (h : Memory.wf m = true) (k : Nat) (x : Option DLine) : Memory.wf (memSet m k x) = true := by
  cases x with
  | some x => exact wf_memPut h k x
  | none => exact wf_merase h k

theorem wf_writeCmd (h : Memory.wf m = true) (e : HEntry) : Memory.wf (writeCmd m d t at_ e).1 = true := by
  simp only [writeCmd]
  split
  · exact wf_memPut h ..
  · exact h

theorem wf_columnCommand (h : Memory.wf m = true) : Memory.wf (columnCommand m d t at_).1 = true := by
  unfold columnCommand
  split
  · exact h
  split
  · exact h
  unfold columnDrain
  dsimp only
  split
  · split <;> exact h
  · split
    · dsimp only [issueWr]
      exact wf_writeCmd h _
    · exact h
  · exact h

theorem wf_deltaWrite (h : Memory.wf m = true) (o : Owner) (x : DLine) : Memory.wf (deltaWrite m d t o x).1 = true := by
  unfold deltaWrite
  split
  · split
    · exact wf_memPut h ..
    · exact h
  · exact h

theorem wf_lineReturn (h : Memory.wf m = true) (fd : LineData) (fm : BitVec 32) (e0 e1 : Ecc) :
    Memory.wf (lineReturn m d t fd fm e0 e1).1 = true := by
  unfold lineReturn
  split
  · split <;> dsimp only <;> split <;> dsimp only <;> exact wf_deltaWrite h ..
  · exact h

/-! ## Freezes (R272, R273) -/

theorem wf_redoWrite {a : Alert} (s : SMap DLine × Dev) (w : Wrote) (h : Memory.wf s.1 = true) :
    Memory.wf (redoWrite t a s w).1 = true := by
  unfold redoWrite
  split
  · dsimp only
    split
    · exact wf_memSet h ..
    · exact h
  · dsimp only
    split
    · exact h
    · exact wf_memSet h ..

theorem wf_freezeMem (h : Memory.wf m = true) (a : Alert) : Memory.wf (freezeMem m d t a).1 = true :=
  wf_foldl wf_redoWrite _ (wf_foldl_lines (fun _ _ h => wf_merase h _) _ (wf_foldl_lines (fun _ _ h => wf_memSet h ..) _ h))

theorem wf_tileFreeze (h : Memory.wf m = true) : Memory.wf (tileFreeze m d t).1 = true := by
  unfold tileFreeze
  split
  · exact h
  · dsimp only
    exact wf_freezeMem h _

/-! ## Starts (R496) -/

theorem wf_startWrite (slow : Bool) (bolt : Nat) (e : Loc × DLine) {s : SMap DLine × Dev} (h : Memory.wf s.1 = true) :
    Memory.wf (startWrite slow bolt s e).1 = true :=
  wf_writeCmd h _

theorem wf_ledgerWrite (t o n v : Nat) (s : SMap DLine × Dev) (h : Memory.wf s.1 = true) :
    Memory.wf (ledgerWrite t o n v s).1 = true := by
  unfold ledgerWrite
  refine wf_foldl (fun s i hs => wf_foldl (fun s c hs => ?_) _ hs) _ h
  exact wf_startWrite false noBolt _ hs

theorem wf_coldLedger (s : SMap DLine × Dev) (h : Memory.wf s.1 = true) : Memory.wf (coldLedger s).1 = true := by
  unfold coldLedger
  refine wf_foldl (fun s t hs => wf_ledgerWrite _ _ _ _ _ (wf_ledgerWrite _ _ _ _ _ (wf_ledgerWrite _ _ _ _ _ ?_))) _ h
  unfold writeRest
  exact wf_foldl (fun _ _ hs => wf_ledgerWrite _ _ _ _ _ hs) _ hs

theorem wf_coldStart (h : Memory.wf m = true) (o : StartOutcome) : Memory.wf (coldStart m d o).1 = true := by
  unfold coldStart
  split
  · exact h
  split
  dsimp only
  split
  · exact wf_nil
  split
  · exact wf_nil
  · dsimp only
    exact wf_coldLedger _ wf_nil

/-- A section that is written again only where it was not good. -/
theorem wf_ledgerWrite_if (c : Prop) [Decidable c] (t o n v : Nat) (s : SMap DLine × Dev) (h : Memory.wf s.1 = true) :
    Memory.wf (if c then ledgerWrite t o n v s else s).1 = true := by
  split
  · exact wf_ledgerWrite t o n v s h
  · exact h

theorem wf_warmLedger (orderly : Bool) (epoch : Nat) (s : SMap DLine × Dev) (r : Restored) (h : Memory.wf s.1 = true) :
    Memory.wf (warmLedger orderly epoch s r).1 = true :=
  wf_ledgerWrite _ _ _ _ _ (wf_ledgerWrite_if _ _ _ _ _ _ (wf_ledgerWrite_if _ _ _ _ _ _ (wf_ledgerWrite_if _ _ _ _ _ _ h)))

theorem wf_warmStart (h : Memory.wf m = true) (o : StartOutcome) : Memory.wf (warmStart m d o).1 = true := by
  unfold warmStart
  dsimp only
  split
  · exact h
  · dsimp only
    exact wf_foldl (fun s r hs => wf_warmLedger _ _ s r hs) _ h

/-! ## Warm entries (R501, R504) -/

theorem wf_finishDeltas (s : SMap DLine × Dev) (t : Nat) (h : Memory.wf s.1 = true) : Memory.wf (finishDeltas s t).1 = true := by
  unfold finishDeltas
  simp only
  refine wf_foldl_lines (fun m e hm => ?_) _ h
  split
  · split
    · exact wf_memPut hm ..
    · exact wf_merase hm _
  · exact wf_merase hm _

theorem wf_warmCmd (h : Memory.wf m = true) (v : Word) : Memory.wf (warmCmd m d v).1.1 = true := by
  have hfinish : Memory.wf ((List.range 320).foldl finishDeltas (m, beginEntry d)).1 = true := wf_foldl wf_finishDeltas _ h
  unfold warmCmd
  generalize (List.range 320).foldl finishDeltas (m, beginEntry d) = r at hfinish ⊢
  extract_lets reject
  split
  · exact h
  · split <;> exact h
  · split
    · exact h
    · exact wf_fst_fst hfinish _ _
  · exact h

theorem wf_saveLedger {s : SMap DLine × Dev} (h : Memory.wf s.1 = true) : Memory.wf (saveLedger s).1 = true := by
  unfold saveLedger
  exact wf_filter h _

theorem wf_entryStep (h : Memory.wf m = true) : Memory.wf (entryStep m d).1 = true := by
  by_cases hquiesce : d.boot.warmState = 1
  · rw [entryStep_quiesce d hquiesce]
    exact wf_ite h h
  · unfold entryStep
    split
    · exact absurd ‹_› hquiesce
    · exact wf_ite (wf_saveLedger h) h
    all_goals exact h

theorem wf_tick {s : State} (h : Memory.wf s.dram = true) : Memory.wf (tick s).dram = true := by
  unfold tick tickDev
  dsimp only
  split
  · exact h
  · dsimp only
    exact wf_entryStep h

/-! ## Write accesses -/

/-- A command register reaches the memory through `warmCmd` alone. -/
theorem wf_regCmd (h : Memory.wf m = true) {off : Nat} {v : Word} {r : (SMap DLine × Dev) × Bool} (hr : regCmd m d off v = some r) :
    Memory.wf r.1.1 = true := by
  by_cases hoff : off = 0x1018
  · subst hoff
    injection hr with hr
    subst hr
    exact wf_warmCmd h v
  · rw [regCmd_memory m d (fun hn => absurd hn hoff) hr]
    exact h

theorem wf_hostWrite (h : Memory.wf m = true) (off : Nat) (v : Word) : Memory.wf (hostWrite m d off v).1.1 = true := by
  unfold hostWrite
  split
  · rename_i m1 d1 ok hr
    exact wf_regCmd (r := ((m1, d1), ok)) h hr
  · exact h

theorem wf_writeAccess_host (h : Memory.wf m = true) (off : Nat) (v : Word) : Memory.wf (writeAccess m d .host off v).1.1 = true := by
  unfold writeAccess
  dsimp only
  split
  · exact h
  split
  · split
    · split <;> exact h
    · exact h
  · exact wf_hostWrite h off v

theorem wf_portWrite (h : Memory.wf m = true) (off : Nat) (v : Word) : Memory.wf (portWrite m d off v).1 = true := by
  unfold portWrite
  split
  · exact h
  split
  · exact h
  · exact wf_writeAccess_host h off v

theorem wf_mergedWrite (h : Memory.wf m = true) (off : Nat) (hv mv : Word) : Memory.wf (mergedWrite m d off hv mv).1.1 = true := by
  unfold mergedWrite
  dsimp only
  split
  · exact h
  split
  · exact h
  · exact wf_hostWrite h off hv

theorem wf_writeBy (h : Memory.wf m = true) (off : Nat) (w : WriteBy) : Memory.wf (writeBy m d off w).1 = true := by
  cases w with
  | host v => exact wf_portWrite h off v
  | manager v =>
    change Memory.wf (managerWrite m d off v).1.1 = true
    rw [managerWrite_memory]
    exact h
  | both hv mv =>
    simp only [writeBy]
    split
    · exact h
    split
    · exact h
    · exact wf_mergedWrite h off hv mv

theorem wf_writeMet (h : Memory.wf m = true) (off : Nat) (w : WriteBy) (met : List PortErr) :
    Memory.wf (writeMet m d off w met).1 = true := by
  unfold writeMet
  split
  · exact wf_writeBy h off w
  · exact wf_writeBy h off w

theorem wf_rawAccess (f : Fuses) (h : Memory.wf m = true) (write : Bool) (addr : BitVec 22) (v : Word) (par : Bool) :
    Memory.wf (rawAccess f m d write addr v par).1 = true := by
  unfold rawAccess
  split
  · exact h
  split
  · exact h
  split
  · exact wf_portWrite h ..
  · exact h

/-! ## Resets -/

theorem wf_resetAssert (h : Memory.wf m = true) : Memory.wf (resetAssert m d).1 = true := by
  unfold resetAssert
  split
  · exact h
  · dsimp only
    split
    · exact h
    · exact wf_nil

theorem wf_enterTest (h : Memory.wf m = true) (code : BitVec 4) : Memory.wf (enterTest m d code).1 = true := by
  unfold enterTest
  dsimp only
  split
  · exact h
  · exact wf_nil

end Canonical

/-! ## Commands and steps -/

theorem wf_of_onMem {s t : State} (f : SMap DLine → Dev → SMap DLine × Dev) (h : onMem s f = .next t)
    (hf : Memory.wf (f s.dram s.dev).1 = true) : Memory.wf t.dram = true := by
  cases h
  exact hf

theorem wf_exec {c : Instr} {s t : State} (h : Memory.wf s.dram = true) (hexec : exec c s = .next t) : Memory.wf t.dram = true := by
  by_cases hc : touchesMemory c = true
  · cases c with
    | columnCommandIssue t at_ => exact wf_of_onMem (fun m d => columnCommand m d t.val at_) hexec (wf_columnCommand h)
    | lineReadReturn t fd fm e0 e1 => exact wf_of_onMem (fun m d => lineReturn m d t.val fd fm e0 e1) hexec (wf_lineReturn h ..)
    | tileFreeze t => exact wf_of_onMem (fun m d => tileFreeze m d t.val) hexec (wf_tileFreeze h)
    | resetAssert => exact wf_of_onMem resetAssert hexec (wf_resetAssert h)
    | memReset asserted =>
      cases asserted with
      | true => exact wf_of_onMem (fun m d => memReset m d true) hexec wf_nil
      | false => cases hc
    | coldStart o => exact wf_of_onMem (fun m d => coldStart m d o) hexec (wf_coldStart h o)
    | warmStart o =>
      simp only [exec, execWarmStart] at hexec
      split at hexec
      · cases hexec
        exact h
      split at hexec
      · cases hexec
      · exact wf_of_onMem (fun m d => warmStart m d o) hexec (wf_warmStart h o)
    | disorderlyEntry => exact wf_of_onMem (fun m d => portWrite m d 0x1018 0x80000000) hexec (wf_portWrite h ..)
    | wsExtest => exact wf_of_onMem (fun m d => enterTest m d 1) hexec (wf_enterTest h 1)
    | wsIntest => exact wf_of_onMem (fun m d => enterTest m d 2) hexec (wf_enterTest h 2)
    | memTest => exact wf_of_onMem (fun m d => enterTest m d 3) hexec (wf_enterTest h 3)
    | fuseProg w v =>
      cases hexec
      exact wf_enterTest h 5
    | registerWrite off w => exact wf_of_onMem (fun m d => writeMet m d off.toNat w.by_ w.met) hexec (wf_writeMet h ..)
    | splitLoWrite a off v => exact wf_of_onMem (fun m d => writeBy m d off.toNat (writeOf a v)) hexec (wf_writeBy h ..)
    | splitHiWrite a off v => exact wf_of_onMem (fun m d => writeBy m d off.toNat (writeOf a v)) hexec (wf_writeBy h ..)
    | ycpErr w a v par => exact wf_of_onMem (fun m d => rawAccess s.fuses m d w a v par) hexec (wf_rawAccess s.fuses h ..)
    | _ => cases hc
  · rw [(onlyNamedCommandsTouchMemoryAndFuses c s t hexec).1 (Bool.eq_false_iff.mpr hc)]
    exact h
end Sys2Proof.Machine

section
open Sys2Proof Sys2Proof.Machine

/-- Settles O4: a command that touches the memory puts lines, makes lines undefined or selects lines, all of which keep the form
(`wf_exec`); so does a TCLK of a warm entry (`wf_tick`). -/
theorem everyStepKeepsMemoryCanonical : Obligations.EveryStepKeepsMemoryCanonical := by
  intro s t h hstep
  unfold step at hstep
  split at hstep
  · cases hstep
    exact wf_tick h
  · rename_i c rest _
    exact wf_exec (s := { s with pending := rest }) h hstep

end
end

section
/-!
Resets and the test wrapper. The logic of the instance goes back to its reset values; the ranks that a reset finds in self-refresh
alone survive it, and none does where the memory itself is reset (R140, R478 to R480, R541).
-/
namespace Sys2Proof.Machine
open Sys2Proof.Claims

/-! ## Ranks out of self-refresh -/

/-- What a map reads as has a property that its entries and its default have. -/
theorem mgetD_of_forall {α : Type} {P : α → Prop} {a : α} {m : SMap α} (ha : P a) (hm : ∀ e ∈ m, P e.2) (k : Nat) : P (mgetD a m k) := by
  unfold mgetD
  cases h : mget m k with
  | none => exact ha
  | some b => exact hm (k, b) (mem_of_mget h)

/-- A tile none of whose ranks is in self-refresh. -/
def AwakeTile (x : Tile) : Prop := ∀ k, (getRank x.chan k).selfRefresh = false

theorem awakeTile_wakeAll (d : Dev) : ∀ e ∈ (wakeAll d).tiles, AwakeTile e.2 := by
  intro e he k
  simp only [wakeAll, List.mem_filter, List.mem_map] at he
  obtain ⟨⟨x, -, rfl⟩, -⟩ := he
  refine mgetD_of_forall (P := fun r : Rank => r.selfRefresh = false) rfl (fun r hr => ?_) k
  simp only [List.mem_filter, List.mem_map] at hr
  obtain ⟨⟨r, -, rfl⟩, -⟩ := hr
  rfl

/-- Where no rank of a tile is in self-refresh, none of the instance is. -/
theorem rank_awake {d : Dev} (h : ∀ e ∈ d.tiles, AwakeTile e.2) (t k : Nat) : (getRank (chan d t) k).selfRefresh = false :=
  mgetD_of_forall (P := AwakeTile) (fun _ => rfl) h t k

/-! ## The commands -/

theorem resetAssert_asserts (m : SMap DLine) {d : Dev} (h : d.pins.rstPin = false) :
    resetAssert m d = (if isAsleep d then m else [], resetLogic d) := by
  simp [resetAssert, h]

/-- The release of reset in which a start-up begins: the straps are taken, and both links train (R456, R498). -/
theorem resetDeassert_starts {d : Dev} (inst mgr : BitVec 2) (hpin : d.pins.rstPin = true) (htest : d.pins.testMode = false)
    (htaint : d.pins.testTainted = false) :
    let e := resetDeassert d inst mgr
    e.pins = { d.pins with rstPin := false, rstAsserted := false, pllCore := true, pllSeam := true, pllFar := true } ∧
    e.boot = { d.boot with inst := inst, mgr := mgr } ∧ (getLink e 0).state = .training ∧ (getLink e 1).state = .training := by
  simp only [resetDeassert, hpin, htest, htaint, Bool.not_true, Bool.or_self, Bool.false_eq_true, if_false]
  refine ⟨by simp [onBoot, onPins, htest, htaint], by simp [onBoot, onPins], ?_, ?_⟩
  · rw [getLink_setLink_ne _ _ _ _ (by decide), getLink_setLink]
  · rw [getLink_setLink]

/-- The entry into test mode is a reset of the logic that no memory line outlives; the pin stays as it is (R541). -/
theorem enterTest_resets (m : SMap DLine) {d : Dev} (h : d.pins.testMode = false) (code : BitVec 4) :
    ∃ e, enterTest m d code = ([], e) ∧ e.pins.rstAsserted = true ∧ e.pins.ready = false ∧ e.pins.rstPin = d.pins.rstPin ∧
      e.boot.warmOk = false ∧ (∀ t k, (getRank (chan e t) k).selfRefresh = false) ∧ ∀ off, rget e off = regReset off := by
  refine ⟨(enterTest m d code).2, by simp [enterTest, h], ?_⟩
  simp only [enterTest, h, Bool.false_eq_true, if_false]
  exact ⟨rfl, rfl, rfl, rfl, rank_awake (awakeTile_wakeAll _), rget_eq_regReset_of_regs_nil rfl⟩

theorem enterTest_pins (m : SMap DLine) (d : Dev) (code : BitVec 4) :
    (enterTest m d code).2.pins.wrapper = code ∧ (enterTest m d code).2.pins.testMode = true ∧
      (enterTest m d code).2.pins.testTainted = true := by
  unfold enterTest
  dsimp only
  split <;> exact ⟨rfl, rfl, rfl⟩

/-- What an instruction with test mode leaves, whatever it does to the fuses (R541). -/
theorem testMode_entered (s : State) (f : Fuses) (code : BitVec 4) :
    let u : State := { s with fuses := f, dram := (enterTest s.dram s.dev code).1, dev := (enterTest s.dram s.dev code).2 }
    u.dev.pins.wrapper = code ∧ u.dev.pins.testMode = true ∧ u.dev.pins.testTainted = true ∧ u.fuses = f ∧
    (s.dev.pins.testMode = false → u.dram = [] ∧ u.dev.pins.rstAsserted = true ∧ u.dev.pins.ready = false ∧
      u.dev.pins.rstPin = s.dev.pins.rstPin ∧ u.dev.boot.warmOk = false ∧
      (∀ t k, (getRank (chan u.dev t) k).selfRefresh = false) ∧ ∀ off, rget u.dev off = regReset off) := by
  obtain ⟨hwrapper, htest, htaint⟩ := enterTest_pins s.dram s.dev code
  refine ⟨hwrapper, htest, htaint, rfl, fun hplain => ?_⟩
  obtain ⟨e, heq, he⟩ := enterTest_resets s.dram hplain code
  rw [heq]
  exact ⟨rfl, he⟩

/-- FUSE_PROG of a key slot writes that slot. -/
theorem blow_key (f : Fuses) {w : Nat} (hw : w < 4) (v : BitVec 384) :
    (blow f w v).keys = f.keys.set w (f.keys.getD w 0 ||| v) := by
  obtain rfl | rfl | rfl | rfl : w = 0 ∨ w = 1 ∨ w = 2 ∨ w = 3 := by omega
  all_goals rfl

end Sys2Proof.Machine

section
open Sys2Proof Sys2Proof.Machine

/-- Settles O53: an instruction without test mode is `selectBypass` or FUSE_READ by definition; one with it is a reset of the logic that
the first alone performs (`enterTest_resets`), and FUSE_PROG is one more whose fuses are those of `blow`. -/
theorem wrapperSelectsItsInstruction : Obligations.WrapperSelectsItsInstruction := by
  refine ⟨fun c s hc => ?_, fun s => ⟨_, rfl, rfl⟩, fun c code s hc => ?_, fun w v s hkeys => ?_⟩
  · have hbit : bit (Config.freeChoice s.dev.free) ≤ 1 := by unfold bit; split <;> decide
    obtain rfl | rfl := hc <;> exact ⟨_, rfl, _, hbit, rfl⟩
  · obtain ⟨rfl, rfl⟩ | ⟨rfl, rfl⟩ | ⟨rfl, rfl⟩ := hc <;> exact ⟨_, rfl, testMode_entered s s.fuses _⟩
  · obtain ⟨hwrapper, htest, -⟩ := testMode_entered s (blow s.fuses w.val v) 5
    refine ⟨_, rfl, hwrapper, htest, fun hw => ?_, ?_, ?_, ?_, ?_⟩
    · have hslot : w.val < s.fuses.keys.length := by omega
      change (blow s.fuses w.val v).keys.getD w.val 0 = _
      rw [blow_key s.fuses hw, List.getD, List.getElem?_set_self hslot, Option.getD_some]
    all_goals
      rintro rfl
      rfl

/-- Settles O50. RESET_ASSERT and MEM_RESET are the reset of the logic and the waking of every rank by definition; the release of
reset is `resetDeassert_starts`. -/
theorem resetsStartAfresh : Obligations.ResetsStartAfresh := by
  refine ⟨fun s hpin => ?_, fun inst mgr s hpin htest htaint => ?_, fun s => ?_, fun s => rfl⟩
  · refine ⟨{ s with dram := if isAsleep s.dev then s.dram else [], dev := resetLogic s.dev }, ?_, ?_⟩
    · simp only [exec, execResetAssert, onMem, resetAssert_asserts s.dram hpin]
    exact ⟨rfl, rfl, rfl, rget_eq_regReset_of_regs_nil rfl, rfl, rfl, rfl, rfl, rfl, rfl, rfl, rfl, fun _ _ => rfl, rfl⟩
  · obtain ⟨hpins, hboot, hlink0, hlink1⟩ := resetDeassert_starts inst mgr hpin htest htaint
    refine ⟨resetDeassert s.dev inst mgr, rfl, ?_⟩
    dsimp only
    rw [hpins, hboot]
    exact ⟨rfl, rfl, rfl, rfl, rfl, hlink0, hlink1⟩
  · exact ⟨_, rfl, rfl, rank_awake (awakeTile_wakeAll _), rfl, rfl⟩

end
end

section
/-!
The line check and the parity line. CRC-32C is linear: a flipped message bit adds to the code what that bit alone leaves in the
register, which is neither nothing nor every bit, so the line is neither GOOD nor a stain (R335, R337, R341). The XOR of lines has no
order, so what is missing from the sum that the parity line holds is what the others leave (R336, R340).
-/
namespace Sys2Proof.Machine

/-! ## The CRC register (R335) -/

/-- The register after n message bits. -/
def crcRun (f : Nat → Nat) (n : Nat) : Nat := (List.range n).foldl (fun c i => crcBit c (f i)) 0xFFFFFFFF

theorem crcRun_succ (f : Nat → Nat) (n : Nat) : crcRun f (n + 1) = crcBit (crcRun f n) (f n) := by
  simp [crcRun, List.range_succ]

theorem crcRun_congr {f g : Nat → Nat} {n : Nat} (h : ∀ j, j < n → f j = g j) : crcRun f n = crcRun g n := by
  induction n with
  | zero => rfl
  | succ n ih => rw [crcRun_succ, crcRun_succ, ih fun j hj => h j (by omega), h n (by omega)]

/-- One step of the register: it shifts, and the polynomial joins where the bit that leaves differs from the message bit. -/
theorem crcBit_eq (c b : Nat) (hb : b < 2) : crcBit c b = if c % 2 = b then c / 2 else c / 2 ^^^ 0x82F63B78 := by
  change (if c % 2 ^^^ b = 1 then c / 2 ^^^ 0x82F63B78 else c / 2) = _
  obtain hc | hc : c % 2 = 0 ∨ c % 2 = 1 := by omega
  all_goals
    obtain rfl | rfl : b = 0 ∨ b = 1 := by omega
    all_goals simp [hc]

/-- The register takes a bit and a difference apart. -/
theorem crcBit_xor (c e b : Nat) (hb : b < 2) : crcBit (c ^^^ e) b = crcBit c b ^^^ crcBit e 0 := by
  have hdiv : (c ^^^ e) / 2 = c / 2 ^^^ e / 2 := Nat.xor_div_two
  have hmod : (c ^^^ e) % 2 = (c + e) % 2 := Nat.xor_mod_two_eq
  rw [crcBit_eq _ _ hb, crcBit_eq _ _ hb, crcBit_eq _ _ (by decide), hdiv, hmod]
  by_cases hc : c % 2 = b
  · by_cases he : e % 2 = 0
    · rw [if_pos hc, if_pos he, if_pos (by omega)]
    · rw [if_pos hc, if_neg he, if_neg (by omega), Nat.xor_assoc]
  · by_cases he : e % 2 = 0
    · rw [if_neg hc, if_pos he, if_neg (by omega), Nat.xor_assoc, Nat.xor_assoc, Nat.xor_comm (e / 2)]
    · rw [if_neg hc, if_neg he, if_pos (by omega), Nat.xor_comm (e / 2), Nat.xor_assoc, ← Nat.xor_assoc 0x82F63B78,
        Nat.xor_self, Nat.zero_xor]

/-- The other message bit adds the polynomial. -/
theorem crcBit_flip (c b : Nat) (hb : b < 2) : crcBit c (1 - b) = crcBit c b ^^^ 0x82F63B78 := by
  rw [crcBit_eq _ _ hb, crcBit_eq _ _ (by omega)]
  by_cases hc : c % 2 = b
  · rw [if_pos hc, if_neg (by omega)]
  · rw [if_neg hc, if_pos (by omega), Nat.xor_assoc, Nat.xor_self, Nat.xor_zero]

/-- What a flipped bit has become in the register k bits later. -/
def crcError : Nat → Nat
  | 0 => 0x82F63B78
  | k + 1 => crcBit (crcError k) 0

theorem crcRun_flipped {f g : Nat → Nat} {i : Nat} (hf : ∀ j, f j < 2) (hi : g i = 1 - f i) (hne : ∀ j, j ≠ i → g j = f j) (k : Nat) :
    crcRun g (i + 1 + k) = crcRun f (i + 1 + k) ^^^ crcError k := by
  induction k with
  | zero => rw [Nat.add_zero, crcRun_succ, crcRun_succ, crcRun_congr fun j hj => hne j (by omega), hi, crcBit_flip _ _ (hf i)]; rfl
  | succ k ih => rw [← Nat.add_assoc, crcRun_succ, crcRun_succ, ih, hne _ (by omega), crcBit_xor _ _ _ (hf _)]; rfl

/-- Over n steps the difference is neither nothing nor every bit. -/
def staysProper : Nat → Nat → Bool
  | 0, _ => true
  | n + 1, e => decide (0 < e ∧ e < 0xFFFFFFFF) && staysProper n (crcBit e 0)

theorem proper_of_staysProper {n j k : Nat} (h : staysProper n (crcError j) = true) (hk : k < n) :
    0 < crcError (j + k) ∧ crcError (j + k) < 0xFFFFFFFF := by
  induction n generalizing j k with
  | zero => exact absurd hk (Nat.not_lt_zero k)
  | succ n ih =>
    obtain ⟨hnow, hlater⟩ := Bool.and_eq_true_iff.mp h
    cases k with
    | zero => exact of_decide_eq_true hnow
    | succ k =>
      have hj : j + (k + 1) = j + 1 + k := by omega
      rw [hj]
      exact ih (j := j + 1) hlater (by omega)

/-- 64 bits of location follow the 512 of data. -/
theorem staysProper_data : staysProper 512 (crcError 64) = true := by decide +kernel

/-! ## The code of a line -/

/-- The message bits of a line at its location. -/
def lineBit (l : Loc) (x : LineData) (j : Nat) : Nat := (x.toNat + locWord l * 2 ^ 512) >>> j % 2

theorem lineCode_eq (l : Loc) (x : LineData) : lineCode l x = BitVec.ofNat 32 (crcRun (lineBit l x) 576 ^^^ 0xFFFFFFFF) := rfl

theorem lineBit_eq (l : Loc) (x : LineData) (j : Nat) :
    lineBit l x j = if j < 512 then (x.getLsbD j).toNat else (locWord l).testBit (j - 512) |>.toNat := by
  have hbit : lineBit l x j = ((2 ^ 512 * locWord l + x.toNat).testBit j).toNat := by
    rw [lineBit, Nat.add_comm, Nat.mul_comm, Nat.toNat_testBit, Nat.shiftRight_eq_div_pow]
  rw [hbit, Nat.testBit_two_pow_mul_add _ x.isLt]
  split <;> rfl

theorem lineCode_flipped (l : Loc) (x : LineData) {i : Nat} (hi : i < 512) :
    lineCode l (x ^^^ BitVec.twoPow 512 i) = lineCode l x ^^^ BitVec.ofNat 32 (crcError (64 + (511 - i))) := by
  have hbit (j : Nat) : lineBit l x j < 2 := Nat.mod_lt _ (by decide)
  have hflip : lineBit l (x ^^^ BitVec.twoPow 512 i) i = 1 - lineBit l x i := by
    rw [lineBit_eq, lineBit_eq, if_pos hi, if_pos hi, BitVec.getLsbD_xor, BitVec.getLsbD_twoPow]
    cases x.getLsbD i <;> simp [hi]
  have hrest (j : Nat) (hj : j ≠ i) : lineBit l (x ^^^ BitVec.twoPow 512 i) j = lineBit l x j := by
    rw [lineBit_eq, lineBit_eq, BitVec.getLsbD_xor, BitVec.getLsbD_twoPow]
    simp [Ne.symm hj]
  have hrun := crcRun_flipped hbit hflip hrest (64 + (511 - i))
  rw [show i + 1 + (64 + (511 - i)) = 576 by omega] at hrun
  rw [lineCode_eq, lineCode_eq, hrun, Nat.xor_assoc, Nat.xor_comm (crcError _), ← Nat.xor_assoc, BitVec.ofNat_xor]

/-! ## The check (R337) -/

/-- A line whose code differs from its own in some bits but not in all is neither GOOD nor a stain. -/
theorem checkLine_fail {l : Loc} {x : DLine} {e : BitVec 32} (hcode : x.code = lineCode l x.data ^^^ e)
    (he : 0 < e.toNat ∧ e.toNat < 0xFFFFFFFF) : checkLine l x false = .fail := by
  have hself : lineCode l x.data ^^^ x.code = e := by rw [hcode, ← BitVec.xor_assoc, BitVec.xor_self, BitVec.zero_xor]
  have hgood : x.code ≠ lineCode l x.data := by
    intro h
    have hzero : e.toNat = 0 := by rw [← hself, h, BitVec.xor_self]; rfl
    omega
  have hstain : x.code ≠ ~~~(lineCode l x.data) := by
    intro h
    have hones : e.toNat = 0xFFFFFFFF := by
      rw [← hself, h, ← BitVec.xor_allOnes, ← BitVec.xor_assoc, BitVec.xor_self, BitVec.zero_xor]
      rfl
    omega
  simp [checkLine, hgood, hstain]

theorem checkLine_coded (l : Loc) (x : LineData) : checkLine l (coded l x) false = .good := by
  simp [checkLine, coded]

theorem checkLine_stainAt (l : Loc) : checkLine l (stainAt l) false = .stain := by
  simp [checkLine, stainAt]

theorem checkLine_uncorrected (l : Loc) (x : DLine) : checkLine l x true = .fail := by
  simp [checkLine]

/-! ## Parity (R336) -/

theorem xorLine_zero (a : DLine) : xorLine a ⟨0, 0⟩ = a := by simp [xorLine]

theorem xorLine_comm (a b : DLine) : xorLine a b = xorLine b a := by
  simp only [xorLine, BitVec.xor_comm]

theorem xorLine_assoc (a b c : DLine) : xorLine (xorLine a b) c = xorLine a (xorLine b c) := by
  simp only [xorLine, BitVec.xor_assoc]

theorem xorLine_self (a : DLine) : xorLine a a = ⟨0, 0⟩ := by simp [xorLine]

theorem xorLine_right_comm (a b c : DLine) : xorLine (xorLine a b) c = xorLine (xorLine a c) b := by
  rw [xorLine_assoc, xorLine_comm b, ← xorLine_assoc]

theorem xorLines_perm {l k : List DLine} (h : l.Perm k) : xorLines l = xorLines k :=
  h.foldl_eq' (fun a _ b _ z => xorLine_right_comm z a b) _

theorem xorLines_append_singleton (l : List DLine) (x : DLine) : xorLines (l ++ [x]) = xorLine (xorLines l) x := by
  simp [xorLines]

end Sys2Proof.Machine

section
open Sys2Proof Sys2Proof.Machine

/-- Settles O31: a flipped data bit adds to the code what it leaves in the CRC register, a flipped code bit adds itself, and neither is
nothing or every bit (`checkLine_fail`). -/
theorem oneFlippedBitFailsTheLine : Obligations.OneFlippedBitFailsTheLine := by
  intro l x
  refine ⟨checkLine_coded l x, checkLine_stainAt l, checkLine_uncorrected l, fun i hi => ?_, fun i hi => ?_⟩
  · obtain ⟨hpos, hlt⟩ := proper_of_staysProper staysProper_data (k := 511 - i) (by omega)
    refine checkLine_fail (e := BitVec.ofNat 32 (crcError (64 + (511 - i)))) ?_ ?_
    · rw [lineCode_flipped l x hi, BitVec.xor_assoc, BitVec.xor_self, BitVec.xor_zero]
      rfl
    · rw [BitVec.toNat_ofNat]
      omega
  · have hpow : 2 ^ i ≤ 2 ^ 31 := Nat.pow_le_pow_right (by decide) (by omega)
    refine checkLine_fail (e := BitVec.twoPow 32 i) rfl ?_
    rw [BitVec.toNat_twoPow_of_lt hi]
    exact ⟨Nat.two_pow_pos i, by omega⟩

/-- Settles O32: the sum of the others is the parity line's without the missing line, whatever their order. -/
theorem parityRebuildsTheMissingLine : Obligations.ParityRebuildsTheMissingLine := by
  intro pre post others x hperm
  have hall : xorLines (pre ++ x :: post) = xorLine (xorLines (pre ++ post)) x := by
    rw [← xorLines_append_singleton]
    exact xorLines_perm (by simpa using List.perm_middle.trans (List.perm_append_singleton x (pre ++ post)).symm)
  calc xorLines others
    _ = xorLine (xorLines (pre ++ post)) (xorLines (pre ++ x :: post)) := by
      rw [xorLines_perm hperm, xorLines_append_singleton]
    _ = x := by rw [hall, ← xorLine_assoc, xorLine_self, xorLine_comm, xorLine_zero]

end
end

section
/-!
Host writes of the command registers, and the accesses that the port answers with an error (R529, R530, R533, R534, R538).
-/
namespace Sys2Proof.Machine
open Sys2Proof.Claims

/-! ## The host's write of a register outside the pairs (R530) -/

/-- The register is in no 64-bit pair. -/
structure Unpaired (off : Nat) : Prop where
  low  : isPairLow off = false
  high : isPairHigh off = false

theorem unpaired_tileOff (t x : Nat) : Unpaired (tileOff t x) := by
  have hoff : tileOff t x = 0x100000 + 0x1000 * t + x := rfl
  constructor
  · by_contra h
    have := pairLows_lt _ (by simpa [isPairLow] using h)
    omega
  · by_contra h
    obtain ⟨-, hm⟩ : 4 ≤ tileOff t x ∧ tileOff t x - 4 ∈ pairLows := by simpa [isPairHigh] using h
    have := pairLows_lt _ hm
    omega

/-- The device as a host write finds it: what the port has held of a pair is given up (R37). -/
abbrev atPort (d : Dev) : Dev := setHold d .host none

@[simp] theorem rget_setHold (d : Dev) (a : Agent) (h : Option (Nat × Word)) (k : Nat) : rget (setHold d a h) k = rget d k := rfl

theorem portWrite_unpaired {d : Dev} {off : Nat} (hs : hostServed d off) (hoff : Unpaired off) (m : SMap DLine) (v : Word) :
    portWrite m d off v =
      ((hostWrite m (atPort d) off v).1.1, answerWrite (hostWrite m (atPort d) off v).1.2 (hostWrite m (atPort d) off v).2) := by
  obtain ⟨hpin, hserved⟩ := hs
  have hlow : isWritablePair off = false := by rw [isWritablePair, hoff.low, Bool.false_and]
  have hhigh : (decide (4 ≤ off) && isWritablePair (off - 4)) = false := by
    have := hoff.high
    rw [isPairHigh] at this
    rw [isWritablePair, isPairLow, ← Bool.and_assoc, this, Bool.false_and]
  simp [portWrite, hpin, hserved, writeAccess, hlow, hhigh, writeSingle]

/-- What the port leaves of a command: its answer, and the record of one that is ignored (R534). -/
def commandEnd (d : Dev) (ok : Bool) (off : Nat) (v : Word) : Dev :=
  answerWrite (if ok || isHemCmd off v then d else logIgnored d off v) ok

theorem portWrite_command {d d1 : Dev} {off : Nat} {ok : Bool} (hs : hostServed d off) (hoff : Unpaired off) {m : SMap DLine} {v : Word}
    (hcmd : regCmd m (atPort d) off v = some ((m, d1), ok)) : portWrite m d off v = (m, commandEnd d1 ok off v) := by
  rw [portWrite_unpaired hs hoff, hostWrite, hcmd]
  rfl

/-- A write of a register that is no command stores what its fields and triggers take. -/
theorem portWrite_field {d : Dev} {off : Nat} (hs : hostServed d off) (hoff : Unpaired off) {m : SMap DLine} {v : Word}
    (hcmd : regCmd m (atPort d) off v = none) :
    portWrite m d off v = (m, answerWrite (fieldWrite (atPort d) off v).1 (fieldWrite (atPort d) off v).2) := by
  rw [portWrite_unpaired hs hoff, hostWrite, hcmd]

/-- A command that is a host write ends in what the write leaves of the device. -/
theorem ends_hostWrite {c : Instr} {s : State} {off : Nat} {v : Word} {d : Dev} {P : Dev → Prop}
    (hc : exec c s = hostCmd off v s) (hw : portWrite s.dram s.dev off v = (s.dram, d)) (hP : P d) : EndsDev c s P := by
  refine ⟨d, ?_, hP⟩
  rw [hc, hostCmd, onMem, hw]

/-- A command that is a host write of a command register. -/
theorem ends_command {c : Instr} {s : State} {off : Nat} {v : Word} {d1 : Dev} {ok : Bool} {P : Dev → Prop}
    (hc : exec c s = hostCmd off v s) (hs : hostServed s.dev off) (hoff : Unpaired off)
    (hcmd : regCmd s.dram (atPort s.dev) off v = some ((s.dram, d1), ok)) (hP : P (commandEnd d1 ok off v)) : EndsDev c s P :=
  ends_hostWrite hc (portWrite_command hs hoff hcmd) hP

/-- A command that is a host write of a register that holds fields. -/
theorem ends_field {c : Instr} {s : State} {off : Nat} {v : Word} {P : Dev → Prop}
    (hc : exec c s = hostCmd off v s) (hs : hostServed s.dev off) (hoff : Unpaired off)
    (hcmd : regCmd s.dram (atPort s.dev) off v = none)
    (hP : P (answerWrite (fieldWrite (atPort s.dev) off v).1 (fieldWrite (atPort s.dev) off v).2)) : EndsDev c s P :=
  ends_hostWrite hc (portWrite_field hs hoff hcmd) hP

theorem commandEnd_taken (d : Dev) (off : Nat) (v : Word) : commandEnd d true off v = answerWrite d true := rfl
theorem commandEnd_ignored {off : Nat} {v : Word} (h : isHemCmd off v = false) (d : Dev) :
    commandEnd d false off v = answerWrite (logIgnored d off v) false := by simp [commandEnd, h]
theorem commandEnd_hemCmd {off : Nat} {v : Word} (h : isHemCmd off v = true) (d : Dev) (ok : Bool) :
    commandEnd d ok off v = answerWrite d ok := by simp [commandEnd, h]

@[simp] theorem rget_answerWrite (d : Dev) (ok : Bool) (k : Nat) : rget (answerWrite d ok) k = rget d k := rfl

/-! ## Error responses (R529, R533, R538) -/

/-- DLI_YCP_ERR takes a record while its VALID is 0 (R538). -/
def capturedErr (d : Dev) (w : Word) : Dev := if (rget d 0x30).getLsbD 31 then d else rset d 0x30 w

theorem rget_capturedErr_ne (d : Dev) (w : Word) {off : Nat} (hoff : off ≠ 0x30) : rget (capturedErr d w) off = rget d off := by
  rw [capturedErr]
  split
  · rfl
  · exact rget_rset_ne _ _ _ _ hoff

theorem rget_capturedErr (d : Dev) (w : Word) :
    rget (capturedErr d w) 0x30 = if (rget d 0x30).getLsbD 31 then rget d 0x30 else w := by
  rw [capturedErr]
  split
  · rfl
  · rw [rget_rset]

/-- The record of a PARITY (1) or NOT_READY (2) response. -/
def errRecord (kind : Nat) (w : Bool) (a : Nat) : Word := BitVec.ofNat 32 (2 ^ 31 + bit w * 2 ^ 30 + kind * 2 ^ 28 + a * 4)

theorem answerErr_eq (d : Dev) (kind : Nat) (w : Bool) (a : Nat) :
    answerErr d kind w a = answer (rinc (capturedErr d (errRecord kind w a)) 0x34 1) (if kind = 1 then 3 else 2) 0 := rfl

theorem rget_answerErr_capture (d : Dev) (kind : Nat) (w : Bool) (a : Nat) :
    rget (answerErr d kind w a) 0x30 = if (rget d 0x30).getLsbD 31 then rget d 0x30 else errRecord kind w a := by
  rw [answerErr_eq, rget_answer, rget_rinc_ne _ _ _ (by decide), rget_capturedErr]

theorem answerErr_counts (d : Dev) (kind : Nat) (w : Bool) (a : Nat) : counted d (answerErr d kind w a) 0x34 1 := by
  rw [counted, answerErr_eq, rget_answer, toNat_rget_rinc, rget_capturedErr_ne _ _ (by decide)]

theorem rget_answerErr_ne (d : Dev) (kind : Nat) (w : Bool) (a : Nat) {off : Nat} (hcapture : off ≠ 0x30) (hcount : off ≠ 0x34) :
    rget (answerErr d kind w a) off = rget d off := by
  rw [answerErr_eq, rget_answer, rget_rinc_ne _ _ _ hcount, rget_capturedErr_ne _ _ hcapture]

/-- An error response leaves every unit but the port and its two registers. -/
theorem answerErr_units (d : Dev) (kind : Nat) (w : Bool) (a : Nat) :
    (answerErr d kind w a).lint = d.lint ∧ (answerErr d kind w a).tiles = d.tiles ∧ (answerErr d kind w a).boot = d.boot := by
  rw [answerErr_eq]
  generalize hc : capturedErr d (errRecord kind w a) = c
  obtain ⟨hlint, htiles, hboot⟩ : c.lint = d.lint ∧ c.tiles = d.tiles ∧ c.boot = d.boot := by
    rw [← hc, capturedErr]
    split
    · exact ⟨rfl, rfl, rfl⟩
    · exact ⟨rset_lint .., rset_tiles .., rset_boot ..⟩
  exact ⟨(rinc_lint c 0x34 1).trans hlint, (rinc_tiles c 0x34 1).trans htiles, (rinc_boot c 0x34 1).trans hboot⟩

/-- PARITY and NOT_READY, with the parity bit that makes the ones of the response even. -/
theorem answerErr_response (d : Dev) {kind : Nat} (hkind : kind = 1 ∨ kind = 2) (w : Bool) (a : Nat) :
    (answerErr d kind w a).ycp.rsp = some (if kind = 1 then 3 else 2, 0) ∧ (answerErr d kind w a).ycp.par = decide (kind = 2) := by
  obtain rfl | rfl := hkind
  · exact ⟨rfl, rfl⟩
  · exact ⟨rfl, rfl⟩

/-- An access with odd parity while it is checked, or one to a block that is not served, is answered with its error alone. -/
theorem rawAccess_error (f : Fuses) (m : SMap DLine) {d : Dev} {w : Bool} {a : BitVec 22} {v : Word} {par : Bool}
    (hpin : d.pins.rstPin = false)
    (h : ((rget d 0x14).getLsbD 31 = true ∧ oddOnes w a v par = true) ∨ served d (a.toNat * 4) = false) :
    rawAccess f m d w a v par =
      (m, answerErr d (if (rget d 0x14).getLsbD 31 && oddOnes w a v par then 1 else 2) w a.toNat) := by
  rw [rawAccess, if_neg (Bool.not_eq_true _ ▸ hpin)]
  by_cases hodd : ((rget d 0x14).getLsbD 31 && oddOnes w a v par) = true
  · rw [if_pos hodd, if_pos hodd]
  · have hserved : served d (a.toNat * 4) = false := h.resolve_left fun ⟨hcheck, hones⟩ => hodd (by rw [hcheck, hones]; rfl)
    rw [if_neg hodd, if_neg hodd]
    cases w with
    | true => simp [hpin, portWrite, hserved]
    | false => simp [hpin, readBy, hserved]

end Sys2Proof.Machine

section
open Sys2Proof Sys2Proof.Machine

/-- Settles O60: PARITY and NOT_READY are the error response of the access, and nothing else. -/
theorem ycpErrorsDoNotAct : Obligations.YcpErrorsDoNotAct := by
  intro w a v par s hpin k herr
  have hk : k = 1 ∨ k = 2 := by
    change (if _ then 1 else 2) = 1 ∨ (if _ then 1 else 2) = 2
    split
    · exact .inl rfl
    · exact .inr rfl
  obtain ⟨hrsp, hpar⟩ := answerErr_response s.dev hk w a.toNat
  obtain ⟨hlint, htiles, hboot⟩ := answerErr_units s.dev k w a.toNat
  refine ⟨answerErr s.dev k w a.toNat, ?_, hrsp, hpar, answerErr_counts .., rget_answerErr_capture ..,
    fun off h30 h34 => rget_answerErr_ne _ _ _ _ h30 h34, hlint, htiles, hboot⟩
  change onMem s (fun m d => rawAccess s.fuses m d w a v par) = _
  rw [onMem, rawAccess_error _ _ hpin herr]

end
end

section
/-!
The Blank map's commands and lookups, and the Lint writer with its TAIL (R352, R356, R357, R360).
-/
namespace Sys2Proof.Machine
open Sys2Proof.Claims

/-! ## DLE_BLANK_CMD (R352) -/

theorem unpaired_blankCmd : Unpaired 0xA000 := ⟨by decide, by decide⟩
theorem unpaired_blankQuery : Unpaired 0xA004 := ⟨by decide, by decide⟩

theorem blankCmd_clears {d : Dev} (hready : d.pins.ready = false) (hidle : d.blank.busy = false) :
    blankCmd d 1 = ({ d with blank := { d.blank with valid := [], errs := [], busy := true } }, true) := by
  simp [blankCmd, hready, hidle]

theorem blankCmd_refused {d : Dev} (h : d.pins.ready = true ∨ d.blank.busy = true) : blankCmd d 1 = (d, false) := by
  simp [blankCmd, h]

theorem blankClear_clears {s : State} (hs : hostServed s.dev 0xA000) (hready : s.dev.pins.ready = false)
    (hidle : s.dev.blank.busy = false) : EndsDev .blankClear s fun d =>
      d.blank = { s.dev.blank with valid := [], errs := [], busy := true } ∧ okay d ∧ d.regs = s.dev.regs :=
  ends_command (c := .blankClear) (v := 1) rfl hs unpaired_blankCmd
    (show regCmd _ _ 0xA000 1 = some ((_, (blankCmd _ 1).1), (blankCmd _ 1).2) from rfl) (by
      rw [blankCmd_clears (d := atPort s.dev) hready hidle]
      exact ⟨rfl, rfl, rfl⟩)

theorem blankClear_ignored {s : State} (hs : hostServed s.dev 0xA000) (h : s.dev.pins.ready = true ∨ s.dev.blank.busy = true) :
    EndsDev .blankClear s fun d => d.blank = s.dev.blank ∧ ignored d :=
  ends_command (c := .blankClear) (v := 1) rfl hs unpaired_blankCmd
    (show regCmd _ _ 0xA000 1 = some ((_, (blankCmd _ 1).1), (blankCmd _ 1).2) from rfl) (by
      rw [blankCmd_refused (d := atPort s.dev) h, commandEnd_ignored (by decide)]
      exact ⟨lint_blank .., rfl⟩)

/-! ## DLE_BLANK_QUERY (R360) -/

/-- A lookup in a word without an error changes nothing (R351). -/
theorem blankLook_good {d : Dev} {b : Nat} (h : mget d.blank.errs (mapWord b) = none) : blankLook d b = d := by
  simp [blankLook, h]

theorem bits_bolt (b : BitVec 26) : bits (b.setWidth 32) 25 0 = b.toNat := by
  have := b.isLt
  simp [bits]
  omega

/-- A query shows in DLE_BLANK_RESULT whether the bolt is valid, and changes nothing else. -/
theorem blankQuery_shows {d : Dev} (b : BitVec 26) (hknown : d.blank.known = true) (herr : mget d.blank.errs (mapWord b.toNat) = none) :
    blankQuery d (b.setWidth 32) = rset d 0xA008
      (if 62914559 < b.toNat then 0xC0000000 else if isValid d b.toNat then 0x80000001 else 0x80000000) := by
  rw [blankQuery, bits_bolt]
  by_cases hrange : 62914559 < b.toNat
  · rw [if_pos hrange, if_pos hrange]
  · rw [if_neg hrange, if_neg hrange, blankLook_good herr, hknown]
    cases isValid d b.toNat with
    | true => rfl
    | false => rfl

theorem blankQuery_ends (b : BitVec 26) (s : State) (hs : hostServed s.dev 0xA004) (hknown : s.dev.blank.known = true)
    (herr : mget s.dev.blank.errs (mapWord b.toNat) = none) :
    EndsDev (.blankQuery b) s fun d => okay d ∧ d.blank = s.dev.blank ∧
      rget d 0xA008 = (if 62914559 < b.toNat then 0xC0000000 else if isValid s.dev b.toNat then 0x80000001 else 0x80000000) :=
  ends_command (c := .blankQuery b) (v := b.setWidth 32) rfl hs unpaired_blankQuery
    (show regCmd _ _ 0xA004 _ = some ((_, blankQuery _ _), true) from rfl) (by
      rw [blankQuery_shows (d := atPort s.dev) b hknown herr]
      exact ⟨rfl, rfl, rget_rset _ _ _⟩)

/-! ## The Lint writer (R356, R357) -/

/-- A record that finds no room is counted, and the first raises its event (R357). -/
theorem lintDrop_counts (d : Dev) : (lintDrop d).lint = d.lint ∧ counted d (lintDrop d) 0xA04C 1 ∧
    (rget d 0xA04C = 0 → isPending (lintDrop d) Ev.LINT_DROP) := by
  by_cases h : rget d 0xA04C = 0
  · have he : lintDrop d = rinc (raise d Ev.LINT_DROP) 0xA04C 1 := by rw [lintDrop, if_pos h]
    refine ⟨?_, ?_, fun _ => ?_⟩
    · rw [he, rinc_lint, raise_lint]
    · rw [counted, he, toNat_rget_rinc, rget_raise_ne _ _ _ _ _ (by decide)]
    · rw [he, isPending, rget_rinc_ne _ _ _ (by decide)]
      exact isPending_raise d none none (by decide)
  · have he : lintDrop d = rinc d 0xA04C 1 := by rw [lintDrop, if_neg h]
    refine ⟨?_, ?_, fun hz => absurd hz h⟩
    · rw [he, rinc_lint]
    · rw [counted, he, toNat_rget_rinc]

section Writer
variable {d : Dev} {k : Nat} {r : LintRec} {q : List (Nat × LintRec)} (hq : d.lint.queue = (k, r) :: q)
include hq

theorem lintWrite_appends (hroom : d.lint.head + 1 ≠ lintTail d) (hgood : d.lint.bad.contains (diagLine d.lint.head.toNat) = false) :
    lintWrite d = { d with lint := { d.lint with
      queue := q, ring := minsert d.lint.ring d.lint.head.toNat r, head := d.lint.head + 1 } } := by
  have hgood' : ¬ d.lint.bad.contains (diagLine d.lint.head.toNat) = true := by rw [hgood]; decide
  simp only [lintWrite, hq, if_neg hroom, diagCheck, if_neg hgood']

theorem lintWrite_drops (hfull : d.lint.head + 1 = lintTail d) :
    lintWrite d = lintDrop { d with lint := { d.lint with queue := q } } := by
  simp only [lintWrite, hq, if_pos hfull]

end Writer

/-! ## DLE_LINT_TAIL -/

theorem fieldsAt_lintTail : fieldsAt 0xA044 = [⟨12, 0, .rw, 0, .h⟩] := by decide +kernel

theorem onlyFields_lintTail : OnlyFields 0xA044 := ⟨by decide, by decide, by decide, by decide⟩

section TailWrite
variable {d : Dev} (hs : hostServed d 0xA044) (m : SMap DLine) (v : Word)
include hs

theorem portWrite_lintTail (hok : lintTailOk d v = true) : portWrite m d 0xA044 v =
    (m, answerWrite (rset (atPort d) 0xA044 (putFields [⟨12, 0, .rw, 0, .h⟩] (rget d 0xA044) v)) true) := by
  have hplain : NoAftermath 0xA044 := ⟨by decide, by decide, by decide, by decide, by decide⟩
  have hrule : ruleAllows (atPort d) 0xA044 v = true := hok
  rw [onlyFields_lintTail.portWrite_eq hs.1 hs.2, plainWrite_stores (fs := [⟨12, 0, .rw, 0, .h⟩]) (by rw [anyWritable, fieldsAt_lintTail]; rfl)
    (by rw [hasForeign, fieldsAt_lintTail]; rfl) (by rw [openFields, fieldsAt_lintTail]; rfl) (by simp) hrule, hplain.storeWrite_eq]
  rfl

theorem portWrite_lintTail_outside (hok : lintTailOk d v = false) :
    portWrite m d 0xA044 v = (m, answerWrite (logIgnored (atPort d) 0xA044 v) false) := by
  have hrule : ruleAllows (atPort d) 0xA044 v = false := hok
  rw [onlyFields_lintTail.portWrite_eq hs.1 hs.2, plainWrite_ruled_out (fs := [⟨12, 0, .rw, 0, .h⟩])
    (by rw [anyWritable, fieldsAt_lintTail]; rfl) (by rw [hasForeign, fieldsAt_lintTail]; rfl)
    (by rw [openFields, fieldsAt_lintTail]; rfl) (by simp) hrule]

end TailWrite

/-- TAIL as it stands after its field has taken a value. -/
theorem setWidth_putFields_tail (cur v : Word) : (putFields [⟨12, 0, .rw, 0, .h⟩] cur v).setWidth 13 = v.setWidth 13 := by
  have h := bits_putFields_single (hi := 12) (r := 0) (o := .h) (cur := cur) (v := v) (by decide)
  apply BitVec.eq_of_toNat_eq
  simpa [bits] using h

theorem lintTailWrite_moves (v : Word) (s : State) (hs : hostServed s.dev 0xA044) (hok : lintTailOk s.dev v = true) :
    EndsDev (.lintTailWrite v) s fun d => lintTail d = v.setWidth 13 ∧ d.lint = s.dev.lint ∧ okay d := by
  refine ends_hostWrite (v := v) rfl (portWrite_lintTail hs s.dram v hok) ⟨?_, rfl, rfl⟩
  rw [lintTail, rget_answerWrite, rget_rset, setWidth_putFields_tail]

theorem lintTailWrite_ignored (v : Word) (s : State) (hs : hostServed s.dev 0xA044) (hok : lintTailOk s.dev v = false) :
    EndsDev (.lintTailWrite v) s fun d => rget d 0xA044 = rget s.dev 0xA044 ∧ ignored d := by
  refine ends_hostWrite (v := v) rfl (portWrite_lintTail_outside hs s.dram v hok) ⟨?_, rfl⟩
  rw [rget_answerWrite, logIgnored, rget_lint_ne _ _ _ _ _ _ (by decide) (by decide), rget_setHold]

end Sys2Proof.Machine

section
open Sys2Proof Sys2Proof.Machine Sys2Proof.Claims

/-- Settles O54: the Blank map's commands, its query, the Lint writer and TAIL are each one access, split on its rule's condition. -/
theorem blankMapAndLintCommands : Obligations.BlankMapAndLintCommands := by
  refine ⟨fun s hs => ⟨blankClear_clears hs, blankClear_ignored hs⟩, fun s hbusy => ?_, blankQuery_ends,
    fun k r q s hq => ⟨fun hroom hgood => ⟨_, rfl, ?_⟩, fun hfull => ⟨_, rfl, ?_⟩⟩,
    fun v s hs => ⟨lintTailWrite_moves v s hs, lintTailWrite_ignored v s hs⟩⟩
  · change onDev s blankClearDone = _
    rw [onDev, blankClearDone, if_pos hbusy]
  · rw [lintWrite_appends hq hroom hgood]
    exact ⟨rfl, rfl⟩
  · rw [lintWrite_drops hq hfull]
    exact lintDrop_counts { s.dev with lint := { s.dev.lint with queue := q } }

end
end

section
/-!
DLC_CTRL with its counters, TALLY_SAT, and the writes of the pending and set registers of the interrupt lines
(R30, R509, R513, R514, R520, R521, R539).
-/
namespace Sys2Proof.Machine
open Sys2Proof.Claims

/-! ## CLEAR of DLC_CTRL (R520, R524) -/

/-- Counter n and its DLC_SAT bit, where the mask names it. -/
def clearCounter (mask : BitVec 9) (d : Dev) (n : Nat) : Dev :=
  if mask.getLsbD n then
    { d with tally := { d.tally with counts := merase d.tally.counts n,
                                     satRaised := d.tally.satRaised &&& ~~~(BitVec.ofNat 8 (2 ^ n)) } }
  else d

/-- The registers of histogram h. -/
def clearHistogram (d : Dev) (h : Nat) : Dev :=
  (List.range 32).foldl (fun d b => rset d (0x10400 + 0x100 * h + 0x80 + 4 * b) 0)
    (rset (rset d (0x10400 + 0x100 * h + 4) 0) (0x10400 + 0x100 * h + 8) 0)

theorem clearCounts_eq (d : Dev) (mask : BitVec 9) : clearCounts d mask =
    if mask.getLsbD 8 then (List.range 4).foldl clearHistogram ((List.range 8).foldl (clearCounter mask) d)
    else (List.range 8).foldl (clearCounter mask) d := rfl

theorem clearCounter_regs (mask : BitVec 9) (d : Dev) (n : Nat) : (clearCounter mask d n).regs = d.regs := by
  unfold clearCounter
  split
  · rfl
  · rfl

theorem clearCounters_regs (mask : BitVec 9) (ns : List Nat) (d : Dev) : (ns.foldl (clearCounter mask) d).regs = d.regs := by
  induction ns generalizing d with
  | nil => rfl
  | cons n ns ih => rw [List.foldl_cons, ih, clearCounter_regs]

theorem mgetD_merase (m : SMap Nat) (n k : Nat) : mgetD 0 (merase m n) k = if k = n then 0 else mgetD 0 m k := by
  by_cases h : k = n
  · subst h
    simp [mgetD]
  · simp [mgetD, mget_merase_ne _ _ _ h, h]

theorem count_clearCounter (mask : BitVec 9) (d : Dev) (n k : Nat) :
    mgetD 0 (clearCounter mask d n).tally.counts k =
      if mask.getLsbD n = true ∧ k = n then 0 else mgetD 0 d.tally.counts k := by
  unfold clearCounter
  split
  · rename_i h
    rw [mgetD_merase]
    simp only [h, true_and]
  · rename_i h
    rw [if_neg fun hn => h hn.1]

theorem count_clearCounters (mask : BitVec 9) (ns : List Nat) (d : Dev) (k : Nat) :
    mgetD 0 (ns.foldl (clearCounter mask) d).tally.counts k =
      if mask.getLsbD k = true ∧ k ∈ ns then 0 else mgetD 0 d.tally.counts k := by
  induction ns generalizing d with
  | nil => simp
  | cons n ns ih =>
    rw [List.foldl_cons, ih, count_clearCounter]
    by_cases hk : k = n
    · subst hk
      by_cases hm : mask.getLsbD k = true
      · simp only [hm, true_and, List.mem_cons, true_or, if_true, ite_self]
      · simp only [hm, Bool.false_eq_true, false_and, if_false]
    · simp only [List.mem_cons, hk, and_false, false_or, if_false]

theorem foldl_rset_tally (g : Nat → Nat) (ns : List Nat) (d : Dev) : (ns.foldl (fun d b => rset d (g b) 0) d).tally = d.tally := by
  induction ns generalizing d with
  | nil => rfl
  | cons n ns ih => rw [List.foldl_cons, ih, rset_tally]

theorem foldl_rset_ne (g : Nat → Nat) {off : Nat} (ns : List Nat) (hg : ∀ n, off ≠ g n) (d : Dev) :
    rget (ns.foldl (fun d b => rset d (g b) 0) d) off = rget d off := by
  induction ns generalizing d with
  | nil => rfl
  | cons n ns ih => rw [List.foldl_cons, ih, rget_rset_ne _ _ _ _ (hg n)]

theorem clearHistogram_keeps (d : Dev) (h : Nat) :
    (clearHistogram d h).tally = d.tally ∧ rget (clearHistogram d h) 0x10000 = rget d 0x10000 := by
  constructor
  · rw [clearHistogram, foldl_rset_tally, rset_tally, rset_tally]
  · rw [clearHistogram, foldl_rset_ne _ _ (by omega), rget_rset_ne _ _ _ _ (by omega), rget_rset_ne _ _ _ _ (by omega)]

theorem clearHistograms_keep (hs : List Nat) (d : Dev) :
    (hs.foldl clearHistogram d).tally = d.tally ∧ rget (hs.foldl clearHistogram d) 0x10000 = rget d 0x10000 := by
  induction hs generalizing d with
  | nil => exact ⟨rfl, rfl⟩
  | cons h hs ih => rw [List.foldl_cons, (ih _).1, (ih _).2]; exact clearHistogram_keeps d h

theorem rget_clearCounts (d : Dev) (mask : BitVec 9) : rget (clearCounts d mask) 0x10000 = rget d 0x10000 := by
  have hcounters := rget_congr (clearCounters_regs mask (List.range 8) d) 0x10000
  rw [clearCounts_eq]
  split
  · rw [(clearHistograms_keep _ _).2, hcounters]
  · exact hcounters

/-- CLEAR sets the counters it names to 0, and no other (R520). -/
theorem count_clearCounts (d : Dev) (mask : BitVec 9) {n : Nat} (hn : n < 8) :
    mgetD 0 (clearCounts d mask).tally.counts n = if mask.getLsbD n then 0 else mgetD 0 d.tally.counts n := by
  have hcounters := count_clearCounters mask (List.range 8) d n
  simp only [List.mem_range, hn, and_true] at hcounters
  rw [clearCounts_eq]
  split
  · rw [(clearHistograms_keep _ _).1, hcounters]
  · exact hcounters

theorem clearCounts_none (d : Dev) : clearCounts d 0 = d := by
  have hnone : clearCounter 0 = fun d _ => d := by
    funext d n
    simp [clearCounter]
  rw [clearCounts_eq, hnone]
  simp

/-! ## The write of DLC_CTRL (R521) -/

/-- FREEZE, and CLEAR, which stores nothing. -/
def ctrlFields : List Field := [⟨31, 31, .rw, 0, .h⟩, ⟨8, 0, .wo, 0, .h⟩]

theorem fieldsAt_tallyCtrl : fieldsAt 0x10000 = ctrlFields := by decide +kernel

theorem getLsbD_putFields_ctrl (cur v : Word) : (putFields ctrlFields cur v).getLsbD 31 = v.getLsbD 31 := by
  change (setBits cur 31 31 (bits v 31 31)).getLsbD 31 = _
  rw [getLsbD_setBits _ (by decide), if_pos ⟨by decide, by decide⟩, bits_one]
  cases v.getLsbD 31 <;> rfl

theorem fieldWrite_tallyCtrl (d : Dev) (v : Word) : fieldWrite d 0x10000 v =
    (clearCounts (rset d 0x10000 (putFields ctrlFields (rget d 0x10000) v)) (v.setWidth 9), true) := by
  have hplain : NoAftermath 0x10000 := ⟨by decide, by decide, by decide, by decide, by decide⟩
  have hstores : plainWrite d .host d.boot.applied 0x10000 v = (rset d 0x10000 (putFields ctrlFields (rget d 0x10000) v), true) := by
    rw [plainWrite_stores (fs := ctrlFields) (by rw [anyWritable, fieldsAt_tallyCtrl]; rfl) (by rw [hasForeign, fieldsAt_tallyCtrl]; rfl)
      (by rw [openFields, fieldsAt_tallyCtrl]; rfl) (by simp [ctrlFields]) rfl, hplain.storeWrite_eq]
  rw [fieldWrite]
  simp only [hstores]
  rfl

theorem unpaired_tallyCtrl : Unpaired 0x10000 := ⟨by decide, by decide⟩

/-- A host write of DLC_CTRL: FREEZE takes its bit, and the counters that CLEAR names are 0. -/
theorem ends_tallyCtrl {c : Instr} {s : State} (v : Word) {P : Dev → Prop} (hc : exec c s = hostCmd 0x10000 v s)
    (hs : hostServed s.dev 0x10000)
    (hP : P (answerWrite (clearCounts (rset (atPort s.dev) 0x10000 (putFields ctrlFields (rget s.dev 0x10000) v)) (v.setWidth 9)) true)) :
    EndsDev c s P := by
  refine ends_field hc hs unpaired_tallyCtrl rfl ?_
  rw [fieldWrite_tallyCtrl]
  exact hP

theorem frozen_clearCounts (d : Dev) (mask : BitVec 9) (cur v : Word) :
    frozen (answerWrite (clearCounts (rset d 0x10000 (putFields ctrlFields cur v)) mask) true) = v.getLsbD 31 := by
  rw [frozen, rget_answerWrite, rget_clearCounts, rget_rset, getLsbD_putFields_ctrl]

theorem exec_tallyClear (mask : BitVec 9) (s : State) : exec (.tallyClear mask) s =
    hostCmd 0x10000 ((rget s.dev 0x10000 &&& 0x80000000) ||| mask.setWidth 32) s := by
  change onMem s (fun m d => portWrite m d 0x10000 ((rget d 0x10000 &&& 0x80000000) ||| mask.setWidth 32)) = _
  simp only [hostCmd, onMem]

/-- The written word names the counters, and keeps FREEZE. -/
theorem clearWord_mask (w : Word) (mask : BitVec 9) : ((w &&& 0x80000000) ||| mask.setWidth 32).setWidth 9 = mask := by
  apply BitVec.eq_of_getLsbD_eq
  intro i hi
  have hbelow : (0x80000000 : Word).getLsbD i = false := by
    interval_cases i <;> rfl
  rw [BitVec.getLsbD_setWidth, BitVec.getLsbD_or, BitVec.getLsbD_and, hbelow, BitVec.getLsbD_setWidth]
  simp only [hi, show i < 32 by omega, decide_true, Bool.and_false, Bool.false_or, Bool.true_and]

theorem clearWord_freeze (w : Word) (mask : BitVec 9) : ((w &&& 0x80000000) ||| mask.setWidth 32).getLsbD 31 = w.getLsbD 31 := by
  rw [BitVec.getLsbD_or, BitVec.getLsbD_and, BitVec.getLsbD_setWidth, BitVec.getLsbD_of_ge mask 31 (by decide)]
  simp only [Bool.and_false, Bool.or_false]
  exact Bool.and_true _

theorem tallyClear_ends (mask : BitVec 9) (s : State) (hs : hostServed s.dev 0x10000) :
    EndsDev (.tallyClear mask) s fun d => okay d ∧ frozen d = frozen s.dev ∧
      ∀ n, n < 8 → mgetD 0 d.tally.counts n = if mask.getLsbD n then 0 else mgetD 0 s.dev.tally.counts n := by
  refine ends_tallyCtrl _ (exec_tallyClear mask s) hs ⟨rfl, ?_, fun n hn => ?_⟩
  · rw [frozen_clearCounts, clearWord_freeze, frozen]
  · rw [clearWord_mask]
    exact count_clearCounts _ mask hn

theorem tallyFreeze_ends (b : Bool) (s : State) (hs : hostServed s.dev 0x10000) :
    EndsDev (.tallyFreeze b) s fun d => okay d ∧ frozen d = b ∧ d.tally = s.dev.tally := by
  have hmask : ((if b then 0x80000000 else 0 : Word)).setWidth 9 = 0 := by cases b <;> rfl
  refine ends_tallyCtrl (if b then 0x80000000 else 0) rfl hs ⟨rfl, ?_, ?_⟩
  · rw [frozen_clearCounts]
    cases b <;> rfl
  · rw [hmask, clearCounts_none]
    rfl

/-! ## TALLY_SAT (R513) -/

theorem countOne_satRaised (e : Nat) (m b : Option Nat) (k : Nat) (d : Dev) (n : Nat) :
    (countOne e m b k d n).tally.satRaised = d.tally.satRaised := by
  unfold countOne
  dsimp only
  split
  · rfl
  · rfl

theorem foldl_countOne_satRaised (e : Nat) (m b : Option Nat) (k : Nat) (ns : List Nat) (d : Dev) :
    (ns.foldl (countOne e m b k) d).tally.satRaised = d.tally.satRaised := by
  induction ns generalizing d with
  | nil => rfl
  | cons n ns ih => rw [List.foldl_cons, ih, countOne_satRaised]

theorem setPending_tally (e : Nat) (d : Dev) : (setPending e d).tally = d.tally := by
  unfold setPending
  split
  · rw [rset_tally]
  · rfl

/-- An event counts, and marks no counter as one that has raised TALLY_SAT. -/
theorem raise_satRaised (d : Dev) (e : Nat) (m b : Option Nat) : (raise d e m b).tally.satRaised = d.tally.satRaised := by
  rw [raise, raiseN, if_neg (by decide), countEvent, if_neg (by decide), foldl_countOne_satRaised, setPending_tally]

theorem tallySat_first (n : Fin 8) (s : State) (hmax : mgetD 0 s.dev.tally.counts n.val = countMax)
    (hfirst : s.dev.tally.satRaised.getLsbD n.val = false) :
    EndsDev (.tallySat n) s fun d => isPending d Ev.TALLY_SAT ∧ d.tally.satRaised.getLsbD n.val = true := by
  refine endsDev_of_onDev (f := (tallySat · n.val)) rfl ?_
  rw [tallySat, if_pos (by rw [hmax, hfirst]; rfl)]
  refine ⟨isPending_raise _ none none (by decide), ?_⟩
  rw [raise_satRaised, BitVec.getLsbD_or, hfirst, BitVec.getLsbD_ofNat]
  simp [n.isLt]

theorem tallySat_again (n : Fin 8) (s : State) (hagain : s.dev.tally.satRaised.getLsbD n.val = true) :
    exec (.tallySat n) s = .next s := by
  change onDev s (tallySat · n.val) = _
  rw [onDev, tallySat, if_neg (by rw [hagain]; simp)]

/-! ## The pending registers (R30, R514) -/

theorem fieldsAt_irqPend : ∀ n : Fin 8, fieldsAt (irqPend n.val) = [⟨[10, 7, 9, 8, 3, 4, 7, 7].getD n.val 0, 0, .w1c, 0, .h⟩] := by
  decide +kernel

theorem fieldsAt_irqSet : ∀ n : Fin 8, fieldsAt (irqSetOff n.val) = [⟨[10, 7, 9, 8, 3, 4, 7, 7].getD n.val 0, 0, .w1s, 0, .h⟩] := by
  decide +kernel

/-- The top bit in use of a line's registers is the last of its causes. -/
theorem causesOf_eq : ∀ n : Fin 8, causesOf n.val = BitVec.ofNat 32 (2 ^ ([10, 7, 9, 8, 3, 4, 7, 7].getD n.val 0 + 1) - 1) := by decide

theorem topCause_lt : ∀ n : Fin 8, [10, 7, 9, 8, 3, 4, 7, 7].getD n.val 0 < 32 := by decide

theorem getLsbD_causesOf (n : Fin 8) {k : Nat} (hk : k < 32) :
    (causesOf n.val).getLsbD k = decide (k ≤ [10, 7, 9, 8, 3, 4, 7, 7].getD n.val 0) := by
  rw [causesOf_eq, BitVec.getLsbD_ofNat, Nat.testBit_two_pow_sub_one]
  simp [hk]

theorem isCause_eq (n : Fin 8) {k : Nat} (hk : k < 32) : isCause n.val k = (causesOf n.val).getLsbD k := by
  rw [isCause, fieldsAt_irqPend, getLsbD_causesOf n hk]
  simp

theorem onlyFields_irqPend (n : Fin 8) : OnlyFields (irqPend n.val) := by
  have hpair : ∀ n : Fin 8, isPairLow (irqPend n.val) = false ∧ isPairHigh (irqPend n.val) = false := by decide
  refine ⟨?_, (hpair n).1, (hpair n).2, by unfold irqPend; omega⟩
  simp only [commandOffs, irqPend, List.mem_cons, List.not_mem_nil, or_false, not_or]
  omega

theorem onlyFields_irqSet (n : Fin 8) : OnlyFields (irqSetOff n.val) := by
  have hpair : ∀ n : Fin 8, isPairLow (irqSetOff n.val) = false ∧ isPairHigh (irqSetOff n.val) = false := by decide
  refine ⟨?_, (hpair n).1, (hpair n).2, by unfold irqSetOff; omega⟩
  simp only [commandOffs, irqSetOff, List.mem_cons, List.not_mem_nil, or_false, not_or]
  omega

theorem ruleAllows_low (d : Dev) {off : Nat} (hoff : off < 0x100) (v : Word) : ruleAllows d off v = true := by
  rw [ruleAllows, if_neg (by omega), if_neg (by omega)]

/-- A write of DLI_IRQ_PENDn clears the causes that are written 1. -/
theorem putFields_irqPend (n : Fin 8) (cur v : Word) :
    putFields (fieldsAt (irqPend n.val)) cur v = cur &&& ~~~(v &&& causesOf n.val) := by
  have htop := topCause_lt n
  apply BitVec.eq_of_getLsbD_eq
  intro i hi
  rw [getLsbD_putFields_w1c (by rw [fieldsAt_irqPend]; simpa [Field.Fits] using htop) (by rw [fieldsAt_irqPend]; simp), fieldsAt_irqPend,
    BitVec.getLsbD_and, BitVec.getLsbD_not, BitVec.getLsbD_and, getLsbD_causesOf n hi]
  simp [hi]

theorem portWrite_irqPend (n : Fin 8) {m : SMap DLine} {d : Dev} (hs : hostServed d (irqPend n.val)) (v : Word) :
    portWrite m d (irqPend n.val) v =
      (m, answerWrite (rset (atPort d) (irqPend n.val) (rget d (irqPend n.val) &&& ~~~(v &&& causesOf n.val))) true) := by
  have hoff : irqPend n.val = 0x80 + 4 * n.val := rfl
  have hplain : NoAftermath (irqPend n.val) := ⟨by omega, by omega, by omega, by omega, by omega⟩
  rw [(onlyFields_irqPend n).portWrite_eq hs.1 hs.2, plainWrite_stores (fs := fieldsAt (irqPend n.val))
    (by rw [anyWritable, fieldsAt_irqPend]; rfl) (by rw [hasForeign, fieldsAt_irqPend]; rfl)
    (by rw [openFields, fieldsAt_irqPend]; rfl) (by rw [fieldsAt_irqPend]; simp) (ruleAllows_low _ (by omega) v),
    hplain.storeWrite_eq, putFields_irqPend]
  rfl

section Meet
variable (n : Fin 8)

/-- The event of a line's cause k. -/
theorem setPending_cause {k : Nat} (hk : k < 32) (d : Dev) : setPending (0x100 + 0x20 * n.val + k) d =
    rset d (irqPend n.val) (rget d (irqPend n.val) ||| BitVec.ofNat 32 (1 <<< k)) := by
  have hline : (0x100 + 0x20 * n.val + k - 0x100) / 0x20 = n.val := by omega
  have hbit : (0x100 + 0x20 * n.val + k - 0x100) % 0x20 = k := by omega
  rw [setPending, if_pos (by omega), hline, hbit]

theorem rget_raiseCause (d : Dev) {k : Nat} (hk : k < 32) (m b off : Nat) :
    rget (raiseCause d (0x100 + 0x20 * n.val + k) m b) off =
      if off = irqPend n.val then rget d off ||| BitVec.ofNat 32 (1 <<< k) else rget d off := by
  rw [raiseCause, rget_congr (raise_regs ..) off, setPending_cause n hk]
  split
  · rename_i h
    rw [h, rget_rset]
  · rename_i h
    rw [rget_rset_ne _ _ _ _ h]

/-- The occurrences of a line's causes, taken one after the other. -/
def meetCauses (d : Dev) (met : List Occurrence) : Dev :=
  met.foldl (fun d x => raiseCause d (0x100 + 0x20 * n.val + x.cause.val) x.master.val x.bolt.toNat) d

theorem meetCauses_cons (d : Dev) (x : Occurrence) (met : List Occurrence) : meetCauses n d (x :: met) =
    meetCauses n (raiseCause d (0x100 + 0x20 * n.val + x.cause.val) x.master.val x.bolt.toNat) met := List.foldl_cons ..

theorem rget_meetCauses_ne (met : List Occurrence) (d : Dev) {off : Nat} (hoff : off ≠ irqPend n.val) :
    rget (meetCauses n d met) off = rget d off := by
  induction met generalizing d with
  | nil => rfl
  | cons x met ih => rw [meetCauses_cons, ih, rget_raiseCause n d x.cause.isLt, if_neg hoff]

theorem meetCauses_ycp (met : List Occurrence) (d : Dev) : (meetCauses n d met).ycp = d.ycp := by
  induction met generalizing d with
  | nil => rfl
  | cons x met ih => rw [meetCauses_cons, ih, raiseCause, raise_ycp]

theorem getLsbD_meetCauses (met : List Occurrence) (d : Dev) {k : Nat} (hk : k < 32) :
    (rget (meetCauses n d met) (irqPend n.val)).getLsbD k =
      ((rget d (irqPend n.val)).getLsbD k || met.any fun x => decide (x.cause.val = k)) := by
  induction met generalizing d with
  | nil => simp [meetCauses]
  | cons x met ih =>
    have hbit : (BitVec.ofNat 32 (1 <<< x.cause.val)).getLsbD k = decide (x.cause.val = k) := by
      rw [BitVec.getLsbD_ofNat, Nat.one_shiftLeft, Nat.testBit_two_pow]
      simp [hk]
    rw [meetCauses_cons, ih, rget_raiseCause n d x.cause.isLt, if_pos rfl, BitVec.getLsbD_or, hbit, List.any_cons, Bool.or_assoc]

end Meet

/-- Of the occurrences in the MCLK of a clearing write, those of the line's causes are taken, outside reset. -/
theorem any_met (n : Fin 8) (rst : Bool) (met : List Occurrence) (k : Nat) :
    ((met.filter fun x => !rst && isCause n.val x.cause.val).any fun x => decide (x.cause.val = k)) =
      (!rst && (causesOf n.val).getLsbD k && met.any fun x => x.cause.val = k) := by
  induction met with
  | nil => simp
  | cons x met ih =>
    have hcause := isCause_eq n x.cause.isLt
    by_cases hx : x.cause.val = k
    · rw [hx] at hcause
      cases hkeep : !rst && (causesOf n.val).getLsbD k with
      | true => simp [hx, hcause, hkeep]
      | false => rw [hkeep] at ih; simp [hx, hcause, hkeep, ih]
    · cases hkeep : !rst && isCause n.val x.cause.val with
      | true => simp [hx, hkeep, ih]
      | false => simp [hx, hkeep, ih]

theorem exec_irqClear (n : Fin 8) (v : Word) (met : List Occurrence) (s : State) (hs : hostServed s.dev (irqPend n.val)) :
    exec (.irqClear n ⟨v, met⟩) s = .next { s with dev := (meetCauses n
      (answerWrite (rset (atPort s.dev) (irqPend n.val) (rget s.dev (irqPend n.val) &&& ~~~(v &&& causesOf n.val))) true)
      (met.filter fun x => !s.dev.pins.rstAsserted && isCause n.val x.cause.val)) } := by
  change onMem s (fun m d => pendClear m d n.val ⟨v, met⟩) = _
  rw [onMem, pendClear, portWrite_irqPend n hs]
  rfl

theorem irqClear_ends (n : Fin 8) (v : Word) (s : State) (hs : hostServed s.dev (irqPend n.val)) (met : List Occurrence) :
    EndsDev (.irqClear n ⟨v, met⟩) s fun d => okay d ∧
      (∀ k, k < 32 → (rget d (irqPend n.val)).getLsbD k =
        ((rget s.dev (irqPend n.val) &&& ~~~(v &&& causesOf n.val)).getLsbD k ||
          (!s.dev.pins.rstAsserted && (causesOf n.val).getLsbD k && met.any fun x => x.cause.val = k))) ∧
      ∀ off, off ≠ irqPend n.val → rget d off = rget s.dev off := by
  refine ⟨_, exec_irqClear n v met s hs, ?_, fun k hk => ?_, fun off hoff => ?_⟩
  · rw [okay, meetCauses_ycp]
    rfl
  · rw [getLsbD_meetCauses n _ _ hk, rget_answerWrite, rget_rset, any_met n _ met k]
  · rw [rget_meetCauses_ne n _ _ hoff, rget_answerWrite, rget_rset_ne _ _ _ _ hoff, rget_setHold]

/-! ## The set registers (R539) -/

/-- The bits in use that a write of DLI_IRQ_SETn names. -/
theorem putFields_irqSet (n : Fin 8) (v : Word) :
    putFields ((fieldsAt (irqSetOff n.val)).map fun x => { x with acc := .rw }) 0 v = v &&& causesOf n.val := by
  have htop := topCause_lt n
  rw [fieldsAt_irqSet]
  change setBits 0 ([10, 7, 9, 8, 3, 4, 7, 7].getD n.val 0) 0 (bits v ([10, 7, 9, 8, 3, 4, 7, 7].getD n.val 0) 0) = _
  apply BitVec.eq_of_getLsbD_eq
  intro i hi
  rw [getLsbD_setBits _ htop, BitVec.getLsbD_and, getLsbD_causesOf n hi, bits]
  by_cases h : i ≤ [10, 7, 9, 8, 3, 4, 7, 7].getD n.val 0
  · rw [if_pos ⟨Nat.zero_le i, h⟩, decide_eq_true h, Nat.testBit_mod_two_pow, decide_eq_true (by omega), Nat.shiftRight_zero, Nat.sub_zero,
      BitVec.testBit_toNat, Bool.and_true, Bool.true_and]
  · rw [if_neg fun hc => h hc.2, decide_eq_false h, Bool.and_false]
    exact BitVec.getLsbD_zero

theorem storeWrite_irqSet (n : Fin 8) (d : Dev) (v : Word) : storeWrite d (irqSetOff n.val) (fieldsAt (irqSetOff n.val)) v =
    let e := rset d (irqSetOff n.val) (rget d (irqSetOff n.val))
    rset e (irqPend n.val) (rget e (irqPend n.val) ||| (v &&& causesOf n.val)) := by
  have hoff : irqSetOff n.val = 0xC0 + 4 * n.val := rfl
  have hline : (irqSetOff n.val - 0xC0) / 4 = n.val := by omega
  have hkeep : ∀ cur, putFields (fieldsAt (irqSetOff n.val)) cur v = cur := fun cur => by
    rw [fieldsAt_irqSet]
    rfl
  have hpm : (decide (irqSetOff n.val = 0xE110) && !(rget d (irqSetOff n.val)).getLsbD 31) = false := by
    rw [decide_eq_false (by omega), Bool.false_and]
  rw [storeWrite, hpm, if_neg (by decide), hkeep, afterWrite, if_neg (by omega), if_neg (by omega), if_neg (by omega), if_pos (by omega),
    hline, putFields_irqSet]

theorem portWrite_irqSet (n : Fin 8) {m : SMap DLine} {d : Dev} (hs : hostServed d (irqSetOff n.val)) (v : Word) :
    portWrite m d (irqSetOff n.val) v =
      (m, answerWrite (storeWrite (atPort d) (irqSetOff n.val) (fieldsAt (irqSetOff n.val)) v) true) := by
  have hoff : irqSetOff n.val = 0xC0 + 4 * n.val := rfl
  rw [(onlyFields_irqSet n).portWrite_eq hs.1 hs.2, plainWrite_stores (fs := fieldsAt (irqSetOff n.val))
    (by rw [anyWritable, fieldsAt_irqSet]; rfl) (by rw [hasForeign, fieldsAt_irqSet]; rfl)
    (by rw [openFields, fieldsAt_irqSet]; rfl) (by rw [fieldsAt_irqSet]; simp) (ruleAllows_low _ (by omega) v)]

/-- The registers of the interrupt lines are always served together. -/
theorem hostServed_irqSet (n : Fin 8) {d : Dev} (hs : hostServed d (irqPend n.val)) : hostServed d (irqSetOff n.val) := by
  have hoff : irqSetOff n.val = 0xC0 + 4 * n.val := rfl
  refine ⟨hs.1, ?_⟩
  rw [served, if_neg, if_neg]
  · simp [inEclk]; omega
  · simp [inTclk]; omega

theorem irqSet_ends (n : Fin 8) (v : Word) (s : State) (hs : hostServed s.dev (irqPend n.val)) :
    EndsDev (.irqSet n v) s fun d => okay d ∧
      rget d (irqPend n.val) = rget s.dev (irqPend n.val) ||| (v &&& causesOf n.val) ∧
      ∀ off, off ≠ irqPend n.val → off ≠ irqSetOff n.val → rget d off = rget s.dev off := by
  have hapart : irqPend n.val ≠ irqSetOff n.val := by unfold irqPend irqSetOff; omega
  refine ends_hostWrite (off := irqSetOff n.val) (v := v) rfl (portWrite_irqSet n (hostServed_irqSet n hs) v) ?_
  rw [storeWrite_irqSet]
  refine ⟨rfl, ?_, fun off hpend hset => ?_⟩
  · rw [rget_answerWrite, rget_rset, rget_rset_ne _ _ _ _ hapart, rget_setHold]
  · rw [rget_answerWrite, rget_rset_ne _ _ _ _ hpend, rget_rset_ne _ _ _ _ hset, rget_setHold]

end Sys2Proof.Machine

section
open Sys2Proof Sys2Proof.Machine Sys2Proof.Claims

/-- Settles O56: the writes of DLC_CTRL, the saturation of a counter, and the writes of the interrupt lines' registers. -/
theorem countersAndInterrupts : Obligations.CountersAndInterrupts :=
  ⟨tallyClear_ends, tallyFreeze_ends, fun n s hmax => ⟨tallySat_first n s hmax, tallySat_again n s⟩,
    fun n v s hs => ⟨irqClear_ends n v s hs, irqSet_ends n v s hs⟩⟩

end
end

section
/-!
A pattern image that verifies: the branches of `verifyImage` that it has not taken (R486).
-/
namespace Sys2Proof.Machine

/-! ## The checks, one by one -/

/-- A guarded result of verification that is not the guard's passed the guard. -/
theorem guard_passed {c : Prop} [Decidable c] {r : Nat} {v : Nat × Nat} {x : Nat} (hr : r ≠ 0) (h : (if c then (r, 0) else v) = (0, x)) :
    ¬c ∧ v = (0, x) := by
  by_cases hc : c
  · rw [if_pos hc] at h
    exact absurd (congrArg Prod.fst h) hr
  · rw [if_neg hc] at h
    exact ⟨hc, h⟩

/-- The reserved bytes of a header. -/
theorem zero_of_allZero {bs : List Nat} {lo hi : Nat} (h : allZero bs lo hi = true) {i b : Nat} (hlo : lo ≤ i) (hhi : i ≤ hi)
    (hb : bs[i]? = some b) : b = 0 := by
  have hmem : b ∈ (bs.drop lo).take (hi + 1 - lo) := by
    refine List.mem_of_getElem? (i := i - lo) ?_
    rw [List.getElem?_take_of_lt (by omega), List.getElem?_drop, Nat.add_sub_cancel' hlo, hb]
  simpa using List.all_eq_true.mp h b hmem

/-- Check 1 of R486 on a header. -/
def headerBad (h : List Nat) : Bool :=
  imgField h 0 4 ≠ 0x4E525450 || imgField h 4 2 ≠ 1 || decide (1 < imgField h 6 2) || decide (3 < imgField h 24 2) ||
    !allZero h 26 111 || !allZero h 144 255

theorem headerBad_eq_false {h : List Nat} (hok : headerBad h = false) :
    imgField h 0 4 = 0x4E525450 ∧ imgField h 4 2 = 1 ∧ imgField h 6 2 ≤ 1 ∧ imgField h 24 2 ≤ 3 ∧
      ∀ i b, (26 ≤ i ∧ i ≤ 111) ∨ (144 ≤ i ∧ i ≤ 255) → h[i]? = some b → b = 0 := by
  simp only [headerBad, Bool.or_eq_false_iff, decide_eq_false_iff_not, not_not, not_lt, Bool.not_eq_false'] at hok
  obtain ⟨⟨⟨⟨⟨hmagic, hformat⟩, hflags⟩, hslot⟩, hlow⟩, hhigh⟩ := hok
  refine ⟨hmagic, hformat, hflags, hslot, fun i b hi hb => ?_⟩
  obtain ⟨hlo, hhi⟩ | ⟨hlo, hhi⟩ := hi
  · exact zero_of_allZero hlow hlo hhi hb
  · exact zero_of_allZero hhigh hlo hhi hb

/-- Check 2 on LENGTH and RECORDS. -/
def lengthBad (n count : Nat) : Bool :=
  n % 8 ≠ 0 || decide (n < 256) || decide (1048320 < n) || count ≠ (n - 256) / 8

theorem lengthBad_eq_false {n count : Nat} (hok : lengthBad n count = false) :
    n % 8 = 0 ∧ 256 ≤ n ∧ n ≤ 1048320 ∧ count = (n - 256) / 8 := by
  simp only [lengthBad, Bool.or_eq_false_iff, decide_eq_false_iff_not, not_not, not_lt] at hok
  obtain ⟨⟨⟨height, hmin⟩, hmax⟩, hcount⟩ := hok
  exact ⟨height, hmin, hmax, hcount⟩

/-- The signature of an image of n bytes verifies with the key that follows them (R484). -/
def signedBy (bs : List Nat) (n : Nat) : Bool :=
  let sig := bs.drop n
  let big (o : Nat) : Nat := Sha.beNat ((sig.drop o).take 48)
  Ecdsa.verify (Sha.beNat (Sha.sha384 (bs.take n))) (big 1) (big 49) (big 100) (big 148)

/-- The slot holds the digest of the key. -/
def keyOf (f : Fuses) (bs : List Nat) (n : Nat) : Prop :=
  BitVec.ofNat 384 (Sha.beNat (Sha.sha384 ((bs.drop n).take 97))) = f.keys.getD (imgField bs 24 2) 0

theorem checkKey_eq (f : Fuses) (bs : List Nat) (n : Nat) : checkKey f bs n =
    if f.revoke.getLsbD (imgField bs 24 2) || decide (BitVec.ofNat 384 (Sha.beNat (Sha.sha384 ((bs.drop n).take 97))) ≠
        f.keys.getD (imgField bs 24 2) 0) then 6
    else if decide (((bs.drop n).take 97).getD 0 0 = 4) && signedBy bs n then 0 else 7 := rfl

theorem head?_of_getD {l : List Nat} (h : l.getD 0 0 = 4) : l.head? = some 4 := by
  cases l with
  | nil => simp at h
  | cons a l => simpa using h

/-- Checks 6 and 7. -/
theorem checkKey_eq_zero {f : Fuses} {bs : List Nat} {n : Nat} (h : checkKey f bs n = 0) :
    f.revoke.getLsbD (imgField bs 24 2) = false ∧ keyOf f bs n ∧ ((bs.drop n).take 97).head? = some 4 ∧ signedBy bs n = true := by
  rw [checkKey_eq] at h
  by_cases hkey : (f.revoke.getLsbD (imgField bs 24 2) || decide (BitVec.ofNat 384 (Sha.beNat (Sha.sha384 ((bs.drop n).take 97))) ≠
        f.keys.getD (imgField bs 24 2) 0)) = true
  · rw [if_pos hkey] at h
    exact absurd h (by decide)
  · rw [if_neg hkey] at h
    rw [Bool.not_eq_true, Bool.or_eq_false_iff, decide_eq_false_iff_not, not_not] at hkey
    by_cases hsig : (decide (((bs.drop n).take 97).getD 0 0 = 4) && signedBy bs n) = true
    · rw [Bool.and_eq_true, decide_eq_true_eq] at hsig
      exact ⟨hkey.1, hkey.2, head?_of_getD hsig.1, hsig.2⟩
    · rw [if_neg hsig] at h
      exact absurd h (by decide)

/-- Checks 8 and 9 on what apply would set. -/
def recordsVerdict (d : Dev) (rs : List (Nat × Word)) : Nat × Nat :=
  match rs.find? fun r => !permitted r.1 with
  | some r => (8, r.1 % 2 ^ 24)
  | none =>
    match firstBad (writeRecords (resetRwl d) rs) with
    | some off => (9, off)
    | none => (0, 0)

theorem recordsVerdict_eq_zero {d : Dev} {rs : List (Nat × Word)} {x : Nat} (h : recordsVerdict d rs = (0, x)) :
    (∀ r ∈ rs, permitted r.1 = true) ∧ firstBad (writeRecords (resetRwl d) rs) = none := by
  unfold recordsVerdict at h
  split at h
  · exact absurd (show 8 = 0 from congrArg Prod.fst h) (by decide)
  · rename_i hfind
    split at h
    · exact absurd (show 9 = 0 from congrArg Prod.fst h) (by decide)
    · rename_i hload
      refine ⟨fun r hr => ?_, hload⟩
      simpa using List.find?_eq_none.mp hfind r hr

/-! ## Their order -/

/-- Check 5, then 6 and 7 of an image that is signed. -/
def keyVerdict (f : Fuses) (im : SMap Word) (n flags : Nat) : Nat :=
  if flags = 1 then 0 else checkKey f (imageBytesOf im (n + 256)) n

theorem verifyImage_eq (f : Fuses) (d : Dev) : verifyImage f d =
    let h := imageBytesOf d.boot.image 256
    let n := imgField h 8 4
    if headerBad h then (1, 0)
    else if lengthBad n (imgField h 12 4) then (2, 0)
    else if imgField h 16 4 ≠ partId then (3, 0)
    else if imgField h 20 4 < f.minSeq then (4, 0)
    else if decide (imgField h 6 2 = 1) && !f.debug then (5, 0)
    else if keyVerdict f d.boot.image n (imgField h 6 2) ≠ 0 then
      (keyVerdict f d.boot.image n (imgField h 6 2), 0)
    else recordsVerdict d (imageRecords d.boot.image (imgField h 12 4)) := rfl

/-- A verified image has passed the nine checks in turn. -/
theorem checks_of_verified {f : Fuses} {d : Dev} {x : Nat} (hok : verifyImage f d = (0, x)) :
    let h := imageBytesOf d.boot.image 256
    let n := imgField h 8 4
    headerBad h = false ∧ lengthBad n (imgField h 12 4) = false ∧ imgField h 16 4 = partId ∧ f.minSeq ≤ imgField h 20 4 ∧
      (imgField h 6 2 = 1 → f.debug = true) ∧ keyVerdict f d.boot.image n (imgField h 6 2) = 0 ∧
      recordsVerdict d (imageRecords d.boot.image (imgField h 12 4)) = (0, x) := by
  rw [verifyImage_eq] at hok
  intro h n
  obtain ⟨hheader, hok⟩ := guard_passed (by decide) hok
  obtain ⟨hlength, hok⟩ := guard_passed (by decide) hok
  obtain ⟨hpart, hok⟩ := guard_passed (by decide) hok
  obtain ⟨hseq, hok⟩ := guard_passed (by decide) hok
  obtain ⟨hdebug, hok⟩ := guard_passed (by decide) hok
  have hkey : keyVerdict f d.boot.image n (imgField h 6 2) = 0 := by
    by_contra hne
    rw [if_pos hne] at hok
    exact hne (congrArg Prod.fst hok)
  rw [if_neg (not_not.mpr hkey)] at hok
  rw [Bool.not_eq_true] at hheader hlength hdebug
  refine ⟨hheader, hlength, not_not.mp hpart, not_lt.mp hseq, fun hun => ?_, hkey, hok⟩
  rw [decide_eq_true hun, Bool.true_and, Bool.not_eq_false'] at hdebug
  exact hdebug

end Sys2Proof.Machine

section
open Sys2Proof Sys2Proof.Machine

/-- Settles O49: what each check of `verifyImage` that did not fail says of the image. -/
theorem acceptedImagePassedEveryCheck : Obligations.AcceptedImagePassedEveryCheck := by
  intro f d x hok h n slot bs sig key big
  obtain ⟨hheader, hlength, hpart, hseq, hdebug, hkey, hrecords⟩ := checks_of_verified hok
  refine ⟨headerBad_eq_false hheader, lengthBad_eq_false hlength, hpart, hseq, hdebug, fun hsigned => ?_, recordsVerdict_eq_zero hrecords⟩
  rw [keyVerdict, if_neg (by simpa using hsigned)] at hkey
  obtain ⟨hrevoke, hdigest, hpoint, hverify⟩ := checkKey_eq_zero hkey
  exact ⟨⟨hrevoke, hdigest.symm⟩, hpoint, hverify⟩

end
end

section
/-!
What messages leave alone: of the die link the states and modules of the links, and of each other instance everything but whether its
management messages take the longer path (R459 to R463).
-/
namespace Sys2Proof.Machine

/-! ## Links and peers kept -/

/-- The links keep their states and their modules. -/
structure LinksKept (d e : Dev) : Prop where
  link : ∀ j, (getLink e j).state = (getLink d j).state ∧ (getLink e j).modules = (getLink d j).modules

/-- The same peer, but for the path of its management messages (R460). -/
def SamePeer (p q : Peer) : Prop := q = { p with detour := q.detour }

theorem LinksKept.refl (d : Dev) : LinksKept d d := ⟨fun _ => ⟨rfl, rfl⟩⟩
theorem LinksKept.trans {d e f : Dev} (h : LinksKept d e) (h' : LinksKept e f) : LinksKept d f :=
  ⟨fun j => ⟨(h'.link j).1.trans (h.link j).1, (h'.link j).2.trans (h.link j).2⟩⟩

theorem linksKept_of_link {d e : Dev} (h : e.link.links = d.link.links) : LinksKept d e := by
  refine ⟨fun j => ?_⟩
  rw [show getLink e j = getLink d j by rw [getLink, getLink, h]]
  exact ⟨rfl, rfl⟩

/-- A link that takes or gives up messages. -/
theorem linksKept_setQueue (d : Dev) (j : Nat) (q : List Queued) : LinksKept d (setLink d j { getLink d j with queue := q }) := by
  refine ⟨fun k => ?_⟩
  by_cases h : k = j
  · subst h
    rw [getLink_setLink]
    exact ⟨rfl, rfl⟩
  · rw [getLink_setLink_ne _ _ _ _ h]
    exact ⟨rfl, rfl⟩

theorem LinksKept.linkUp_eq {d e : Dev} (h : LinksKept d e) (j : Nat) : linkUp e j = linkUp d j := by
  rw [linkUp, linkUp, (h.link j).1, (h.link j).2]

theorem LinksKept.pathOk_eq {d e : Dev} (h : LinksKept d e) (hinst : e.boot.inst = d.boot.inst) (hfar : e.link.far = d.link.far) (i j : Nat) :
    pathOk e i j = pathOk d i j := by rw [pathOk, pathOk, h.linkUp_eq, hinst, hfar]

theorem SamePeer.refl (p : Peer) : SamePeer p p := rfl
theorem SamePeer.trans {p q r : Peer} (h : SamePeer p q) (h' : SamePeer q r) : SamePeer p r := by
  unfold SamePeer at *
  rw [h', h]

section SamePeer
variable {p q : Peer} (h : SamePeer p q)
include h

theorem SamePeer.marked_eq : q.marked = p.marked := by rw [h]
theorem SamePeer.cause_eq : q.cause = p.cause := by rw [h]
theorem SamePeer.unreach_eq : q.unreach = p.unreach := by rw [h]
theorem SamePeer.bcast_eq : q.bcast = p.bcast := by rw [h]
theorem SamePeer.beating_eq : q.beating = p.beating := by rw [h]
theorem SamePeer.misses_eq : q.misses = p.misses := by rw [h]
theorem SamePeer.hbWaiting_eq : q.hbWaiting = p.hbWaiting := by rw [h]
theorem SamePeer.seqIn_eq : q.seqIn = p.seqIn := by rw [h]
theorem SamePeer.seqOut_eq : q.seqOut = p.seqOut := by rw [h]

end SamePeer

/-! ## Messages -/

/-- The die link but for its links, its peers, the forwarded requests and what waits or counts. -/
def mailCore (p : Package) : Package := { p with links := [], peers := [], fwds := [], held := [], txRest := 0, rxRest := 0 }

/-- What sending messages leaves of the die link. -/
structure Mailed (d e : Dev) : Prop where
  core : mailCore e.link = mailCore d.link
  fwds : e.link.fwds = d.link.fwds
  links : LinksKept d e
  peer : ∀ i, SamePeer (getPeer d i) (getPeer e i)

theorem Mailed.refl (d : Dev) : Mailed d d := ⟨rfl, rfl, .refl d, fun _ => .refl _⟩

theorem Mailed.trans {d e f : Dev} (h : Mailed d e) (h' : Mailed e f) : Mailed d f :=
  ⟨h'.core.trans h.core, h'.fwds.trans h.fwds, h.links.trans h'.links, fun i => (h.peer i).trans (h'.peer i)⟩

theorem mailed_of_link {d e : Dev} (h : e.link = d.link) : Mailed d e := by
  refine ⟨by rw [h], by rw [h], linksKept_of_link (by rw [h]), fun i => ?_⟩
  rw [show getPeer e i = getPeer d i by rw [getPeer, getPeer, h]]
  exact .refl _

theorem mailed_setQueue (d : Dev) (j : Nat) (q : List Queued) : Mailed d (setLink d j { getLink d j with queue := q }) :=
  ⟨rfl, rfl, linksKept_setQueue d j q, fun _ => .refl _⟩

theorem mailed_withHeld (d : Dev) (h : List Msg) : Mailed d { d with link := { d.link with held := h } } :=
  ⟨rfl, rfl, linksKept_of_link rfl, fun _ => .refl _⟩

theorem mailed_setDetour (d : Dev) (i : Nat) (b : Bool) : Mailed d (setPeer d i { getPeer d i with detour := b }) := by
  refine ⟨rfl, rfl, linksKept_of_link rfl, fun k => ?_⟩
  by_cases h : k = i
  · subst h
    rw [getPeer_setPeer]
    rfl
  · rw [getPeer_setPeer_ne _ _ _ _ h]
    rfl

theorem mailed_putMsg (d : Dev) (m : Msg) : Mailed d (putMsg d m) := by
  unfold putMsg
  dsimp only
  split
  · exact mailed_setQueue _ _ _
  · split
    · split
      · exact ((mailed_of_link (d := d) (e := { d with free := d.free + 1 }) rfl).trans (mailed_setDetour _ _ _)).trans (mailed_setQueue _ _ _)
      · exact mailed_setQueue _ _ _
    · exact .refl d

theorem mailed_unsend {d e : Dev} {m : Msg} (h : unsend d = some (m, e)) : Mailed d e := by
  obtain ⟨j, -, hj⟩ := List.exists_of_findSome?_eq_some h
  obtain ⟨r, -, hr⟩ := Option.map_eq_some_iff.mp hj
  cases hr
  exact mailed_setQueue _ _ _

theorem mailed_yieldRoom (n : Nat) (a : Dev × List Msg) : Mailed a.1 (yieldRoom n a).1 := by
  induction n generalizing a with
  | zero => exact .refl _
  | succ n ih =>
    rw [yieldRoom]
    split
    · exact .refl _
    · split
      · rename_i m d h
        exact (mailed_unsend h).trans (ih (d, m :: a.2))
      · exact .refl _

theorem mailed_pumpOne (a : Dev × List Msg) (m : Msg) : Mailed a.1 (pumpOne a m).1 := by
  unfold pumpOne
  split
  · exact .refl _
  · split
    · exact (mailed_putMsg a.1 m).trans (mailed_yieldRoom _ (putMsg a.1 m, a.2))
    · exact mailed_putMsg a.1 m

theorem mailed_pumpAll (l : List Msg) (a : Dev × List Msg) : Mailed a.1 (l.foldl pumpOne a).1 := by
  induction l generalizing a with
  | nil => exact .refl _
  | cons m l ih => exact (mailed_pumpOne a m).trans (ih (pumpOne a m))

theorem mailed_sendHeld (d : Dev) : Mailed d (sendHeld d) :=
  (mailed_pumpAll d.link.held (d, [])).trans (mailed_withHeld _ _)

theorem mailed_send (d : Dev) (dst : Nat) (b : MsgBody) : Mailed d (send d dst b) := by
  unfold send
  exact (mailed_withHeld d _).trans (mailed_sendHeld _)

end Sys2Proof.Machine
end

section
/-!
What marks, records, events and messages leave alone, and the marks of the other instances (R466, R470 to R474).
-/
namespace Sys2Proof.Machine
open Sys2Proof.Claims

/-! ## The frame -/

/-- Pending bits stay set, and no register changes but those of the interrupt causes and the count of lost records. -/
structure KeepsRegs (d e : Dev) : Prop where
  pending : ∀ k i, k ≠ 0xA04C → (rget d k).getLsbD i = true → (rget e k).getLsbD i = true
  other : ∀ k, k < 0x80 ∨ 0xA0 ≤ k → k ≠ 0xA04C → rget e k = rget d k

/-- What events, records, marks of the peers in K and messages leave alone. -/
structure Follows (K : Nat → Prop) (d e : Dev) : Prop where
  pins : e.pins = d.pins
  boot : e.boot = d.boot
  fwds : e.link.fwds = d.link.fwds
  far : e.link.far = d.link.far
  hbSeq : e.link.hbSeq = d.link.hbSeq
  mgrLost : e.link.mgrLost = d.link.mgrLost
  isolated : e.link.isolated = d.link.isolated
  links : LinksKept d e
  peer : ∀ i, ¬K i → SamePeer (getPeer d i) (getPeer e i)
  regs : KeepsRegs d e

/-- Every peer's state is left alone. -/
abbrev noPeer : Nat → Prop := fun _ => False

theorem KeepsRegs.refl (d : Dev) : KeepsRegs d d := ⟨fun _ _ _ h => h, fun _ _ _ => rfl⟩
theorem KeepsRegs.trans {d e f : Dev} (h : KeepsRegs d e) (h' : KeepsRegs e f) : KeepsRegs d f :=
  ⟨fun k i hk hb => h'.pending k i hk (h.pending k i hk hb), fun k hk hd => (h'.other k hk hd).trans (h.other k hk hd)⟩

theorem keepsRegs_of_regs {d e : Dev} (h : e.regs = d.regs) : KeepsRegs d e :=
  ⟨fun k _ _ hb => by rw [rget_congr h k]; exact hb, fun k _ _ => rget_congr h k⟩

theorem keepsRegs_raise (d : Dev) (e : Nat) (m b : Option Nat) : KeepsRegs d (raise d e m b) :=
  ⟨fun _ _ _ hb => getLsbD_raise_of_getLsbD hb e m b, fun _ hk _ => rget_raise_ne _ _ _ _ _ hk⟩

theorem keepsRegs_lint (d : Dev) (kind : Nat) (w : LintAt) (x y : Nat) : KeepsRegs d (lint d kind w x y) :=
  ⟨fun _ _ hk hb => getLsbD_lint_of_getLsbD hk hb kind w x y, fun _ hk hd => rget_lint_ne _ _ _ _ _ _ hk hd⟩

theorem KeepsRegs.isPending {d e : Dev} (h : KeepsRegs d e) {c : Nat} (hc : c < 0x200) (hp : isPending d c) : isPending e c :=
  h.pending _ _ (by unfold irqPend; omega) hp

namespace Follows
variable {K L : Nat → Prop} {d e f : Dev}

theorem refl (d : Dev) : Follows K d d := ⟨rfl, rfl, rfl, rfl, rfl, rfl, rfl, .refl d, fun _ _ => .refl _, .refl d⟩

theorem trans (h : Follows K d e) (h' : Follows K e f) : Follows K d f :=
  ⟨h'.pins.trans h.pins, h'.boot.trans h.boot, h'.fwds.trans h.fwds, h'.far.trans h.far, h'.hbSeq.trans h.hbSeq,
    h'.mgrLost.trans h.mgrLost, h'.isolated.trans h.isolated, h.links.trans h'.links, fun i hi => (h.peer i hi).trans (h'.peer i hi),
    h.regs.trans h'.regs⟩

theorem mono (h : Follows K d e) (hKL : ∀ i, K i → L i) : Follows L d e :=
  { h with peer := fun i hi => h.peer i fun hk => hi (hKL i hk) }

theorem of_noPeer (h : Follows noPeer d e) : Follows K d e := h.mono fun _ => False.elim

theorem isPending (h : Follows K d e) {c : Nat} (hc : c < 0x200) (hp : isPending d c) : Claims.isPending e c := h.regs.isPending hc hp

theorem isManager_eq (h : Follows K d e) : isManager e = isManager d := by rw [isManager, isManager, h.boot]
theorem me_eq (h : Follows K d e) : me e = me d := by rw [me, me, h.boot]
theorem others_eq (h : Follows K d e) : others e = others d := by rw [others, others, h.me_eq]
theorem rbits_eq (h : Follows K d e) {off : Nat} (hoff : off < 0x80 ∨ 0xA0 ≤ off) (hdrop : off ≠ 0xA04C) (hi lo : Nat) :
    rbits e off hi lo = rbits d off hi lo := by rw [rbits, rbits, h.regs.other off hoff hdrop]
theorem pathOk_eq (h : Follows K d e) (i j : Nat) : pathOk e i j = pathOk d i j := h.links.pathOk_eq (by rw [h.boot]) h.far i j

/-- Steps that keep the frame, taken one after the other. -/
theorem foldl {α : Type} {g : Dev → α → Dev} {l : List α} (hg : ∀ a ∈ l, ∀ d, Follows K d (g d a)) (d : Dev) :
    Follows K d (l.foldl g d) := by
  induction l generalizing d with
  | nil => exact .refl d
  | cons a l ih =>
    rw [List.forall_mem_cons] at hg
    exact (hg.1 d).trans (ih hg.2 _)

end Follows

section Mailed
variable {d e : Dev} (h : Mailed d e)
include h

theorem Mailed.far_eq : e.link.far = d.link.far := show (mailCore e.link).far = (mailCore d.link).far by rw [h.core]
theorem Mailed.hbSeq_eq : e.link.hbSeq = d.link.hbSeq := show (mailCore e.link).hbSeq = (mailCore d.link).hbSeq by rw [h.core]
theorem Mailed.mgrLost_eq : e.link.mgrLost = d.link.mgrLost := show (mailCore e.link).mgrLost = (mailCore d.link).mgrLost by rw [h.core]
theorem Mailed.isolated_eq : e.link.isolated = d.link.isolated := show (mailCore e.link).isolated = (mailCore d.link).isolated by rw [h.core]
theorem Mailed.applyAt_eq : e.link.applyAt = d.link.applyAt := show (mailCore e.link).applyAt = (mailCore d.link).applyAt by rw [h.core]
theorem Mailed.bcastBusy_eq : e.link.bcastBusy = d.link.bcastBusy :=
  show (mailCore e.link).bcastBusy = (mailCore d.link).bcastBusy by rw [h.core]
theorem Mailed.joining_eq : e.link.joining = d.link.joining := show (mailCore e.link).joining = (mailCore d.link).joining by rw [h.core]

theorem Mailed.follows (hpins : e.pins = d.pins) (hboot : e.boot = d.boot) (hregs : KeepsRegs d e) : Follows noPeer d e :=
  ⟨hpins, hboot, h.fwds, h.far_eq, h.hbSeq_eq, h.mgrLost_eq, h.isolated_eq, h.links, fun i _ => h.peer i, hregs⟩

end Mailed

theorem follows_raise (d : Dev) (e : Nat) (m b : Option Nat := none) : Follows noPeer d (raise d e m b) :=
  (mailed_of_link (raise_link ..)).follows (raise_pins ..) (raise_boot ..) (keepsRegs_raise ..)

theorem follows_lint (d : Dev) (kind : Nat) (w : LintAt) (x y : Nat) : Follows noPeer d (lint d kind w x y) :=
  (mailed_of_link (lint_link ..)).follows (lint_pins ..) (lint_boot ..) (keepsRegs_lint ..)

theorem follows_send (d : Dev) (dst : Nat) (b : MsgBody) : Follows noPeer d (send d dst b) := by
  obtain ⟨l, n, h⟩ := sameButLink_send d dst b
  exact (mailed_send d dst b).follows (by rw [h]) (by rw [h]) (keepsRegs_of_regs (by rw [h]))

theorem follows_setPeer {K : Nat → Prop} (d : Dev) {i : Nat} (hi : K i) (p : Peer) : Follows K d (setPeer d i p) := by
  refine ⟨rfl, rfl, rfl, rfl, rfl, rfl, rfl, linksKept_of_link rfl, fun k hk => ?_, keepsRegs_of_regs rfl⟩
  rw [getPeer_setPeer_ne _ _ _ _ fun h => hk (by rw [h]; exact hi)]
  exact .refl _

/-- A message to each of a list of instances. -/
theorem follows_sends (b : Nat → MsgBody) (l : List Nat) (d : Dev) : Follows noPeer d (l.foldl (fun d i => send d i (b i)) d) :=
  .foldl (fun i _ d => follows_send d i (b i)) d

/-! ## Marks (R466, R470, R471) -/

theorem absentAll_of_noFwds {d : Dev} (h : d.link.fwds = []) (i : Nat) : absentAll d i = d := by rw [absentAll, h]; rfl

/-- The mark of a peer. -/
def markedAs (d : Dev) (i : Nat) (cause : BitVec 3) : Prop := (getPeer d i).marked = true ∧ (getPeer d i).cause = cause

theorem SamePeer.markedAs {d e : Dev} {i : Nat} {cause : BitVec 3} (h : SamePeer (getPeer d i) (getPeer e i)) (hm : markedAs d i cause) :
    markedAs e i cause := ⟨h.marked_eq.trans hm.1, h.cause_eq.trans hm.2⟩

section Marks
variable {d : Dev} (hf : d.link.fwds = []) (i : Nat) (cause : BitVec 3)

theorem applyMark_again (h : (getPeer d i).marked = true) : applyMark d i cause = setPeer d i { getPeer d i with cause := cause } := by
  rw [applyMark]
  exact if_pos h

include hf

theorem applyMark_first (h : (getPeer d i).marked = false) : applyMark d i cause =
    lint (raise (setPeer d i { getPeer d i with marked := true, cause := cause, beating := false }) Ev.INSTANCE_ABSENT) 0x2D {} i cause.toNat := by
  rw [applyMark, if_neg (by rw [h]; decide)]
  exact absentAll_of_noFwds (by rw [lint_link, raise_link]; exact hf) i

theorem follows_applyMark {K : Nat → Prop} (hi : K i) : Follows K d (applyMark d i cause) := by
  cases h : (getPeer d i).marked with
  | true =>
    rw [applyMark_again i cause h]
    exact follows_setPeer d hi _
  | false =>
    rw [applyMark_first hf i cause h]
    exact ((follows_setPeer d hi _).trans (follows_raise ..).of_noPeer).trans (follows_lint ..).of_noPeer

theorem getPeer_applyMark : ∃ b, getPeer (applyMark d i cause) i =
    { getPeer d i with marked := true, cause := cause, beating := b } := by
  cases h : (getPeer d i).marked with
  | true =>
    refine ⟨(getPeer d i).beating, ?_⟩
    rw [applyMark_again i cause h, getPeer_setPeer, ← h]
  | false =>
    refine ⟨false, ?_⟩
    rw [applyMark_first hf i cause h, getPeer, lint_link, raise_link]
    exact getPeer_setPeer ..

theorem applyMark_marks : markedAs (applyMark d i cause) i cause := by
  obtain ⟨b, h⟩ := getPeer_applyMark hf i cause
  exact ⟨by rw [h], by rw [h]⟩

theorem applyMark_raises (h : (getPeer d i).marked = false) : isPending (applyMark d i cause) Ev.INSTANCE_ABSENT := by
  rw [applyMark_first hf i cause h]
  exact (follows_lint ..).isPending (by decide) (isPending_raise _ none none (by decide))

end Marks

theorem follows_clearMark {K : Nat → Prop} (d : Dev) {i : Nat} (hi : K i) : Follows K d (clearMark d i) := follows_setPeer d hi _

/-! ## The manager's marks -/

/-- The broadcast of a worker that is marked while it goes on ends for it. -/
def endsWorker (d : Dev) (i : Nat) : Dev :=
  if (getPeer d i).bcast = 1 then setPeer d i { getPeer d i with bcast := 3, beating := false } else d

theorem markWorker_eq (d : Dev) (i : Nat) (cause : BitVec 3) : markWorker d i cause =
    if (getPeer d i).marked then applyMark (endsWorker d i) i cause
    else (reachable (applyMark (endsWorker d i) i cause)).foldl (fun d j => send d j (.absentSet (BitVec.ofNat 2 i) cause))
      (applyMark (endsWorker d i) i cause) := rfl

section MarkWorker
variable {d : Dev} (hf : d.link.fwds = []) (i : Nat) (cause : BitVec 3)

theorem follows_endsWorker {K : Nat → Prop} (d : Dev) {i : Nat} (hi : K i) : Follows K d (endsWorker d i) := by
  rw [endsWorker]
  split
  · exact follows_setPeer d hi _
  · exact .refl d

theorem getPeer_endsWorker (d : Dev) (i : Nat) : ∃ b, getPeer (endsWorker d i) i =
    { getPeer d i with bcast := if (getPeer d i).bcast = 1 then 3 else (getPeer d i).bcast, beating := b } := by
  rw [endsWorker]
  split
  · exact ⟨false, getPeer_setPeer ..⟩
  · exact ⟨(getPeer d i).beating, rfl⟩

/-- The messages that tell of a mark. -/
theorem follows_told (d : Dev) (i : Nat) (cause : BitVec 3) :
    Follows noPeer (applyMark (endsWorker d i) i cause) (markWorker d i cause) := by
  rw [markWorker_eq]
  split
  · exact .refl _
  · exact follows_sends (fun _ => .absentSet (BitVec.ofNat 2 i) cause) _ _

include hf

theorem noFwds_endsWorker : (endsWorker d i).link.fwds = [] := ((follows_endsWorker (K := fun _ => True) d trivial).fwds).trans hf

theorem follows_markWorker {K : Nat → Prop} (hi : K i) : Follows K d (markWorker d i cause) :=
  ((follows_endsWorker d hi).trans (follows_applyMark (noFwds_endsWorker hf i) i cause hi)).trans (follows_told d i cause).of_noPeer

/-- A marked worker keeps what its mark and the broadcast leave alone. -/
theorem getPeer_markWorker : ∃ b c, getPeer (markWorker d i cause) i =
    { getPeer d i with marked := true, cause := cause, bcast := if (getPeer d i).bcast = 1 then 3 else (getPeer d i).bcast,
                       beating := b, detour := c } := by
  obtain ⟨b, hb⟩ := getPeer_endsWorker d i
  obtain ⟨b', hb'⟩ := getPeer_applyMark (noFwds_endsWorker hf i) i cause
  have htold : getPeer (markWorker d i cause) i = _ := (follows_told d i cause).peer i id
  rw [hb', hb] at htold
  exact ⟨b', _, htold⟩

theorem markWorker_marks : markedAs (markWorker d i cause) i cause := by
  obtain ⟨b, c, h⟩ := getPeer_markWorker hf i cause
  exact ⟨by rw [h], by rw [h]⟩

theorem markWorker_raises (h : (getPeer d i).marked = false) : isPending (markWorker d i cause) Ev.INSTANCE_ABSENT := by
  obtain ⟨b, hb⟩ := getPeer_endsWorker d i
  exact (follows_told d i cause).isPending (by decide)
    (applyMark_raises (noFwds_endsWorker hf i) i cause (by rw [hb]; exact h))

end MarkWorker

theorem endBcast_eq (d : Dev) : ∃ busy joining, endBcast d = { d with link := { d.link with bcastBusy := busy, joining := joining } } := by
  rw [endBcast]
  split
  · exact ⟨d.link.bcastBusy, d.link.joining, rfl⟩
  · exact ⟨false, none, rfl⟩

theorem follows_endBcast (d : Dev) : Follows noPeer d (endBcast d) := by
  obtain ⟨b, j, h⟩ := endBcast_eq d
  rw [h]
  exact ⟨rfl, rfl, rfl, rfl, rfl, rfl, rfl, linksKept_of_link rfl, fun _ _ => .refl _, keepsRegs_of_regs rfl⟩

/-- A worker's failure in the broadcast marks it, and raises BCAST_FAIL (R468). -/
theorem bcastFail_fails {d : Dev} (hf : d.link.fwds = []) (i : Nat) (cause : BitVec 3) :
    markedAs (bcastFail d i cause) i cause ∧ (getPeer (bcastFail d i cause) i).bcast = 3 ∧ isPending (bcastFail d i cause) Ev.BCAST_FAIL ∧
      Follows (· = i) d (bcastFail d i cause) := by
  let d1 := raise (setPeer d i { getPeer d i with bcast := 3 }) Ev.BCAST_FAIL
  have h1 : Follows (· = i) d d1 := (follows_setPeer (K := (· = i)) d rfl _).trans (follows_raise ..).of_noPeer
  have hf1 : d1.link.fwds = [] := h1.fwds.trans hf
  have hpeer : getPeer d1 i = { getPeer d i with bcast := 3 } := by
    rw [getPeer, raise_link]
    exact getPeer_setPeer ..
  have hmark := follows_markWorker hf1 i cause (K := (· = i)) rfl
  have hend := follows_endBcast (markWorker d1 i cause)
  have hkept := hend.peer i id
  obtain ⟨b, c, hb⟩ := getPeer_markWorker hf1 i cause
  refine ⟨hkept.markedAs (markWorker_marks hf1 i cause), ?_, hend.isPending (by decide) (hmark.isPending (by decide) ?_),
    (h1.trans hmark).trans hend.of_noPeer⟩
  · refine hkept.bcast_eq.trans ?_
    rw [hb, hpeer]
    rfl
  · exact isPending_raise _ none none (by decide)

end Sys2Proof.Machine
end

section
/-!
Marks and heartbeats: the commands that mark, isolate, evict and clear instances, the manager's interval and a worker's answer
(R452, R466, R469 to R474).
-/
namespace Sys2Proof.Machine
open Sys2Proof.Claims

/-! ## Conditions as the units read them -/

section Conditions
variable {d : Dev} {i : BitVec 2}

theorem ne_me (h : isOther d i) : i.toNat ≠ me d := fun he => h (BitVec.eq_of_toNat_eq he)

theorem mem_others (h : isOther d i) : i.toNat ∈ others d := by
  simp only [others, instances, List.mem_filter, List.mem_range, decide_eq_true_eq]
  exact ⟨i.isLt, ne_me h⟩

theorem others_nodup (d : Dev) : (others d).Nodup := List.Nodup.filter _ List.nodup_range

theorem worker_acts (h : asWorker d) : (d.pins.rstAsserted || isManager d) = false := by rw [h.1, h.2]; rfl
theorem manager_acts (h : asManager d) : (d.pins.rstAsserted || !isManager d) = false := by rw [h.1, h.2]; rfl

end Conditions

/-! ## A worker (R470, R471, R474) -/

theorem isolate_first {d : Dev} (h : d.link.isolated = false) : isolate d =
    raise { d with link := { d.link with isolated := true }, pins := { d.pins with ready := false } } Ev.ISOLATED := by
  rw [isolate, if_neg (by rw [h]; decide)]

theorem isolate_again {d : Dev} (h : d.link.isolated = true) : isolate d = d := by rw [isolate, if_pos h]

theorem isolate_isolates {d : Dev} (h : d.link.isolated = false) :
    (isolate d).link.isolated = true ∧ (isolate d).pins.ready = false ∧ isPending (isolate d) Ev.ISOLATED := by
  rw [isolate_first h]
  refine ⟨?_, ?_, isPending_raise _ none none (by decide)⟩
  · rw [raise_link]
  · rw [raise_pins]

section Worker
variable {d : Dev} (hw : asWorker d) {i : BitVec 2}
include hw

theorem absentSet_other (hi : isOther d i) (cause : BitVec 3) : absentSet d i.toNat cause = applyMark d i.toNat cause := by
  rw [absentSet, if_neg (by rw [worker_acts hw]; decide), if_neg (ne_me hi)]

theorem absentSet_self (hi : i = d.boot.inst) (cause : BitVec 3) : absentSet d i.toNat cause = isolate d := by
  rw [absentSet, if_neg (by rw [worker_acts hw]; decide), if_pos (by rw [hi]; rfl)]

theorem absentClear_other (hi : isOther d i) (hm : (getPeer d i.toNat).marked = true) :
    absentClear d i.toNat = setPeer d i.toNat { getPeer d i.toNat with marked := false, cause := 0 } := by
  have hme : decide (i.toNat = me d) = false := decide_eq_false (ne_me hi)
  rw [absentClear, if_neg (by rw [worker_acts hw, hme, hm]; decide)]
  rfl

end Worker

/-! ## The manager (R466, R470, R473) -/

section Manager
variable {d : Dev} (hm : asManager d) {i : BitVec 2} (hi : isOther d i)
include hm

theorem bcastTimeout_fails (hb : (getPeer d i.toNat).bcast = 1) : bcastTimeout d i.toNat = bcastFail d i.toNat 2 := by
  rw [bcastTimeout, if_neg (by rw [manager_acts hm, hb]; decide)]

include hi

theorem leave_marks (hmark : (getPeer d i.toNat).marked = false) : leave d i.toNat = endBcast (markWorker d i.toNat 4) := by
  have hme : decide (i.toNat = me d) = false := decide_eq_false (ne_me hi)
  rw [leave, if_neg (by rw [manager_acts hm, hme, hmark]; decide)]

theorem evictInst_marks (hmark : (getPeer d i.toNat).marked = false) :
    evictInst d i.toNat = (endBcast (markWorker d i.toNat 5), true) := by
  have hme : decide (i.toNat = me d) = false := decide_eq_false (ne_me hi)
  rw [evictInst, if_neg (by rw [hm.2, hme]; decide), if_neg (by rw [hmark]; decide)]

end Manager

/-- A worker that the manager marks, with the broadcast ended where it was the last (R470). -/
theorem endBcast_markWorker {d : Dev} (hf : d.link.fwds = []) {i : Nat} (cause : BitVec 3) (hmark : (getPeer d i).marked = false) :
    markedAs (endBcast (markWorker d i cause)) i cause ∧ isPending (endBcast (markWorker d i cause)) Ev.INSTANCE_ABSENT :=
  ⟨((follows_endBcast _).peer i id).markedAs (markWorker_marks hf i cause),
    (follows_endBcast _).isPending (by decide) (markWorker_raises hf i cause hmark)⟩

/-! ## DLK_JOIN (R470, R474) -/

theorem unpaired_join : Unpaired 0xF034 := ⟨by decide, by decide⟩

/-- The write of DLK_JOIN that EVICT is. -/
def evictWord (i : BitVec 2) : Word := 0x80000000 ||| i.setWidth 32
/-- The write of DLK_JOIN that JOIN is. -/
def joinWord (i : BitVec 2) : Word := 0x40000000 ||| i.setWidth 32

theorem joinCmd_evict (d : Dev) : ∀ i : BitVec 2, joinCmd d (evictWord i) = evictInst d i.toNat := by
  have hbits : ∀ i : BitVec 2, bits (evictWord i) 31 30 = 2 ∧ bits (evictWord i) 1 0 = i.toNat := by decide
  intro i
  rw [joinCmd, (hbits i).1, (hbits i).2]
  rfl

theorem joinCmd_join (d : Dev) : ∀ i : BitVec 2, joinCmd d (joinWord i) = joinInst d i.toNat := by
  have hbits : ∀ i : BitVec 2, bits (joinWord i) 31 30 = 1 ∧ bits (joinWord i) 1 0 = i.toNat := by decide
  intro i
  rw [joinCmd, (hbits i).1, (hbits i).2]
  rfl

theorem regCmd_join (m : SMap DLine) (d : Dev) (v : Word) : regCmd m d 0xF034 v = some ((m, (joinCmd d v).1), (joinCmd d v).2) := rfl

/-- EVICT and JOIN are writes of DLK_JOIN. -/
theorem ends_join {c : Instr} {s : State} {v : Word} {P : Dev → Prop} (hc : exec c s = hostCmd 0xF034 v s) (hs : hostServed s.dev 0xF034)
    (hP : P (commandEnd (joinCmd (atPort s.dev) v).1 (joinCmd (atPort s.dev) v).2 0xF034 v)) : EndsDev c s P :=
  ends_command hc hs unpaired_join (regCmd_join _ _ _) hP

end Sys2Proof.Machine

section
open Sys2Proof Sys2Proof.Machine Sys2Proof.Claims

/-- Settles O45: each command is one mark, one isolation or one cleared mark. -/
theorem instancesAreMarked : Obligations.InstancesAreMarked := by
  intro i s hf
  refine ⟨fun hw hi cause => ?_, fun hw hi hiso cause => ?_, fun hw hi hm => ?_, fun hm hi hmark => ⟨?_, fun hb => ?_, fun hs => ?_⟩,
    fun hs hworker => ?_⟩
  · refine endsDev_of_onDev (f := (absentSet · i.toNat cause)) rfl ?_
    rw [absentSet_other hw hi]
    exact ⟨applyMark_marks hf i.toNat cause, applyMark_raises hf i.toNat cause⟩
  · refine endsDev_of_onDev (f := (absentSet · i.toNat cause)) rfl ?_
    rw [absentSet_self hw hi]
    exact isolate_isolates hiso
  · refine endsDev_of_onDev (f := (absentClear · i.toNat)) rfl ?_
    rw [absentClear_other hw hi hm]
    exact ⟨getPeer_setPeer .., rfl⟩
  · refine endsDev_of_onDev (f := (leave · i.toNat)) rfl ?_
    rw [leave_marks hm hi hmark]
    exact endBcast_markWorker hf 4 hmark
  · refine endsDev_of_onDev (f := (bcastTimeout · i.toNat)) rfl ?_
    rw [bcastTimeout_fails hm hb]
    obtain ⟨hmarked, hthree, hpending, -⟩ := bcastFail_fails hf i.toNat 2
    exact ⟨hmarked, hthree, hpending⟩
  · refine ends_join (v := evictWord i) rfl hs ?_
    rw [joinCmd_evict, evictInst_marks (d := atPort s.dev) hm hi hmark]
    obtain ⟨hmarked, hpending⟩ := endBcast_markWorker (d := atPort s.dev) hf 5 hmark
    exact ⟨hmarked, hpending, rfl⟩
  · refine ends_join (v := evictWord i) rfl hs ?_
    have hout : evictInst (atPort s.dev) i.toNat = (atPort s.dev, false) := by
      rw [evictInst, if_pos]
      rw [show isManager (atPort s.dev) = false from hworker]
      rfl
    rw [joinCmd_evict, hout, commandEnd_ignored (by rw [isHemCmd]; rfl)]
    exact ⟨lint_link .., rfl⟩

end
end

section
/-!
Heartbeats: the manager's interval, a worker's answer to it, the loss of the manager, and reports (R452, R469 to R472).
-/
namespace Sys2Proof.Machine
open Sys2Proof.Claims

/-- A step on each of a list of peers leaves what it shows of one of them at its turn, where the others' turns do not touch it. -/
theorem turn_of_mem {g : Dev → Nat → Dev} {I : Dev → Prop} (hI : ∀ d i, I d → I (g d i)) (hf : ∀ d, I d → ∀ i, Follows (· = i) d (g d i))
    {l : List Nat} (hl : l.Nodup) {i : Nat} (hi : i ∈ l) {d : Dev} (hd : I d) :
    ∃ e, I e ∧ Follows (· ≠ i) d e ∧ Follows (· ≠ i) (g e i) (l.foldl g d) := by
  have hrun : ∀ (l : List Nat) (d : Dev), I d → i ∉ l → Follows (· ≠ i) d (l.foldl g d) := by
    intro l
    induction l with
    | nil => exact fun d _ _ => .refl d
    | cons k l ih =>
      intro d hd hk
      rw [List.mem_cons, not_or] at hk
      exact ((hf d hd k).mono fun j (hj : j = k) (hji : j = i) => hk.1 (hji.symm.trans hj)).trans (ih (g d k) (hI d k hd) hk.2)
  induction l generalizing d with
  | nil => simp at hi
  | cons k l ih =>
    rw [List.nodup_cons] at hl
    by_cases hk : i = k
    · subst hk
      exact ⟨d, hd, .refl d, hrun l (g d i) (hI d i hd) hl.1⟩
    · obtain ⟨e, he, hbefore, hafter⟩ := ih hl.2 (List.mem_of_ne_of_mem hk hi) (hI d k hd)
      exact ⟨e, he, ((hf d hd k).mono fun j (hj : j = k) (hji : j = i) => hk (hji.symm.trans hj)).trans hbefore, hafter⟩

/-- No forwarded request is outstanding. -/
def noFwds (d : Dev) : Prop := d.link.fwds = []

theorem Follows.noFwds {K : Nat → Prop} {d e : Dev} (h : Follows K d e) (hd : noFwds d) : noFwds e := h.fwds.trans hd

/-! ## The manager's interval (R469) -/

/-- Misses of a worker at an interval. -/
def missesOf (p : Peer) : Nat := if p.hbWaiting then min 15 (p.misses + 1) else 0

/-- What the interval counts of a worker. -/
def countMiss (d : Dev) (i : Nat) : Dev := setPeer d i { getPeer d i with misses := missesOf (getPeer d i), hbWaiting := true }

/-- The mark of a worker at its limit. -/
def beatMark (d : Dev) (i : Nat) : Dev :=
  if max 1 (rbits d 0xF004 23 20) ≤ missesOf (getPeer d i) then markWorker (countMiss d i) i 1 else countMiss d i

theorem beatOne_eq (d : Dev) (i : Nat) : beatOne d i = if !(getPeer d i).beating || (getPeer d i).marked then d
    else send (beatMark d i) i (.heartbeat d.link.hbSeq (presentSet (beatMark d i))) := rfl

theorem getPeer_countMiss (d : Dev) (i : Nat) :
    getPeer (countMiss d i) i = { getPeer d i with misses := missesOf (getPeer d i), hbWaiting := true } := getPeer_setPeer ..

theorem follows_countMiss (d : Dev) (i : Nat) : Follows (· = i) d (countMiss d i) := follows_setPeer d (K := (· = i)) rfl _

theorem follows_beatMark {d : Dev} (hd : d.link.fwds = []) (i : Nat) : Follows (· = i) d (beatMark d i) := by
  have hcount := follows_countMiss d i
  rw [beatMark]
  split
  · exact hcount.trans (follows_markWorker (hcount.fwds.trans hd) i 1 rfl)
  · exact hcount

theorem follows_beatOne {d : Dev} (hd : d.link.fwds = []) (i : Nat) : Follows (· = i) d (beatOne d i) := by
  rw [beatOne_eq]
  split
  · exact .refl d
  · exact (follows_beatMark hd i).trans (follows_send ..).of_noPeer

theorem beatMark_counts {d : Dev} (hd : d.link.fwds = []) (i : Nat) (hmark : (getPeer d i).marked = false) :
    (getPeer (beatMark d i) i).misses = missesOf (getPeer d i) ∧
      (missesOf (getPeer d i) < max 1 (rbits d 0xF004 23 20) →
        (getPeer (beatMark d i) i).hbWaiting = true ∧ (getPeer (beatMark d i) i).marked = false) ∧
      (max 1 (rbits d 0xF004 23 20) ≤ missesOf (getPeer d i) →
        markedAs (beatMark d i) i 1 ∧ isPending (beatMark d i) Ev.INSTANCE_ABSENT) := by
  have hcount := getPeer_countMiss d i
  have hd1 : (countMiss d i).link.fwds = [] := hd
  rw [beatMark]
  by_cases hlimit : max 1 (rbits d 0xF004 23 20) ≤ missesOf (getPeer d i)
  · rw [if_pos hlimit]
    obtain ⟨b, c, hp⟩ := getPeer_markWorker hd1 i 1
    refine ⟨by rw [hp, hcount], fun h => absurd hlimit (Nat.not_le.mpr h), fun _ => ⟨markWorker_marks hd1 i 1, markWorker_raises hd1 i 1 ?_⟩⟩
    rw [hcount]
    exact hmark
  · rw [if_neg hlimit, hcount]
    exact ⟨rfl, fun _ => ⟨rfl, hmark⟩, fun h => absurd h hlimit⟩

/-- The interval's new number. -/
def nextBeat (d : Dev) : Dev := onLinkState d fun p => { p with hbSeq := p.hbSeq + 1 }

theorem heartbeatSend_eq {d : Dev} (hm : asManager d) : heartbeatSend d = (others d).foldl beatOne (nextBeat d) := by
  rw [heartbeatSend, if_neg (by rw [manager_acts hm]; decide)]
  rfl

/-! ## A worker's answer (R469 to R471) -/

theorem follows_followPresent (present : BitVec 4) {d : Dev} (hd : d.link.fwds = []) (i : Nat) :
    Follows (· = i) d (followPresent present d i) := by
  have hfree : Follows (· = i) d { d with free := d.free + 1 } :=
    ⟨rfl, rfl, rfl, rfl, rfl, rfl, rfl, linksKept_of_link rfl, fun _ _ => .refl _, keepsRegs_of_regs rfl⟩
  rw [followPresent]
  split
  · split
    · exact follows_clearMark d rfl
    · exact .refl d
  · split
    · exact .refl d
    · exact hfree.trans (follows_applyMark (d := { d with free := d.free + 1 }) hd i _ rfl)

theorem marked_followPresent (present : BitVec 4) {d : Dev} (hd : d.link.fwds = []) (i : Nat) :
    (getPeer (followPresent present d i) i).marked = !present.getLsbD i := by
  rw [followPresent]
  cases hbit : present.getLsbD i with
  | true =>
    rw [if_pos rfl]
    cases hm : (getPeer d i).marked with
    | true => rw [if_pos rfl, clearMark, getPeer_setPeer]; rfl
    | false => rw [if_neg (by decide), hm]; rfl
  | false =>
    rw [if_neg (by decide)]
    cases hm : (getPeer d i).marked with
    | true => rw [if_pos rfl, hm]; rfl
    | false => rw [if_neg (by decide)]; exact (applyMark_marks (d := { d with free := d.free + 1 }) hd i _).1

/-- The worker has heard its manager. -/
def heard (d : Dev) : Dev := onLinkState d fun p => { p with mgrLost := false, beatT := d.cycle, beatE := d.energy.eclk }

/-- A worker's marks after a heartbeat. -/
def followed (d : Dev) (present : BitVec 4) : Dev := (others d).foldl (followPresent present) (heard d)

/-- It is isolated where its own bit is 0. -/
def followedSelf (d : Dev) (present : BitVec 4) : Dev :=
  if present.getLsbD (me d) then followed d present else isolate (followed d present)

theorem heartbeat_eq {d : Dev} (hw : asWorker d) (q : BitVec 8) (present : BitVec 4) (toggled : Bool) : heartbeat d q present toggled =
    if toggled && isAlive d then send (followedSelf d present) d.boot.mgr.toNat
      (.hbAck q (followedSelf d present).pins.ready (followedSelf d present).boot.stFatal)
    else followedSelf d present := by
  rw [heartbeat, if_neg (by rw [worker_acts hw]; decide)]
  rfl

theorem follows_answer (d : Dev) (hw : asWorker d) (q : BitVec 8) (present : BitVec 4) (toggled : Bool) :
    Follows noPeer (followedSelf d present) (heartbeat d q present toggled) := by
  rw [heartbeat_eq hw]
  split
  · exact follows_send ..
  · exact .refl _

theorem followedSelf_link (d : Dev) (present : BitVec 4) : (followedSelf d present).link = { (followed d present).link with isolated := (followedSelf d present).link.isolated } := by
  rw [followedSelf]
  split
  · rfl
  · rw [isolate]
    split
    · rfl
    · rw [raise_link]

theorem getPeer_followedSelf (d : Dev) (present : BitVec 4) (k : Nat) : getPeer (followedSelf d present) k = getPeer (followed d present) k := by
  rw [getPeer, followedSelf_link d present]
  rfl

section Heard
variable {d : Dev} (hd : d.link.fwds = []) (present : BitVec 4)
include hd

theorem follows_followed : Follows (fun _ => True) (heard d) (followed d present) := by
  have hrun : ∀ (l : List Nat) (d : Dev), d.link.fwds = [] → Follows (fun _ => True) d (l.foldl (followPresent present) d) := by
    intro l
    induction l with
    | nil => exact fun d _ => .refl d
    | cons k l ih =>
      intro d hd
      have hstep := follows_followPresent present hd k
      exact (hstep.mono fun _ _ => trivial).trans (ih _ (hstep.fwds.trans hd))
  exact hrun (others d) (heard d) hd

theorem marked_followed {i : BitVec 2} (hi : isOther d i) : (getPeer (followed d present) i.toNat).marked = !present.getLsbD i.toNat := by
  obtain ⟨e, he, -, hafter⟩ := turn_of_mem (g := followPresent present) (I := noFwds) (fun d i hd => (follows_followPresent present hd i).noFwds hd)
    (fun d hd i => follows_followPresent present hd i) (others_nodup d) (mem_others hi) (d := heard d) hd
  exact (hafter.peer i.toNat fun h => h rfl).marked_eq.trans (marked_followPresent present he i.toNat)

end Heard

/-! ## The loss of the manager, and reports (R452, R472) -/

theorem managerLost_first {d : Dev} (hw : asWorker d) (happly : d.link.applyAt = true) (hfirst : d.link.mgrLost = false) :
    managerLost d = lint (raise (onLinkState d fun p => { p with mgrLost := true }) Ev.MANAGER_LOST) 0x31 := by
  rw [managerLost, if_neg (by rw [worker_acts hw, happly, hfirst]; decide)]

theorem report_present {d : Dev} (hm : asManager d) {i : Nat} (hi : isAbsent d i = false) (ph : BitVec 4) (pt : BitVec 2) (a : BitVec 24) :
    report d i ph pt a = applyReport d i ph.toNat pt.toNat a.toNat := by
  rw [report, if_neg (by rw [manager_acts hm, hi]; decide)]

theorem histAt_applyReport (d : Dev) (i ph pt a : Nat) : histAt (applyReport d i ph pt a) i ph =
    ((histAt d i ph : Int) + ((a * 256 / max 1 (ratio d pt) : Nat) - (histAt d i ph : Int)) / 2 ^ rbits d 0xE000 27 24).toNat :=
  mgetD_mputD ..

end Sys2Proof.Machine

section
open Sys2Proof Sys2Proof.Machine Sys2Proof.Claims

/-- Settles O44: what the turn of one peer shows, kept by the turns of the others. -/
theorem heartbeatsKeepThePresentSet : Obligations.HeartbeatsKeepThePresentSet := by
  refine ⟨fun i s hm hi hf hbeat hmark => ?_, fun q present tg s hw hf => ?_, fun i q r f s hm hq => ?_, fun s hw happly hfirst => ?_,
    fun i ph pt a s hm hi => ?_⟩
  · refine endsDev_of_onDev (f := heartbeatSend) rfl ?_
    rw [heartbeatSend_eq hm]
    obtain ⟨e, he, hbefore, hafter⟩ := turn_of_mem (g := beatOne) (I := noFwds) (fun d i hd => (follows_beatOne hd i).noFwds hd)
      (fun d hd i => follows_beatOne hd i) (others_nodup s.dev) (mem_others hi) (d := nextBeat s.dev) hf
    have hpeer : SamePeer (getPeer s.dev i.toNat) (getPeer e i.toNat) := hbefore.peer i.toNat fun h => h rfl
    have hbeat' : beatOne e i.toNat = send (beatMark e i.toNat) i.toNat (.heartbeat e.link.hbSeq (presentSet (beatMark e i.toNat))) := by
      rw [beatOne_eq, if_neg (by rw [hpeer.beating_eq, hpeer.marked_eq, hbeat, hmark]; decide)]
    have hlast : SamePeer (getPeer (beatMark e i.toNat) i.toNat) (getPeer ((others s.dev).foldl beatOne (nextBeat s.dev)) i.toNat) := by
      refine SamePeer.trans ?_ (hafter.peer i.toNat fun h => h rfl)
      rw [hbeat']
      exact (follows_send ..).peer i.toNat id
    have hmisses : missesOf (getPeer e i.toNat) = missesOf (getPeer s.dev i.toNat) := by
      rw [missesOf, missesOf, hpeer.hbWaiting_eq, hpeer.misses_eq]
    have hlimit : rbits e 0xF004 23 20 = rbits s.dev 0xF004 23 20 := hbefore.rbits_eq (by decide) (by decide) 23 20
    obtain ⟨hcount, hbelow, hat⟩ := beatMark_counts he i.toNat (hpeer.marked_eq.trans hmark)
    rw [hmisses] at hcount hbelow hat
    rw [hlimit] at hbelow hat
    refine ⟨?_, hlast.misses_eq.trans hcount, fun h => ?_, fun h => ?_⟩
    · exact (hafter.hbSeq.trans ((follows_beatOne he i.toNat).hbSeq)).trans hbefore.hbSeq
    · exact ⟨hlast.hbWaiting_eq.trans (hbelow h).1, hlast.marked_eq.trans (hbelow h).2⟩
    · refine ⟨hlast.markedAs (hat h).1, hafter.isPending (by decide) ?_⟩
      rw [hbeat']
      exact (follows_send ..).isPending (by decide) (hat h).2
  · refine endsDev_of_onDev (f := (heartbeat · q present tg)) rfl ?_
    have hanswer := follows_answer s.dev hw q present tg
    have hfollowed := follows_followed hf present
    refine ⟨?_, fun i hi => ?_, fun hself => ?_⟩
    · rw [hanswer.mgrLost, followedSelf_link s.dev present]
      exact hfollowed.mgrLost
    · refine (hanswer.peer i.toNat id).marked_eq.trans ?_
      rw [getPeer_followedSelf s.dev present]
      exact marked_followed hf present hi
    · have hout : followedSelf s.dev present = isolate (followed s.dev present) := by
        rw [followedSelf, if_neg (by rw [me, hself]; decide)]
      rw [hout] at hanswer
      cases hiso : (followed s.dev present).link.isolated with
      | true =>
        rw [isolate_again hiso] at hanswer
        refine ⟨hanswer.isolated.trans hiso, fun hfirst => ?_⟩
        exact absurd (hfollowed.isolated.symm.trans hiso) (by rw [show (heard s.dev).link.isolated = false from hfirst]; decide)
      | false =>
        obtain ⟨hset, hready, hpending⟩ := isolate_isolates hiso
        exact ⟨hanswer.isolated.trans hset, fun _ => ⟨by rw [hanswer.pins]; exact hready, hanswer.isPending (by decide) hpending⟩⟩
  · refine endsDev_of_onDev (f := (hbAck · i.toNat q)) rfl ?_
    have hout : hbAck s.dev i.toNat q = setPeer s.dev i.toNat { getPeer s.dev i.toNat with hbWaiting := false } := by
      rw [hbAck, if_neg (by rw [manager_acts hm, hq]; simp)]
    rw [hout]
    exact ⟨getPeer_setPeer .., fun k hk => getPeer_setPeer_ne _ _ _ _ hk⟩
  · refine endsDev_of_onDev (f := managerLost) rfl ?_
    rw [managerLost_first hw happly hfirst]
    refine ⟨?_, (follows_lint ..).isPending (by decide) (isPending_raise _ none none (by decide))⟩
    rw [lint_link, raise_link]
    rfl
  · refine endsDev_of_onDev (f := (report · i.toNat ph pt a)) rfl ?_
    rw [report_present hm hi]
    exact ⟨histAt_applyReport .., rfl⟩

end
end

section
/-!
Forwarded requests at both ends, skipped numbers and relayed messages (R460, R464, R465).
-/
namespace Sys2Proof.Machine
open Sys2Proof.Claims

/-! ## At the owner (R464) -/

section Owner
variable {d : Dev} {m : Msg}

theorem presentHeld_of_none {n i : Nat} {d : Dev} (h : mget (getPeer d i).reorder (getPeer d i).seqIn.toNat = none) : presentHeld n d i = d := by
  cases n with
  | zero => rfl
  | succ n => rw [presentHeld, h]

variable {q : BitVec 16} {ma : Fin 24} {tag : Nat} {ty : TypeCode} {a : BitVec 34} {len : BitVec 7} {h : BitVec 2} {attr : BitVec 16} {pr : BitVec 3}
  {beats : List (BeatEn × BeatData)} (hbody : m.body = .req q ma tag ty a len h attr pr beats)
include hbody

/-- The request's transaction at its owner, which M19 presents. -/
def ownerTxn (m : Msg) (tag : Nat) (ty : TypeCode) (a : BitVec 34) (len : BitVec 7) (h : BitVec 2) (attr : BitVec 16)
    (beats : List (BeatEn × BeatData)) : Txn :=
  ⟨.remote m.src tag, 19, kindOfCode ty.toNat, if kindOfCode ty.toNat = .atomic then aopOf attr else 0, a, len.toNat + 1,
    (kindOfCode ty.toNat).hint (hintOf h), attr, beats, 0, none, false, 0, false, 0, 0, [], 0, [], false, false, none⟩

theorem presentReq_ready (hready : d.pins.ready = true) : presentReq d m =
    queueAt (newTxn d (ownerTxn m tag ty a len h attr beats)).2 19 d.nextTxn := by
  rw [presentReq, hbody]
  dsimp only
  rw [if_neg (by rw [hready]; decide)]
  rfl

/-- A request in order, of an instance of which nothing is held back, is presented. -/
theorem reqMessage_inOrder (hrst : d.pins.rstAsserted = false) (hdst : m.dst = d.boot.inst) (hsrc : m.src ≠ d.boot.inst)
    (hskip : (getPeer d m.src.toNat).skipped = []) (hheld : (getPeer d m.src.toNat).reorder = [])
    (hseq : (getPeer d m.src.toNat).seqIn = q) : reqMessage d m =
      presentReq (setPeer (linkRx d m.body) m.src.toNat { getPeer d m.src.toNat with seqIn := q + 1 }) m := by
  have hlate : isLate (getPeer d m.src.toNat) q = false := by rw [isLate, hskip]; rfl
  have hpeer : ({ getPeer d m.src.toNat with
      seqIn := (getPeer d m.src.toNat).seqIn + 1, skipped := (getPeer d m.src.toNat).skipped.erase q.toNat } : Peer) =
      { getPeer d m.src.toNat with seqIn := q + 1 } := by
    have herase : (getPeer d m.src.toNat).skipped.erase q.toNat = (getPeer d m.src.toNat).skipped := by rw [hskip]; rfl
    rw [herase, hseq]
  rw [reqMessage, hbody]
  dsimp only
  rw [if_neg (by simp [hrst, hdst, hsrc]), if_neg (by rw [hlate]; decide), if_pos hseq.symm, hpeer]
  have hnone : (getPeer d m.src.toNat).reorder.length = 0 := by rw [hheld]; rfl
  rw [hnone]
  rfl

theorem reqMessage_presents (hrst : d.pins.rstAsserted = false) (hdst : m.dst = d.boot.inst) (hsrc : m.src ≠ d.boot.inst)
    (hskip : (getPeer d m.src.toNat).skipped = []) (hheld : (getPeer d m.src.toNat).reorder = [])
    (hseq : (getPeer d m.src.toNat).seqIn = q) (hready : d.pins.ready = true) :
    getPeer (reqMessage d m) m.src.toNat = { getPeer d m.src.toNat with seqIn := q + 1 } ∧
      (getMaster (reqMessage d m) 19).queue = (getMaster d 19).queue ++ [d.nextTxn] ∧
      getTxn (reqMessage d m) d.nextTxn = some (ownerTxn m tag ty a len h attr beats) ∧ (reqMessage d m).regs = d.regs := by
  rw [reqMessage_inOrder hbody hrst hdst hsrc hskip hheld hseq,
    presentReq_ready (d := setPeer (linkRx d m.body) m.src.toNat { getPeer d m.src.toNat with seqIn := q + 1 }) hbody hready]
  refine ⟨getPeer_setPeer .., ?_, mget_minsert .., rfl⟩
  rw [queueAt, getMaster, getMaster, setMaster]
  exact congrArg Master.queue (mgetD_mputD ..)

end Owner

/-- A number that never came is skipped (R464). -/
theorem reqSeqSkip_skips {d : Dev} {i : Nat} (hrst : d.pins.rstAsserted = false) (htmo : rbits d 0xF004 31 24 ≠ 0)
    (hheld : (getPeer d i).reorder ≠ []) (hnext : mget (getPeer d i).reorder ((getPeer d i).seqIn + 1).toNat = none) :
    getPeer (reqSeqSkip d i) i =
      { getPeer d i with seqIn := (getPeer d i).seqIn + 1, skipped := (getPeer d i).seqIn.toNat :: (getPeer d i).skipped } := by
  rw [reqSeqSkip, if_neg (by simp [hrst, htmo, hheld]), presentHeld_of_none (by rw [getPeer_setPeer]; exact hnext), getPeer_setPeer]

/-! ## At the forwarding instance (R465) -/

section Forwarder
variable {d : Dev} {id : Nat} {x : Txn} {n : Nat} {ptag : BitVec 8} (hx : getTxn d id = some x) (hsrc : x.src = .port n ptag)
  (hsilent : x.silent = false) (hmask : d.pins.mask.getLsbD n = false)
include hx hsrc hsilent hmask

/-- A forwarded request of a port that is neither silent nor masked ends with its response at the port. -/
theorem finishFwd_answers (c : Rsp) (data : List BeatData) (poison : List (BitVec 8)) (record : Bool) :
    (getPort (finishFwd d id c data poison record) n).done = (getPort d n).done ++ [(id, x.reserved, ⟨ptag, c, data, poison⟩)] ∧
      (finishFwd d id c data poison record).link.fwds = d.link.fwds.filter (fun e => e.1 ≠ id) ∧
      (finishFwd d id c data poison record).tiles = d.tiles ∧ (finishFwd d id c data poison record).regs = d.regs := by
  have hx' : getTxn (dropFwd d id) id = some x := hx
  have hlive : (x.silent || (dropFwd d id).pins.mask.getLsbD n) = false := by
    rw [hsilent, show (dropFwd d id).pins.mask.getLsbD n = false from hmask]
    rfl
  rw [finishFwd, hx']
  dsimp only
  rw [hsrc]
  dsimp only
  rw [if_neg (by rw [hlive]; decide)]
  refine ⟨?_, rfl, rfl, rfl⟩
  exact congrArg Port.done (mgetD_mputD Reset.port d.ports n _)

end Forwarder

theorem rspMessage_finishes {d : Dev} {m : Msg} {tag : Nat} {c : Rsp} {ps : List Nat} {data : List BeatData}
    (hbody : m.body = .rsp tag c ps data) (hrst : d.pins.rstAsserted = false) (hdst : m.dst = d.boot.inst)
    (hfwd : ∃ at_, (tag, m.src, at_) ∈ d.link.fwds) : rspMessage d m =
      finishFwd (linkRx d m.body) tag c (if data = [] then [0] else data) (if data = [] then [0] else ps.map (BitVec.ofNat 8)) true := by
  have hany : ((linkRx d m.body).link.fwds.any fun e => e.1 = tag && e.2.1 = m.src) = true := by
    obtain ⟨at_, hmem⟩ := hfwd
    exact List.any_eq_true.mpr ⟨_, hmem, by simp⟩
  rw [rspMessage, if_neg (by simp [hrst, hdst])]
  rw [hbody] at hany ⊢
  dsimp only
  rw [if_pos hany]
  cases data with
  | nil => rfl
  | cons b l => rfl

/-- The request at the head has waited too long. -/
def lateEvent (d : Dev) (x : Txn) : Dev :=
  raise d Ev.REMOTE_TIMEOUT (some x.master) (if x.kind.isTub then none else some (byteAddr x.addr % 2 ^ 37 / 2048))

theorem remoteTimeout_head {d : Dev} {id : Nat} {o : BitVec 2} {at_ : BitVec 64} {rest : List (Nat × BitVec 2 × BitVec 64)} {x : Txn}
    (hfwds : d.link.fwds = (id, o, at_) :: rest) (htmo : rbits d 0xF004 31 24 ≠ 0) (hx : getTxn d id = some x) :
    remoteTimeout d = absentFwd (rinc (lateEvent d x) 0xF040 1) id := by
  rw [remoteTimeout, hfwds]
  dsimp only
  rw [if_neg htmo, hx]
  rfl

/-! ## Relayed messages (R460) -/

theorem relay_passes {d : Dev} {m : Msg} (j : Fin 2) (hdst : m.dst ≠ d.boot.inst) (hrst : d.pins.rstAsserted = false)
    (hup : linkUp d 0 = true) (hup' : linkUp d 1 = true) : relay d j.val m =
      enqueue (linkRx d m.body) (1 - j.val) ⟨m, relayChannel d.boot.inst.toNat j.val m.src.toNat, true⟩ := by
  have hboth : linkUp d j.val = true ∧ linkUp d (1 - j.val) = true := by
    obtain rfl | rfl : j = 0 ∨ j = 1 := by omega
    · exact ⟨hup, hup'⟩
    · exact ⟨hup', hup⟩
  rw [relay, if_neg (by simp [hdst, hrst, hboth.1, hboth.2])]

end Sys2Proof.Machine

section
open Sys2Proof Sys2Proof.Machine Sys2Proof.Claims

/-- Settles O43: each command is one request, one answer or one message that goes on. -/
theorem forwardedRequestsAreServed : Obligations.ForwardedRequestsAreServed := by
  refine ⟨fun m q ma tag ty a len h attr pr beats s hbody hrst hdst hsrc hskip hheld hseq hready => ?_,
    fun i s hrst htmo hheld hnext => ?_, fun m tag c ps data x n ptag s hbody hrst hdst hfwd hx hsrc hsilent hmask => ?_,
    fun id o at_ rest x n ptag s hfwds htmo hx hsrc hsilent hmask => ?_, fun j m s hdst hrst hup hup' => ?_⟩
  · refine endsDev_of_onDev (f := (reqMessage · m)) rfl ?_
    obtain ⟨hpeer, hqueue, htxn, hregs⟩ := reqMessage_presents hbody hrst hdst hsrc hskip hheld hseq hready
    exact ⟨hpeer, hqueue, ⟨_, htxn, rfl, rfl, rfl, rfl, rfl, rfl, rfl⟩, hregs⟩
  · exact endsDev_of_onDev (f := (reqSeqSkip · i.toNat)) rfl (reqSeqSkip_skips hrst htmo hheld hnext)
  · refine endsDev_of_onDev (f := (rspMessage · m)) rfl ?_
    rw [rspMessage_finishes hbody hrst hdst hfwd]
    exact finishFwd_answers (d := linkRx s.dev m.body) hx hsrc hsilent hmask c _ _ true
  · refine endsDev_of_onDev (f := remoteTimeout) rfl ?_
    rw [remoteTimeout_head hfwds htmo hx, absentFwd]
    have hlate : rget (lateEvent s.dev x) 0xF040 = rget s.dev 0xF040 := rget_raise_ne _ _ _ _ _ (by decide)
    obtain ⟨hdone, hleft, htiles, hregs⟩ := finishFwd_answers (d := rinc (lateEvent s.dev x) 0xF040 1) (id := id) (x := x) (n := n) (ptag := ptag)
      (by rw [getTxn, rinc_txns, lateEvent, raise_txns]; exact hx) hsrc hsilent (by rw [rinc_pins, lateEvent, raise_pins]; exact hmask)
      .absent [0] [0] false
    refine ⟨?_, ?_, ?_, ?_, ?_⟩
    · rw [hdone, getPort, rinc_ports, lateEvent, raise_ports]
      rfl
    · rw [hleft, rinc_link, lateEvent, raise_link, hfwds]
      simp
    · rw [counted, rget_congr hregs, toNat_rget_rinc, hlate]
    · rw [isPending, rget_congr hregs, rget_rinc_ne _ _ _ (by decide)]
      exact isPending_raise _ _ _ (by decide)
    · rw [htiles, rinc_tiles, lateEvent, raise_tiles]
  · refine endsDev_of_onDev (f := (relay · j.val m)) rfl ?_
    rw [relay_passes j hdst hrst hup hup']
    refine ⟨?_, getLink_setLink_ne _ _ _ _ (by omega), rfl, rfl⟩
    rw [enqueue, getLink_setLink]
    rfl

end
end

section
/-!
Links that come up, fail and go down, and the paths that come and go with them (R457, R460, R462, R464, R466).
-/
namespace Sys2Proof.Machine
open Sys2Proof.Claims

/-! ## Answers and marks keep the links -/

theorem LinksKept.ite {c : Prop} [Decidable c] {d e f : Dev} (he : LinksKept d e) (hf : LinksKept d f) : LinksKept d (if c then e else f) := by
  split
  · exact he
  · exact hf

theorem linksKept_setLink (d : Dev) (j : Nat) {l : Link} (hstate : l.state = (getLink d j).state) (hmod : l.modules = (getLink d j).modules) :
    LinksKept d (setLink d j l) := by
  refine ⟨fun k => ?_⟩
  by_cases h : k = j
  · subst h
    rw [getLink_setLink]
    exact ⟨hstate, hmod⟩
  · rw [getLink_setLink_ne _ _ _ _ h]
    exact ⟨rfl, rfl⟩

section Answers
variable (d : Dev)

theorem linksKept_raise (e : Nat) (m b : Option Nat := none) : LinksKept d (raise d e m b) := linksKept_of_link (by rw [raise_link])

theorem linksKept_lint (kind : Nat) (w : LintAt) (x y : Nat) : LinksKept d (lint d kind w x y) := linksKept_of_link (by rw [lint_link])

theorem linksKept_answerOut (id : Nat) (c : Rsp) : LinksKept d (answerOut d id c) := by
  fun_cases answerOut
  case case4 => exact (mailed_send ..).links.trans (linksKept_of_link rfl)
  all_goals exact linksKept_of_link rfl

theorem linksKept_setTub (i : Nat) (x : Tub) : LinksKept d (setTub d i x) := linksKept_of_link rfl

theorem linksKept_failGen (g : Nat) : LinksKept d (failGen d g) := by
  unfold failGen
  extract_lets free m d0 d1
  have h1 : LinksKept d d1 := by
    dsimp only [d1]
    split
    · exact linksKept_of_link rfl
    · exact linksKept_of_link rfl
  split
  · exact h1.trans ((linksKept_setTub ..).trans (linksKept_raise ..))
  · exact h1

theorem linksKept_m16Answer (x : Txn) (g chunk : Nat) : LinksKept d (m16Answer d x g chunk) := by
  unfold m16Answer
  extract_lets m upd t d1 ready m1 d2 d3 dec d4
  have hupd (f : Lease → Option Lease) : LinksKept d (upd f) := linksKept_of_link rfl
  split
  · have h2 : LinksKept d d2 := linksKept_of_link rfl
    exact .ite (h2.trans (linksKept_failGen ..)) h2
  · exact .ite ((hupd _).trans (linksKept_failGen ..)) (hupd _)
  · have h4 : LinksKept d d4 := linksKept_of_link rfl
    exact .ite (h4.trans (linksKept_answerOut ..)) h4

theorem linksKept_respond (id : Nat) (c : Rsp) : LinksKept d (respond d id c) := by
  unfold respond
  split
  · split
    · exact (linksKept_answerOut ..).trans (linksKept_m16Answer ..)
    · exact linksKept_answerOut ..
  · exact .refl d

theorem linksKept_absentFwd (id : Nat) : LinksKept d (absentFwd d id) := by
  unfold absentFwd finishFwd
  split
  · exact linksKept_of_link rfl
  · dsimp only
    split
    · exact .ite (linksKept_of_link rfl) (linksKept_of_link rfl)
    · exact (linksKept_of_link (d := d) (e := dropFwd d id) rfl).trans (linksKept_respond ..)

theorem LinksKept.foldl {α : Type} {g : Dev → α → Dev} (hg : ∀ d a, LinksKept d (g d a)) (l : List α) (d : Dev) :
    LinksKept d (l.foldl g d) := by
  induction l generalizing d with
  | nil => exact .refl d
  | cons a l ih => exact (hg d a).trans (ih _)

theorem linksKept_absentAll (i : Nat) : LinksKept d (absentAll d i) := .foldl linksKept_absentFwd _ _

theorem linksKept_setPeer (i : Nat) (p : Peer) : LinksKept d (setPeer d i p) := linksKept_of_link rfl

theorem linksKept_applyMark (i : Nat) (cause : BitVec 3) : LinksKept d (applyMark d i cause) := by
  unfold applyMark
  exact .ite (linksKept_setPeer ..)
    ((((linksKept_setPeer ..).trans (linksKept_raise ..)).trans (linksKept_lint ..)).trans (linksKept_absentAll ..))

theorem linksKept_markWorker (i : Nat) (cause : BitVec 3) : LinksKept d (markWorker d i cause) :=
  ((follows_endsWorker (K := fun _ => True) d trivial).links.trans (linksKept_applyMark ..)).trans (follows_told d i cause).links

end Answers

/-! ## Paths (R460, R466) -/

/-- An instance to which no path is left: it is unreachable, and no message to it is held back here. -/
def cutPeer (d : Dev) (i : Nat) : Dev :=
  setPeer (onLinkState d fun k => { k with held := k.held.filter fun m => m.dst.toNat ≠ i }) i { getPeer d i with unreach := true }

/-- A link without the messages to an instance. -/
def cutLink (i : Nat) (l : Link) : Link := { l with queue := l.queue.filter fun q => q.msg.dst.toNat ≠ i }

/-- No message to the instance waits on a link either. -/
def cutPath (d : Dev) (i : Nat) : Dev :=
  setLink (setLink (cutPeer d i) 0 (cutLink i (getLink (cutPeer d i) 0))) 1 (cutLink i (getLink (cutPeer d i) 1))

theorem pathDown_eq (d : Dev) (i : Nat) : pathDown d i =
    if (getPeer d i).unreach || i = me d then d
    else if isManager d && !(getPeer d i).marked then endBcast (markWorker (absentAll (cutPath d i) i) i 6)
    else absentAll (cutPath d i) i := rfl

theorem pathDown_unreachable {d : Dev} {i : Nat} (h : (getPeer d i).unreach = true) : pathDown d i = d := by
  rw [pathDown_eq, h]
  rfl

theorem getPeer_cutPeer (d : Dev) (i : Nat) : getPeer (cutPeer d i) i = { getPeer d i with unreach := true } := by
  rw [cutPeer, getPeer_setPeer]

theorem follows_cutPeer (d : Dev) (i : Nat) : Follows (· = i) d (cutPeer d i) :=
  Follows.trans (e := onLinkState d fun k => { k with held := k.held.filter fun m => m.dst.toNat ≠ i })
    ((mailed_withHeld d (d.link.held.filter fun m => m.dst.toNat ≠ i)).follows rfl rfl (keepsRegs_of_regs rfl)).of_noPeer (follows_setPeer _ (K := (· = i)) rfl _)

theorem follows_setLinkQueue (d : Dev) (j : Nat) {l : Link} (hstate : l.state = (getLink d j).state)
    (hmod : l.modules = (getLink d j).modules) : Follows noPeer d (setLink d j l) :=
  ⟨rfl, rfl, rfl, rfl, rfl, rfl, rfl, linksKept_setLink d j hstate hmod, fun _ _ => .refl _, keepsRegs_of_regs rfl⟩

theorem follows_cutPath_of_cutPeer (d : Dev) (i : Nat) : Follows noPeer (cutPeer d i) (cutPath d i) := by
  have hother := getLink_setLink_ne (cutPeer d i) 0 1 (cutLink i (getLink (cutPeer d i) 0)) (by decide)
  exact (follows_setLinkQueue (cutPeer d i) 0 (l := cutLink i (getLink (cutPeer d i) 0)) rfl rfl).trans
    (follows_setLinkQueue _ 1 (by rw [hother]; rfl) (by rw [hother]; rfl))

theorem follows_cutPath (d : Dev) (i : Nat) : Follows (· = i) d (cutPath d i) :=
  (follows_cutPeer d i).trans (follows_cutPath_of_cutPeer d i).of_noPeer

theorem samePeer_cutPath (d : Dev) (i : Nat) : SamePeer { getPeer d i with unreach := true } (getPeer (cutPath d i) i) := by
  have h := (follows_cutPath_of_cutPeer d i).peer i id
  rw [getPeer_cutPeer] at h
  exact h

theorem linksKept_pathDown (d : Dev) (i : Nat) : LinksKept d (pathDown d i) := by
  rw [pathDown_eq]
  have hcut : LinksKept d (absentAll (cutPath d i) i) := (follows_cutPath d i).links.trans (linksKept_absentAll ..)
  exact .ite (.refl d) (.ite ((hcut.trans (linksKept_markWorker ..)).trans (follows_endBcast _).links) hcut)

section Down
variable {d : Dev} (hd : noFwds d) (i : Nat)
include hd

theorem follows_pathDown : Follows (· = i) d (pathDown d i) := by
  have hcut := follows_cutPath d i
  rw [pathDown_eq, absentAll_of_noFwds (hcut.noFwds hd)]
  split
  · exact .refl d
  · split
    · exact (hcut.trans (follows_markWorker (hcut.noFwds hd) i 6 rfl)).trans (follows_endBcast _).of_noPeer
    · exact hcut

theorem pathDown_loses (hun : (getPeer d i).unreach = false) (hme : i ≠ me d) : (getPeer (pathDown d i) i).unreach = true ∧
    (isManager d = true → (getPeer d i).marked = false → markedAs (pathDown d i) i 6) := by
  have hcut := follows_cutPath d i
  have hpeer := samePeer_cutPath d i
  rw [pathDown_eq, if_neg (by simp [hun, hme]), absentAll_of_noFwds (hcut.noFwds hd)]
  split
  · have hkept := (follows_endBcast (markWorker (cutPath d i) i 6)).peer i id
    obtain ⟨b, c, hmark⟩ := getPeer_markWorker (hcut.noFwds hd) i 6
    refine ⟨hkept.unreach_eq.trans ?_, fun _ _ => hkept.markedAs (markWorker_marks (hcut.noFwds hd) i 6)⟩
    rw [hmark]
    exact hpeer.unreach_eq
  · rename_i h
    exact ⟨hpeer.unreach_eq, fun hm hmark => absurd (by rw [hm, hmark]; rfl) h⟩

end Down

theorem linksKept_losePaths (d : Dev) : LinksKept d (losePaths d) := .foldl linksKept_pathDown _ _

/-- No instance loses its last path where each that has none is unreachable already. -/
theorem losePaths_of_unreachable {d : Dev}
    (h : ∀ i ∈ others d, (getPeer d i).unreach = true ∨ pathOk d i 0 = true ∨ pathOk d i 1 = true) : losePaths d = d := by
  have hall : ∀ l : List Nat, (∀ i ∈ l, (getPeer d i).unreach = true) → l.foldl pathDown d = d := by
    intro l hl
    induction l with
    | nil => rfl
    | cons k l ih =>
      rw [List.forall_mem_cons] at hl
      rw [List.foldl_cons, pathDown_unreachable hl.1, ih hl.2]
  refine hall _ fun i hi => ?_
  obtain ⟨hmem, hnone⟩ := List.mem_filter.mp hi
  rw [Bool.and_eq_true, Bool.not_eq_true', Bool.not_eq_true'] at hnone
  obtain hun | hpath | hpath := h i hmem
  · exact hun
  · rw [hnone.1] at hpath
    exact absurd hpath (by decide)
  · rw [hnone.2] at hpath
    exact absurd hpath (by decide)

/-- With no link up, every other instance becomes unreachable, and the manager marks the workers among them. -/
theorem losePaths_loses {d : Dev} (hd : noFwds d) (hup : linkUp d 0 = false) (hup' : linkUp d 1 = false) {i : BitVec 2} (hi : isOther d i)
    (hun : (getPeer d i.toNat).unreach = false) : (getPeer (losePaths d) i.toNat).unreach = true ∧
      isAbsent (losePaths d) i.toNat = true ∧
      (isManager d = true → (getPeer d i.toNat).marked = false → isMarked (losePaths d) i 6) := by
  have hfilter : (others d).filter (fun i => !pathOk d i 0 && !pathOk d i 1) = others d := by
    rw [List.filter_eq_self]
    intro k _
    rw [pathOk, pathOk, hup, hup']
    rfl
  obtain ⟨e, he, hbefore, hafter⟩ := turn_of_mem (g := pathDown) (I := noFwds) (fun d i hd => (follows_pathDown hd i).noFwds hd)
    (fun d hd i => follows_pathDown hd i) (others_nodup d) (mem_others hi) hd
  rw [losePaths, hfilter]
  have hpeer := hbefore.peer i.toNat fun h => h rfl
  obtain ⟨hlost, hmark⟩ := pathDown_loses he i.toNat (hpeer.unreach_eq.trans hun) (by rw [hbefore.me_eq]; exact ne_me hi)
  have hlast := hafter.peer i.toNat fun h => h rfl
  have hun' := hlast.unreach_eq.trans hlost
  have hboot : ((others d).foldl pathDown d).boot = d.boot :=
    (hafter.boot.trans (follows_pathDown he i.toNat).boot).trans hbefore.boot
  refine ⟨hun', ?_, fun hm hfirst => hlast.markedAs (hmark (hbefore.isManager_eq.trans hm) (hpeer.marked_eq.trans hfirst))⟩
  rw [isAbsent, hun', hboot, Bool.or_true, Bool.and_true]
  exact decide_eq_true (ne_me hi)

/-! ## Paths that come up (R464) -/

theorem follows_pathUp (d : Dev) (i : Nat) : Follows (· = i) d (pathUp d i) := by
  unfold pathUp
  dsimp only
  split
  · exact follows_setPeer d (K := (· = i)) rfl _
  · exact .refl d

theorem pathUp_reaches (d : Dev) (i : Nat) : (getPeer (pathUp d i) i).unreach = false ∧
    ((getPeer d i).unreach = true → (getPeer (pathUp d i) i).seqIn = 0 ∧ (getPeer (pathUp d i) i).seqOut = 0) := by
  unfold pathUp
  dsimp only
  cases h : (getPeer d i).unreach with
  | true => rw [if_pos rfl, getPeer_setPeer]; exact ⟨rfl, fun _ => ⟨rfl, rfl⟩⟩
  | false => rw [if_neg (by decide), h]; exact ⟨rfl, fun h => absurd h (by decide)⟩

theorem follows_gainPaths (d : Dev) : Follows (fun _ => True) d (gainPaths d) :=
  .foldl (fun i _ d => (follows_pathUp d i).mono fun _ _ => trivial) d

theorem sameButLink_pathUp (d : Dev) (i : Nat) : SameButLink d (pathUp d i) := by
  unfold pathUp
  dsimp only
  split
  · exact ⟨_, _, rfl⟩
  · exact .refl d

theorem pathUp_links (d : Dev) (i : Nat) : (pathUp d i).link.links = d.link.links := by
  unfold pathUp
  dsimp only
  split
  · rfl
  · rfl

/-- What the paths that come up leave alone: the links, and everything but the die link. -/
theorem gainPaths_keeps (d : Dev) : SameButLink d (gainPaths d) ∧ (gainPaths d).link.links = d.link.links := by
  have hrun : ∀ (l : List Nat) (d : Dev), SameButLink d (l.foldl pathUp d) ∧ (l.foldl pathUp d).link.links = d.link.links := by
    intro l
    induction l with
    | nil => exact fun d => ⟨.refl d, rfl⟩
    | cons k l ih => exact fun d => ⟨(sameButLink_pathUp d k).trans (ih _).1, (ih _).2.trans (pathUp_links d k)⟩
  exact hrun _ d

/-- An instance to which a path is up is reachable, and its sequence starts anew where it was not (R464, R466). -/
theorem gainPaths_reaches {d : Dev} {i : Nat} (hi : i ∈ others d) (hpath : (pathOk d i 0 || pathOk d i 1) = true) :
    (getPeer (gainPaths d) i).unreach = false ∧
      ((getPeer d i).unreach = true → (getPeer (gainPaths d) i).seqIn = 0 ∧ (getPeer (gainPaths d) i).seqOut = 0) := by
  obtain ⟨e, -, hbefore, hafter⟩ := turn_of_mem (g := pathUp) (I := fun _ => True) (fun _ _ _ => trivial) (fun d _ i => follows_pathUp d i)
    ((others_nodup d).filter fun i => pathOk d i 0 || pathOk d i 1) (List.mem_filter.mpr ⟨hi, hpath⟩) (d := d) trivial
  have hlast : SamePeer (getPeer (pathUp e i) i) (getPeer (gainPaths d) i) := hafter.peer i fun h => h rfl
  obtain ⟨hup, hseq⟩ := pathUp_reaches e i
  refine ⟨hlast.unreach_eq.trans hup, fun hun => ?_⟩
  obtain ⟨hin, hout⟩ := hseq (((hbefore.peer i fun h => h rfl).unreach_eq).trans hun)
  exact ⟨hlast.seqIn_eq.trans hin, hlast.seqOut_eq.trans hout⟩

end Sys2Proof.Machine
end

section
/-!
The commands of the die link's own state: HELLO, LINK_MODULE_DOWN and LINK_DOWN (R457, R462, R466).
-/
namespace Sys2Proof.Machine
open Sys2Proof.Claims

/-! ## A link that carries messages no more (R462, R463) -/

/-- The other link. -/
theorem otherLink_ne (j : Fin 2) : 1 - j.val ≠ j.val := by omega

/-- Messages of a link but for HELLOs. -/
def carried (l : Link) : List Queued := l.queue.filter fun q => q.msg.body.code ≠ 3

/-- Link j, whose messages stay with it where the other link is not up. -/
def standing (d : Dev) (j : Nat) (l : Link) : Dev := setLink d j { l with queue := if linkUp d (1 - j) then [] else carried l }

/-- A link with more messages. -/
def withQueued (l : Link) (qs : List Queued) : Link := { l with queue := l.queue ++ qs }

/-- What is queued for link j goes to the other link when that is up. -/
def requeue (d : Dev) (j : Nat) (l : Link) : Dev :=
  if linkUp d (1 - j) then
    (carried l).foldl (noteDetour (1 - j)) (setLink (standing d j l) (1 - j) (withQueued (getLink (standing d j l) (1 - j)) (carried l)))
  else standing d j l

theorem linkLost_eq (d : Dev) (j : Nat) (l : Link) : linkLost d j l = losePaths (requeue d j l) := rfl

theorem follows_noteDetour (o : Nat) (d : Dev) (q : Queued) : Follows noPeer d (noteDetour o d q) := by
  unfold noteDetour
  dsimp only
  split
  · exact .refl d
  · exact (mailed_setDetour ..).follows rfl rfl (keepsRegs_of_regs rfl)

theorem follows_requeue (d : Dev) (j : Nat) (l : Link) : Follows noPeer (standing d j l) (requeue d j l) := by
  unfold requeue
  split
  · exact (follows_setLinkQueue _ (1 - j) (l := withQueued (getLink (standing d j l) (1 - j)) (carried l)) rfl rfl).trans
      (.foldl (fun q _ d => follows_noteDetour (1 - j) d q) _)
  · exact .refl _

section Requeue
variable (d : Dev) (j : Nat) (l : Link)

theorem requeue_own : (getLink (requeue d j l) j).state = l.state ∧ (getLink (requeue d j l) j).modules = l.modules := by
  obtain ⟨hs, hm⟩ := (follows_requeue d j l).links.link j
  rw [hs, hm, standing, getLink_setLink]
  exact ⟨rfl, rfl⟩

theorem linkUp_requeue_ne {k : Nat} (hk : k ≠ j) : linkUp (requeue d j l) k = linkUp d k := by
  rw [(follows_requeue d j l).links.linkUp_eq, standing, linkUp, getLink_setLink_ne _ _ _ _ hk, linkUp]

theorem linkUp_requeue_own (hl : l.state ≠ .up) : linkUp (requeue d j l) j = false := by
  rw [linkUp, (requeue_own d j l).1, decide_eq_false hl, Bool.false_and]

theorem samePeer_requeue (i : Nat) : SamePeer (getPeer d i) (getPeer (requeue d j l) i) := (follows_requeue d j l).peer i id

theorem requeue_others : others (requeue d j l) = others d := (follows_requeue d j l).others_eq

theorem requeue_boot : (requeue d j l).boot = d.boot := (follows_requeue d j l).boot

theorem pathOk_requeue_ne {k : Nat} (hk : k ≠ j) (i : Nat) : pathOk (requeue d j l) i k = pathOk d i k := by
  have hfar : (requeue d j l).link.far = d.link.far := (follows_requeue d j l).far
  rw [pathOk, pathOk, linkUp_requeue_ne d j l hk, requeue_boot, hfar]

theorem noFwds_requeue (hd : noFwds d) : noFwds (requeue d j l) := (follows_requeue d j l).noFwds hd

/-- The link stands as it was left, whatever paths are lost. -/
theorem linkLost_own : (getLink (linkLost d j l) j).state = l.state ∧ (getLink (linkLost d j l) j).modules = l.modules := by
  obtain ⟨hs, hm⟩ := (linksKept_losePaths (requeue d j l)).link j
  rw [linkLost_eq, hs, hm]
  exact requeue_own d j l

end Requeue

/-! ## HELLO (R457) -/

/-- A HELLO has been exchanged. -/
def greeted (d : Dev) : Dev := onLinkState d fun k => { k with helloSeen := true }

/-- The HELLO of link j names the neighbour, the manager and the revision that this instance has. -/
def agrees (d : Dev) (j : Nat) (inst mgr : BitVec 2) (rev : BitVec 8) : Bool :=
  inst = d.boot.inst ^^^ BitVec.ofNat 2 (j + 1) && mgr = d.boot.mgr && rev = Config.revision

/-- The link of a HELLO that agrees. -/
def linkedUp (d : Dev) (j : Nat) (modules : BitVec 5) : Dev :=
  setLink (greeted d) j ⟨.up, modules, (getLink d j).queue.filter fun q => q.msg.body.code ≠ 3⟩

theorem helloOwn_eq (d : Dev) (j : Nat) (modules : BitVec 5) (inst mgr : BitVec 2) (rev : BitVec 8) : helloOwn d j modules inst mgr rev =
    if (getLink d j).state ≠ .training then d
    else if agrees d j inst mgr rev then gainPaths (sendHello (linkedUp d j modules) j)
    else lint (raise (sendHello (linkLost (greeted d) j ⟨.mismatch, modules, (getLink d j).queue⟩) j) Ev.LINK_MISMATCH) 0x2F {} j
      (Config.helloWord inst mgr rev) := rfl

theorem sameButLink_sendHello (d : Dev) (j : Nat) : SameButLink d (sendHello d j) :=
  (SameButLink.withLink d _).trans (sameButLink_sendHeld _)

theorem mailed_sendHello (d : Dev) (j : Nat) : Mailed d (sendHello d j) := (mailed_withHeld d _).trans (mailed_sendHeld _)

theorem follows_sendHello (d : Dev) (j : Nat) : Follows noPeer d (sendHello d j) := by
  obtain ⟨l, n, h⟩ := sameButLink_sendHello d j
  exact (mailed_sendHello d j).follows (by rw [h]) (by rw [h]) (keepsRegs_of_regs (by rw [h]))

theorem SameButLink.regs_eq {d e : Dev} (h : SameButLink d e) : e.regs = d.regs := by
  obtain ⟨l, n, rfl⟩ := h
  rfl

/-- The neighbour on link j. -/
theorem neighbour_xor : ∀ (me : BitVec 2) (j : Fin 2), Nat.xor me.toNat (me ^^^ BitVec.ofNat 2 (j.val + 1)).toNat = j.val + 1 := by decide

theorem neighbour_ne : ∀ (me : BitVec 2) (j : Fin 2), me ^^^ BitVec.ofNat 2 (j.val + 1) ≠ me := by decide

theorem exec_hello (s : State) (j : Fin 2) (modules : BitVec 5) (inst mgr : BitVec 2) (rev : BitVec 8)
    (hrst : s.dev.pins.rstAsserted = false) :
    exec (.hello (.own j) modules inst mgr rev) s = .next { s with dev := helloOwn s.dev j.val modules inst mgr rev } := by
  change onDev s (hello · (.own j) modules inst mgr rev) = _
  rw [onDev, hello, if_neg (by rw [hrst]; decide)]

theorem ends_hello {s : State} {j : Fin 2} {modules : BitVec 5} {inst mgr : BitVec 2} {rev : BitVec 8} {P : Dev → Prop}
    (hrst : s.dev.pins.rstAsserted = false) (hP : P (helloOwn s.dev j.val modules inst mgr rev)) :
    EndsDev (.hello (.own j) modules inst mgr rev) s P := ⟨_, exec_hello s j modules inst mgr rev hrst, hP⟩

section Hello
variable (d : Dev) (j : Fin 2) (modules : BitVec 5)

/-- A HELLO that agrees brings the link up (R457, R466). -/
theorem hello_agrees :
    let e := gainPaths (sendHello (linkedUp d j.val modules) j.val)
    (getLink e j.val).state = .up ∧ (getLink e j.val).modules = modules ∧
      (∀ i : BitVec 2, isOther d i → (pathOk e i.toNat 0 || pathOk e i.toNat 1) = true → (getPeer e i.toNat).unreach = false) ∧
      (modules ≠ 0 → (getPeer e (d.boot.inst ^^^ BitVec.ofNat 2 (j.val + 1)).toNat).unreach = false) ∧ e.regs = d.regs := by
  intro e
  have hsent := follows_sendHello (linkedUp d j.val modules) j.val
  obtain ⟨hrest, hlinks⟩ := gainPaths_keeps (sendHello (linkedUp d j.val modules) j.val)
  have hkept : LinksKept (linkedUp d j.val modules) e := hsent.links.trans (linksKept_of_link hlinks)
  have hown : getLink (linkedUp d j.val modules) j.val =
      ⟨.up, modules, (getLink d j.val).queue.filter fun q => q.msg.body.code ≠ 3⟩ := getLink_setLink ..
  have hpaths : ∀ i k, pathOk e i k = pathOk (sendHello (linkedUp d j.val modules) j.val) i k := (follows_gainPaths _).pathOk_eq
  have hothers : others (sendHello (linkedUp d j.val modules) j.val) = others d := hsent.others_eq
  refine ⟨?_, ?_, fun i hi hpath => ?_, fun hmod => ?_, ?_⟩
  · rw [(hkept.link j.val).1, hown]
  · rw [(hkept.link j.val).2, hown]
  · rw [hpaths, hpaths] at hpath
    exact (gainPaths_reaches (by rw [hothers]; exact mem_others hi) hpath).1
  · have hup : pathOk (sendHello (linkedUp d j.val modules) j.val) (d.boot.inst ^^^ BitVec.ofNat 2 (j.val + 1)).toNat j.val = true := by
      rw [hsent.pathOk_eq, pathOk, linkUp, hown, farLinks]
      rw [show (linkedUp d j.val modules).boot.inst = d.boot.inst from rfl, if_pos (neighbour_xor _ _)]
      exact Bool.and_eq_true_iff.mpr ⟨decide_eq_true hmod, rfl⟩
    refine (gainPaths_reaches (by rw [hothers]; exact mem_others (neighbour_ne _ _)) ?_).1
    obtain rfl | rfl : j = 0 ∨ j = 1 := by omega
    · rw [show pathOk _ _ 0 = true from hup, Bool.true_or]
    · rw [show pathOk _ _ 1 = true from hup, Bool.or_true]
  · exact (hrest.regs_eq.trans (sameButLink_sendHello _ _).regs_eq).trans rfl

/-- A HELLO that names another instance, manager or revision leaves the link down (R457, R466). -/
theorem hello_mismatch (word : Nat) :
    let e := lint (raise (sendHello (linkLost (greeted d) j.val ⟨.mismatch, modules, (getLink d j.val).queue⟩) j.val) Ev.LINK_MISMATCH) 0x2F {}
      j.val word
    (getLink e j.val).state = .mismatch ∧ isPending e Ev.LINK_MISMATCH ∧
      ((∀ i ∈ others d, (getPeer d i).unreach = true ∨ pathOk d i (1 - j.val) = true) →
        ∀ i ∈ others d, (getPeer e i).unreach = (getPeer d i).unreach ∧ (getPeer e i).marked = (getPeer d i).marked) := by
  intro e
  have hafter : Follows noPeer (linkLost (greeted d) j.val ⟨.mismatch, modules, (getLink d j.val).queue⟩) e :=
    ((follows_sendHello _ _).trans (follows_raise ..)).trans (follows_lint ..)
  refine ⟨?_, (follows_lint ..).isPending (by decide) (isPending_raise _ none none (by decide)), fun hall i hi => ?_⟩
  · rw [(hafter.links.link j.val).1, (linkLost_own _ _ _).1]
  · have hsame := samePeer_requeue (greeted d) j.val ⟨.mismatch, modules, (getLink d j.val).queue⟩
    have hnone : linkLost (greeted d) j.val ⟨.mismatch, modules, (getLink d j.val).queue⟩ =
        requeue (greeted d) j.val ⟨.mismatch, modules, (getLink d j.val).queue⟩ := by
      rw [linkLost_eq]
      refine losePaths_of_unreachable fun k hk => ?_
      rw [requeue_others] at hk
      have hpath := pathOk_requeue_ne (greeted d) j.val ⟨.mismatch, modules, (getLink d j.val).queue⟩ (otherLink_ne j) k
      obtain hun | hup := hall k hk
      · exact .inl ((hsame k).unreach_eq.trans hun)
      · refine .inr ?_
        rw [show pathOk (greeted d) k (1 - j.val) = true from hup] at hpath
        obtain rfl | rfl : j = 0 ∨ j = 1 := by omega
        · exact .inr hpath
        · exact .inl hpath
    have hpeer : SamePeer (getPeer d i) (getPeer e i) := (hsame i).trans (by rw [← hnone]; exact hafter.peer i id)
    exact ⟨hpeer.unreach_eq, hpeer.marked_eq⟩

end Hello

/-! ## A link beyond a neighbour (R460) -/

theorem opposite_xor : ∀ me : BitVec 2, Nat.xor me.toNat (Nat.xor me.toNat 3) = 3 ∧ Nat.xor me.toNat 3 < 4 ∧ Nat.xor me.toNat 3 ≠ me.toNat := by
  decide

theorem farLinks_opposite (me : BitVec 2) (j : Fin 2) : farLinks me.toNat (Nat.xor me.toNat 3) j.val = [j.val] := by
  rw [farLinks, (opposite_xor me).1, if_neg (by omega), if_pos rfl]

theorem hello_far (d : Dev) (j : Fin 2) (hup : linkUp d j.val = true) :
    let e := gainPaths (setFar d (d.link.far ||| BitVec.ofNat 2 (2 ^ j.val)))
    (getPeer e (Nat.xor (me d) 3)).unreach = false ∧
      ((getPeer d (Nat.xor (me d) 3)).unreach = true →
        (getPeer e (Nat.xor (me d) 3)).seqIn = 0 ∧ (getPeer e (Nat.xor (me d) 3)).seqOut = 0) ∧
      e.link.links = d.link.links ∧ e.regs = d.regs := by
  intro e
  obtain ⟨hrest, hlinks⟩ := gainPaths_keeps (setFar d (d.link.far ||| BitVec.ofNat 2 (2 ^ j.val)))
  have hmem : Nat.xor (me d) 3 ∈ others (setFar d (d.link.far ||| BitVec.ofNat 2 (2 ^ j.val))) := by
    obtain ⟨-, hlt, hne⟩ := opposite_xor d.boot.inst
    exact List.mem_filter.mpr ⟨List.mem_range.mpr hlt, decide_eq_true hne⟩
  have hbit : (d.link.far ||| BitVec.ofNat 2 (2 ^ j.val)).getLsbD j.val = true := by
    obtain rfl | rfl : j = 0 ∨ j = 1 := by omega
    · simp
    · simp
  have hpath : pathOk (setFar d (d.link.far ||| BitVec.ofNat 2 (2 ^ j.val))) (Nat.xor (me d) 3) j.val = true := by
    have hup' : linkUp (setFar d (d.link.far ||| BitVec.ofNat 2 (2 ^ j.val))) j.val = true := hup
    have hfar : farLinks (setFar d (d.link.far ||| BitVec.ofNat 2 (2 ^ j.val))).boot.inst.toNat (Nat.xor (me d) 3) j.val = [j.val] :=
      farLinks_opposite d.boot.inst j
    rw [pathOk, hup', hfar, List.all_cons, List.all_nil, Bool.and_true, Bool.true_and]
    exact hbit
  have hany : (pathOk (setFar d (d.link.far ||| BitVec.ofNat 2 (2 ^ j.val))) (Nat.xor (me d) 3) 0 ||
      pathOk (setFar d (d.link.far ||| BitVec.ofNat 2 (2 ^ j.val))) (Nat.xor (me d) 3) 1) = true := by
    obtain rfl | rfl : j = 0 ∨ j = 1 := by omega
    · rw [show pathOk _ _ 0 = true from hpath, Bool.true_or]
    · rw [show pathOk _ _ 1 = true from hpath, Bool.or_true]
  obtain ⟨hreach, hseq⟩ := gainPaths_reaches hmem hany
  exact ⟨hreach, hseq, hlinks, hrest.regs_eq⟩

/-! ## LINK_MODULE_DOWN (R462) -/

section Module
variable {d : Dev} (hrst : d.pins.rstAsserted = false) (m : Nat) (retries : BitVec 16)
include hrst

theorem moduleDown_repaired : linkModuleDown d m ⟨retries, true⟩ = rinc d (0xF028 + 4 * (m / 5)) retries.toNat := by
  rw [linkModuleDown, if_neg (by rw [hrst]; decide)]
  rfl

/-- The link without the module. -/
def lessModule (l : Link) (k : Nat) : Link := { l with modules := l.modules &&& ~~~(BitVec.ofNat 5 (2 ^ k)) }

theorem moduleDown_lost (hhas : (getLink d (m / 5)).modules.getLsbD (m % 5) = true)
    (hmore : (getLink d (m / 5)).modules &&& ~~~(BitVec.ofNat 5 (2 ^ (m % 5))) ≠ 0) : linkModuleDown d m ⟨retries, false⟩ =
      lint (raise (setLink (rinc d (0xF028 + 4 * (m / 5)) retries.toNat) (m / 5) (lessModule (getLink d (m / 5)) (m % 5))) Ev.LINK_MODULE_DOWN)
        0x2E {} m := by
  rw [linkModuleDown]
  dsimp only
  rw [if_neg (by rw [hrst]; decide), if_neg (by rw [hhas]; decide), if_pos hmore]
  rfl

end Module

theorem setLink_peers (d : Dev) (j : Nat) (l : Link) : (setLink d j l).link.peers = d.link.peers := rfl

/-- The loss of a module is an event and a record, and changes nothing else that counts or stands of the peers. -/
theorem moduleLost_shows (d : Dev) (m : Nat) (l : Link) :
    let e := lint (raise (setLink d (m / 5) l) Ev.LINK_MODULE_DOWN) 0x2E {} m
    getLink e (m / 5) = l ∧ isPending e Ev.LINK_MODULE_DOWN ∧ rget e (0xF028 + 4 * (m / 5)) = rget d (0xF028 + 4 * (m / 5)) ∧
      e.link.peers = d.link.peers := by
  have hlink : (lint (raise (setLink d (m / 5) l) Ev.LINK_MODULE_DOWN) 0x2E {} m).link = (setLink d (m / 5) l).link := by
    rw [lint_link, raise_link]
  have hoff : 0xA0 ≤ 0xF028 + 4 * (m / 5) ∧ 0xF028 + 4 * (m / 5) ≠ 0xA04C := by omega
  refine ⟨?_, (follows_lint ..).isPending (by decide) (isPending_raise _ none none (by decide)), ?_, ?_⟩
  · rw [getLink, hlink]
    exact getLink_setLink ..
  · rw [(follows_lint ..).regs.other _ (.inr hoff.1) hoff.2, (follows_raise ..).regs.other _ (.inr hoff.1) hoff.2]
    exact rget_congr (setLink_regs ..) _
  · rw [hlink, setLink_peers]

/-- Another module is left. -/
theorem modules_left : ∀ (v : BitVec 5) (k : Fin 5), v.getLsbD k.val = true → v ≠ BitVec.ofNat 5 (2 ^ k.val) →
    v &&& ~~~(BitVec.ofNat 5 (2 ^ k.val)) ≠ 0 := by decide

/-! ## LINK_DOWN (R462, R466) -/

/-- The links that face an instance, as this one knows of them, are down. -/
def facingDown (d : Dev) (i : Nat) : Dev := setFar d (d.link.far &&& ~~~(farOf (me d) i))

theorem linkDown_eq {d : Dev} (hrst : d.pins.rstAsserted = false) {i : BitVec 2} (hi : isOther d i) (reset : Bool) :
    linkDown d ⟨i, reset⟩ =
      let j := Nat.xor (me d) i.toNat - 1
      let l := getLink d j
      if 2 ≤ j then losePaths (facingDown d i.toNat)
      else if reset then losePaths (requeue (facingDown d i.toNat) j ⟨.training, 0, l.queue⟩)
      else if l.state = .training then losePaths (requeue (facingDown d i.toNat) j { l with state := .down })
      else losePaths (facingDown d i.toNat) := by
  have hact : ¬(d.pins.rstAsserted || decide (i.toNat = me d)) = true := by
    rw [hrst, decide_eq_false (ne_me hi)]
    decide
  rw [linkDown, if_neg hact]
  rfl

section Down
variable {d : Dev} (hd : noFwds d) (hup : linkUp d 0 = false) (hup' : linkUp d 1 = false) {i : BitVec 2} (hi : isOther d i)
  (hun : (getPeer d i.toNat).unreach = false)
include hd hup hup' hi hun

/-- What a lost instance shows (R466, R470). -/
def losesPath (d e : Dev) (i : BitVec 2) : Prop := (getPeer e i.toNat).unreach = true ∧ isAbsent e i.toNat = true ∧
  (isManager d = true → (getPeer d i.toNat).marked = false → isMarked e i 6)

/-- An own link that does not come up, where no other is up, loses the instance. -/
theorem requeue_loses (j : Nat) {l : Link} (hl : l.state ≠ .up) : losesPath d (losePaths (requeue d j l)) i := by
  have hdown : ∀ k, linkUp d k = false → linkUp (requeue d j l) k = false := fun k hk => by
    by_cases h : k = j
    · rw [h]
      exact linkUp_requeue_own d j l hl
    · rw [linkUp_requeue_ne d j l h, hk]
  have hboot := requeue_boot d j l
  have hpeer := samePeer_requeue d j l i.toNat
  obtain ⟨hlost, habsent, hmark⟩ := losePaths_loses (noFwds_requeue d j l hd) (hdown 0 hup) (hdown 1 hup') (i := i)
    (by rw [isOther, hboot]; exact hi) (hpeer.unreach_eq.trans hun)
  refine ⟨hlost, habsent, fun hm hfirst => hmark ?_ (hpeer.marked_eq.trans hfirst)⟩
  rw [isManager, hboot]
  exact hm

end Down

end Sys2Proof.Machine

section
open Sys2Proof Sys2Proof.Machine Sys2Proof.Claims

/-- Settles O46: HELLO, the loss of modules and the loss of paths, each by what it leaves of the links and the peers. -/
theorem linksComeAndGo : Obligations.LinksComeAndGo := by
  refine ⟨fun j mods inst mgr rev s hrst => ⟨fun hstate => ?_, fun hstate => ⟨fun hinst hmgr hrev => ?_, fun hdiffer => ?_⟩⟩,
    fun j mods inst mgr rev s hrst hup => ?_, fun m retries s hrst => ⟨?_, fun hhas hmore => ?_⟩,
    fun i reset s hrst hi hf hup hup' hun => ?_, fun j s hrst => ?_⟩
  · refine (exec_hello s _ _ _ _ _ hrst).trans ?_
    rw [helloOwn_eq, if_pos hstate]
  · refine ends_hello hrst ?_
    have hagree : agrees s.dev j.val inst mgr rev = true := by rw [agrees, hinst, hmgr, hrev]; simp
    rw [helloOwn_eq, if_neg (not_not.mpr hstate), if_pos hagree, hinst]
    exact hello_agrees s.dev j mods
  · refine ends_hello hrst ?_
    have hagree : agrees s.dev j.val inst mgr rev = false := by
      rw [agrees, ← Bool.not_eq_true, Bool.and_eq_true, Bool.and_eq_true, decide_eq_true_eq, decide_eq_true_eq, decide_eq_true_eq]
      rintro ⟨⟨hinst, hmgr⟩, hrev⟩
      obtain h | h | h := hdiffer
      · exact h hinst
      · exact h hmgr
      · exact h hrev
    rw [helloOwn_eq, if_neg (not_not.mpr hstate), if_neg (by rw [hagree]; decide)]
    exact hello_mismatch s.dev j mods _
  · refine endsDev_of_onDev (f := (hello · (.far j) mods inst mgr rev)) rfl ?_
    rw [hello, if_neg (by rw [hrst]; decide)]
    exact hello_far s.dev j hup
  · refine endsDev_of_onDev (f := (linkModuleDown · m.val ⟨retries, true⟩)) rfl ?_
    rw [moduleDown_repaired hrst]
    exact ⟨toNat_rget_rinc .., rinc_link ..⟩
  · refine endsDev_of_onDev (f := (linkModuleDown · m.val ⟨retries, false⟩)) rfl ?_
    rw [moduleDown_lost hrst m.val retries hhas (modules_left _ ⟨m.val % 5, Nat.mod_lt _ (by decide)⟩ hhas hmore)]
    obtain ⟨hlink, hpending, hcount, hpeers⟩ := moduleLost_shows (rinc s.dev (0xF028 + 4 * (m.val / 5)) retries.toNat) m.val
      (lessModule (getLink s.dev (m.val / 5)) (m.val % 5))
    refine ⟨hlink, hpending, ?_, hpeers.trans (by rw [rinc_link])⟩
    rw [counted, hcount]
    exact toNat_rget_rinc ..
  · refine endsDev_of_onDev (f := (linkDown · ⟨i, reset⟩)) rfl ?_
    rw [linkDown_eq hrst hi]
    have hnone : losesPath s.dev (losePaths (facingDown s.dev i.toNat)) i :=
      losePaths_loses (d := facingDown s.dev i.toNat) hf hup hup' hi hun
    have hown : ∀ j l, l.state ≠ .up → losesPath s.dev (losePaths (requeue (facingDown s.dev i.toNat) j l)) i := fun j l hl =>
      requeue_loses (d := facingDown s.dev i.toNat) hf hup hup' hi hun j hl
    dsimp only
    split
    · exact hnone
    · split
      · exact hown _ _ (show LinkState.training ≠ .up by decide)
      · split
        · exact hown _ _ (show LinkState.down ≠ .up by decide)
        · exact hnone
  · refine endsDev_of_onDev (f := (linkDown · ⟨s.dev.boot.inst ^^^ BitVec.ofNat 2 (j.val + 1), true⟩)) rfl ?_
    have hj : Nat.xor (me s.dev) (s.dev.boot.inst ^^^ BitVec.ofNat 2 (j.val + 1)).toNat - 1 = j.val := by
      rw [me, neighbour_xor]
      rfl
    rw [linkDown_eq hrst (neighbour_ne _ _)]
    dsimp only
    rw [hj, if_neg (by omega), if_pos rfl]
    exact linkLost_own (facingDown s.dev _) j.val ⟨.training, 0, (getLink s.dev j.val).queue⟩

end
end

section
/-!
The broadcast of a pattern, on a worker and on the manager, and its load on the manager (R467, R468, R474, R475, R486 to R491).
-/
namespace Sys2Proof.Machine
open Sys2Proof.Claims

/-! ## What register writes may touch -/

/-- `e` is `d` but for registers, counters, records, the energy unit and the tiles. -/
def SameButRegs (d e : Dev) : Prop := ∃ r t l n x, e = { d with regs := r, tally := t, lint := l, energy := n, tiles := x }

namespace SameButRegs
variable {d e f : Dev}

theorem refl (d : Dev) : SameButRegs d d := ⟨d.regs, d.tally, d.lint, d.energy, d.tiles, rfl⟩

theorem trans (h : SameButRegs d e) (h' : SameButRegs e f) : SameButRegs d f := by
  obtain ⟨r, t, l, n, x, rfl⟩ := h
  obtain ⟨r', t', l', n', x', rfl⟩ := h'
  exact ⟨r', t', l', n', x', rfl⟩

theorem ite {c : Prop} [Decidable c] (he : SameButRegs d e) (hf : SameButRegs d f) : SameButRegs d (if c then e else f) := by
  split
  · exact he
  · exact hf

theorem foldl {α : Type} {g : Dev → α → Dev} (hg : ∀ d a, SameButRegs d (g d a)) (l : List α) (d : Dev) : SameButRegs d (l.foldl g d) := by
  induction l generalizing d with
  | nil => exact .refl d
  | cons a l ih => exact (hg d a).trans (ih _)

theorem boot_eq (h : SameButRegs d e) : e.boot = d.boot := by obtain ⟨r, t, l, n, x, rfl⟩ := h; rfl
theorem link_eq (h : SameButRegs d e) : e.link = d.link := by obtain ⟨r, t, l, n, x, rfl⟩ := h; rfl
theorem txns_eq (h : SameButRegs d e) : e.txns = d.txns := by obtain ⟨r, t, l, n, x, rfl⟩ := h; rfl

end SameButRegs

theorem sameButRegs_rset (d : Dev) (off : Nat) (v : Word) : SameButRegs d (rset d off v) := ⟨_, _, _, _, _, rfl⟩

theorem sameButRegs_onEnergy (d : Dev) (f : Energy → Energy) : SameButRegs d (onEnergy d f) := ⟨_, _, _, _, _, rfl⟩

theorem sameButRegs_onSvc (d : Dev) (t : Nat) (f : Svc → Svc) : SameButRegs d (onSvc d t f) := ⟨_, _, _, _, _, rfl⟩

theorem sameButRegs_raise (d : Dev) (e : Nat) : SameButRegs d (raise d e) := by
  obtain ⟨t, h⟩ := raiseN_eq d e 1 none none
  exact ⟨_, t, d.lint, d.energy, d.tiles, h⟩

theorem sameButRegs_lint (d : Dev) (kind : Nat) (w : LintAt) (x y : Nat) : SameButRegs d (lint d kind w x y) := by
  obtain ⟨r, t, l, h⟩ := lint_eq d kind w x y
  exact ⟨r, t, l, d.energy, d.tiles, h⟩

theorem sameButRegs_advise (d : Dev) (t : Nat) : SameButRegs d (advise d t) := by
  unfold advise
  exact (SameButRegs.ite (sameButRegs_raise ..) (.refl d)).trans (sameButRegs_onSvc ..)

theorem sameButRegs_afterWrite (d : Dev) (off : Nat) (v : Word) : SameButRegs d (afterWrite d off v) := by
  unfold afterWrite
  exact .ite (sameButRegs_onEnergy ..) (.ite (sameButRegs_onEnergy ..) (.ite (.foldl sameButRegs_advise _ d)
    (.ite (sameButRegs_rset ..) (.refl d))))

theorem sameButRegs_storeWrite (d : Dev) (off : Nat) (fs : List Field) (v : Word) : SameButRegs d (storeWrite d off fs v) := by
  unfold storeWrite
  exact ((SameButRegs.ite (sameButRegs_onEnergy ..) (.refl d)).trans (sameButRegs_rset ..)).trans (sameButRegs_afterWrite ..)

/-- A write without command behaviour. -/
theorem sameButRegs_plainWrite (d : Dev) (a : Agent) (locked : Bool) (off : Nat) (v : Word) :
    SameButRegs d (plainWrite d a locked off v).1 := by
  unfold plainWrite
  extract_lets d1 fs
  have hnote : SameButRegs d d1 := .ite (sameButRegs_lint ..) (.refl d)
  split
  · exact sameButRegs_lint ..
  · split
    · exact hnote
    · split
      · exact hnote.trans (sameButRegs_lint ..)
      · exact hnote.trans (sameButRegs_storeWrite ..)

theorem sameButRegs_writeRecords (rs : List (Nat × Word)) (d : Dev) : SameButRegs d (writeRecords d rs) :=
  .foldl (g := fun (d : Dev) (r : Nat × Word) => (plainWrite d .host false r.1 r.2).1) (fun d r => sameButRegs_plainWrite d .host false r.1 r.2) rs d

theorem sameButRegs_resetRwl (d : Dev) : SameButRegs d (resetRwl d) :=
  .foldl (fun d e => by dsimp only; exact .ite (.refl d) (sameButRegs_rset ..)) d.regs d

/-! ## Apply (R487) -/

/-- The registers as the image's records leave them. -/
def loaded (d : Dev) : Dev := writeRecords (resetRwl d) (imageRecords d.boot.image (mgetD 0 d.boot.image 3).toNat)

theorem sameButRegs_loaded (d : Dev) : SameButRegs d (loaded d) := (sameButRegs_resetRwl d).trans (sameButRegs_writeRecords _ _)

/-- Apply has set the boot state, and opens the Lint ring. -/
def applyBoot (d : Dev) : Dev :=
  rset { d with boot := { d.boot with applied := true, layout := layoutDigest d, imgState := 4, step := 3, warm := (rget d 0x1000).getLsbD 0 },
                lint := { Reset.lint with open_ := true } } 0xA044 0

theorem applyPattern_eq (d : Dev) : applyPattern d = energyStart (startRegulator (applyBoot (loaded d))) := rfl

/-- `e` is `d` but for the regulator. -/
def SameButReg (d e : Dev) : Prop := ∃ r, e = { d with reg := r }

theorem SameButReg.foldl {α : Type} {g : Dev → α → Dev} (hg : ∀ d a, SameButReg d (g d a)) (l : List α) (d : Dev) :
    SameButReg d (l.foldl g d) := by
  induction l generalizing d with
  | nil => exact ⟨d.reg, rfl⟩
  | cons a l ih =>
    obtain ⟨r, hr⟩ := hg d a
    obtain ⟨r', hr'⟩ := ih (g d a)
    refine ⟨r', ?_⟩
    rw [List.foldl_cons, hr', hr]

theorem sameButReg_setMaster (d : Dev) (m : Nat) (x : Master) : SameButReg d (setMaster d m x) := ⟨_, rfl⟩

/-- A master's first window. -/
def startMaster (d : Dev) (m : Nat) : Dev :=
  setMaster d m { getMaster d m with charge := 0, overBudget := false, pressed := pressedNow d m }

/-- The regulator as its first window finds it. -/
def firstWindow (d : Dev) : Regulator :=
  { d.reg with deliver := deliverable d, guarSum := guarSum d, window := max 1 (rbits d 0x2100 7 0), mon := BitVec.ofNat 4 (rbits d 0x211C 3 0) }

theorem startRegulator_eq (d : Dev) : startRegulator d = masters.foldl startMaster { d with reg := firstWindow d } := by
  have hstep : startMaster = fun (d : Dev) m =>
      setMaster d m { getMaster d m with charge := 0, overBudget := false, pressed := pressedNow d m } := rfl
  rw [hstep]
  unfold startRegulator firstWindow
  rfl

theorem sameButReg_startRegulator (d : Dev) : SameButReg d (startRegulator d) := by
  obtain ⟨r, h⟩ := SameButReg.foldl (g := startMaster) (fun d m => sameButReg_setMaster ..) masters { d with reg := firstWindow d }
  exact ⟨r, by rw [startRegulator_eq, h]⟩

/-- What apply leaves: the flags of the boot state, an open Lint ring, a started energy unit; the die link and the transactions as they were. -/
theorem applyPattern_applies (d : Dev) : (applyPattern d).boot.applied = true ∧ (applyPattern d).boot.imgState = 4 ∧
    (applyPattern d).boot.step = 3 ∧ (applyPattern d).lint.open_ = true ∧ (applyPattern d).energy.started = true ∧
    (applyPattern d).link = d.link ∧ (applyPattern d).txns = d.txns ∧ (applyPattern d).boot.inst = d.boot.inst := by
  have hload := sameButRegs_loaded d
  have hboot := hload.boot_eq
  have hlink := hload.link_eq
  have htxns := hload.txns_eq
  rw [applyPattern_eq]
  generalize loaded d = e at *
  obtain ⟨r, h⟩ := sameButReg_startRegulator (applyBoot e)
  rw [h]
  exact ⟨rfl, rfl, rfl, rfl, rfl, hlink, htxns, show e.boot.inst = d.boot.inst by rw [hboot]⟩

/-! ## The image on a worker (R467) -/

/-- One word more of an image, within the buffer. -/
def putWord (e : SMap Word × Nat) (w : Word) : SMap Word × Nat := (if e.2 < 262144 then minsert e.1 e.2 w else e.1, e.2 + 1)

theorem mget_putWords_below (ws : List Word) (m : SMap Word) (i : Nat) {k : Nat} (hk : k < i) :
    mget (ws.foldl putWord (m, i)).1 k = mget m k := by
  induction ws generalizing m i with
  | nil => rfl
  | cons w ws ih =>
    rw [List.foldl_cons, putWord, ih _ _ (by omega)]
    split
    · exact mget_minsert_ne _ _ _ _ (by omega)
    · rfl

/-- The words of an image stand in the buffer in their order. -/
theorem mget_putWords (ws : List Word) (m : SMap Word) (i : Nat) {k : Nat} {w : Word} (hw : ws[k]? = some w) (hroom : i + ws.length ≤ 262144) :
    mget (ws.foldl putWord (m, i)).1 (i + k) = some w := by
  induction ws generalizing m i k with
  | nil => simp at hw
  | cons v ws ih =>
    rw [List.length_cons] at hroom
    rw [List.foldl_cons, putWord, if_pos (show i < 262144 by omega)]
    cases k with
    | zero =>
      rw [List.getElem?_cons_zero, Option.some.injEq] at hw
      rw [Nat.add_zero, mget_putWords_below ws _ _ (by omega), hw]
      exact mget_minsert ..
    | succ k =>
      rw [List.getElem?_cons_succ] at hw
      rw [← ih (minsert m i v) (i + 1) hw (by omega), Nat.add_right_comm, Nat.add_assoc]

theorem imageMessage_stores {d : Dev} (hw : asWorker d) (hstate : d.boot.imgState = 0) (off : Nat) (ws : List Word) :
    let im := (ws.foldl putWord (d.boot.image, off / 4)).1
    (imageMessage d off ws).boot.image = im ∧
      (imageComplete im = true → (imageMessage d off ws).boot.imgState = 1 ∧ (imageMessage d off ws).boot.step = 1) ∧
      (imageComplete im = false → (imageMessage d off ws).boot.imgState = 0) := by
  intro im
  have hacts : ¬((d.pins.rstAsserted || isManager d || decide (d.boot.imgState ≠ 0)) = true) := by
    rw [worker_acts hw, hstate]
    decide
  have himage : (storeWords (linkRx d (.image off ws)) (off / 4) ws).boot.image = im := rfl
  rw [imageMessage, if_neg hacts]
  dsimp only
  rw [himage]
  cases hfull : imageComplete im with
  | true =>
    rw [if_pos rfl]
    exact ⟨himage, fun _ => ⟨rfl, rfl⟩, fun h => absurd h (by decide)⟩
  | false =>
    rw [if_neg (by decide)]
    exact ⟨himage, fun h => absurd h (by decide), fun _ => hstate⟩

theorem SameButLink.boot_eq {d e : Dev} (h : SameButLink d e) : e.boot = d.boot := by obtain ⟨l, n, rfl⟩ := h; rfl
theorem SameButLink.lint_eq {d e : Dev} (h : SameButLink d e) : e.lint = d.lint := by obtain ⟨l, n, rfl⟩ := h; rfl
theorem SameButLink.energy_eq {d e : Dev} (h : SameButLink d e) : e.energy = d.energy := by obtain ⟨l, n, rfl⟩ := h; rfl
theorem SameButLink.txns_eq {d e : Dev} (h : SameButLink d e) : e.txns = d.txns := by obtain ⟨l, n, rfl⟩ := h; rfl
theorem SameButLink.tiles_eq {d e : Dev} (h : SameButLink d e) : e.tiles = d.tiles := by obtain ⟨l, n, rfl⟩ := h; rfl

theorem applyMessage_applies {d : Dev} (hw : asWorker d) (hstate : d.boot.imgState = 2) :
    applyMessage d = send (onLinkState (applyPattern d) fun p => { p with applyAt := true }) d.boot.mgr.toNat .applied := by
  rw [applyMessage, if_neg (by rw [worker_acts hw, hstate]; decide)]

theorem onLinkState_units (d : Dev) (f : Package → Package) : (onLinkState d f).boot = d.boot ∧ (onLinkState d f).lint = d.lint ∧
    (onLinkState d f).energy = d.energy := ⟨rfl, rfl, rfl⟩

theorem applyMessage_shows {d : Dev} (hw : asWorker d) (hstate : d.boot.imgState = 2) :
    (applyMessage d).boot.applied = true ∧ (applyMessage d).boot.imgState = 4 ∧ (applyMessage d).boot.step = 3 ∧
      (applyMessage d).link.applyAt = true ∧ (applyMessage d).lint.open_ = true ∧ (applyMessage d).energy.started = true := by
  obtain ⟨happlied, himg, hstep, hopen, hstarted, -⟩ := applyPattern_applies d
  rw [applyMessage_applies hw hstate]
  generalize applyPattern d = e at *
  obtain ⟨hboot, hlint, henergy⟩ := onLinkState_units e fun p => { p with applyAt := true }
  have hsame := sameButLink_send (onLinkState e fun p => { p with applyAt := true }) d.boot.mgr.toNat .applied
  rw [hsame.boot_eq, hsame.lint_eq, hsame.energy_eq, hboot, hlint, henergy]
  exact ⟨happlied, himg, hstep, (mailed_send ..).applyAt_eq, hopen, hstarted⟩

/-! ## The manager's write on a worker (R475) -/

theorem regWrite_demand {s : State} (hw : asWorker s.dev) (hs : hostServed s.dev 0xE0C4) (v : Word) :
    EndsDev (.regWrite 0xE0C4 v) s fun d => rbits d 0xE0C4 23 0 = bits v 23 0 ∧ d.tiles = s.dev.tiles := by
  refine ⟨ackManager (managerWrite s.dram s.dev 0xE0C4 v).1.2 0xE0C4 (managerWrite s.dram s.dev 0xE0C4 v).2, ?_, ?_, ?_⟩
  · change onMem s (fun m d => regWriteMsg m d 0xE0C4 v) = _
    have hmem : (managerWrite s.dram s.dev 0xE0C4 v).1.1 = s.dram := by rw [managerWrite_demand hs hw.1]
    have hmsg : regWriteMsg s.dram s.dev 0xE0C4 v = ((managerWrite s.dram s.dev 0xE0C4 v).1.1,
        ackManager (managerWrite s.dram s.dev 0xE0C4 v).1.2 0xE0C4 (managerWrite s.dram s.dev 0xE0C4 v).2) := by
      rw [regWriteMsg, if_neg (by rw [worker_acts hw]; decide)]
      rfl
    rw [onMem, hmsg, hmem]
  · rw [rbits, rget_ackManager, managerWrite_demand hs hw.1, rget_rset, bits_putFields_single (by omega)]
  · rw [(sameButLink_ackManager ..).tiles_eq, managerWrite_demand hs hw.1]
    exact rset_tiles ..

/-! ## The manager follows its workers (R467, R468, R474) -/

section Manager
variable {d : Dev} (hm : asManager d) {i : Nat} (hb : (getPeer d i).bcast = 1)
include hm hb

theorem verdict_failed (r : BitVec 4) : verdict d i (some r) = bcastFail d i 3 := by
  rw [verdict, if_neg (by rw [manager_acts hm, hb]; decide)]

theorem verdict_verified : verdict d i none =
    send (setPeer d i { getPeer d i with verified := true }) i (.regWrite 0xC030 (BitVec.ofNat 32 i)) := by
  rw [verdict, if_neg (by rw [manager_acts hm, hb]; decide)]

theorem regAck_slot (hv : (getPeer d i).verified = true) (ha : (getPeer d i).acked = false) : regAck d i 0xC030 =
    if d.link.joining = some (BitVec.ofNat 2 i) then send (setPeer d i { getPeer d i with acked := true }) i .apply
    else setPeer d i { getPeer d i with acked := true } := by
  rw [regAck]
  dsimp only
  rw [if_neg (by rw [manager_acts hm, hb, hv, ha]; decide)]

/-- The worker has joined. -/
def inPackage (d : Dev) (i : Nat) : Dev := setPeer d i { getPeer d i with bcast := 2, beating := true, misses := 0, hbWaiting := false }

/-- Its mark is cleared, and every instance that can be reached is told. -/
def unmarked (d : Dev) (i : Nat) : Dev :=
  if (getPeer d i).marked then
    (reachable (inPackage d i)).foldl (fun d j => send d j (.absentClear (BitVec.ofNat 2 i))) (clearMark (inPackage d i) i)
  else inPackage d i

theorem applied_acked (ha : (getPeer d i).acked = true) : applied d i = endBcast (unmarked d i) := by
  rw [applied]
  dsimp only
  rw [if_neg (by rw [manager_acts hm, hb, ha]; decide)]
  rfl

end Manager

theorem mailed_sends (b : Nat → MsgBody) (l : List Nat) (d : Dev) : Mailed d (l.foldl (fun d i => send d i (b i)) d) := by
  induction l generalizing d with
  | nil => exact .refl d
  | cons k l ih => exact (mailed_send d k (b k)).trans (ih _)

theorem sameButLink_sends (b : Nat → MsgBody) (l : List Nat) (d : Dev) : SameButLink d (l.foldl (fun d i => send d i (b i)) d) := by
  induction l generalizing d with
  | nil => exact .refl d
  | cons k l ih => exact (sameButLink_send d k (b k)).trans (ih _)

section InPackage
variable (d : Dev) (i : Nat)

theorem getPeer_inPackage : getPeer (inPackage d i) i = { getPeer d i with bcast := 2, beating := true, misses := 0, hbWaiting := false } :=
  getPeer_setPeer ..

/-- What a worker that has applied shows; no other peer, and no flag of the broadcast, changes. -/
theorem unmarked_shows : (getPeer (unmarked d i) i).bcast = 2 ∧ (getPeer (unmarked d i) i).beating = true ∧
    (getPeer (unmarked d i) i).marked = false ∧ (unmarked d i).link.joining = d.link.joining ∧ (unmarked d i).boot = d.boot ∧
    ∀ k, k ≠ i → (getPeer (unmarked d i) k).bcast = (getPeer d k).bcast := by
  have hpeer := getPeer_inPackage d i
  rw [unmarked]
  cases hmark : (getPeer d i).marked with
  | false =>
    rw [if_neg (by decide), hpeer]
    refine ⟨rfl, rfl, hmark, rfl, rfl, fun k hk => ?_⟩
    rw [inPackage, getPeer_setPeer_ne _ _ _ _ hk]
  | true =>
    rw [if_pos rfl]
    have hsent := mailed_sends (fun _ => .absentClear (BitVec.ofNat 2 i)) (reachable (inPackage d i)) (clearMark (inPackage d i) i)
    have hown : getPeer (clearMark (inPackage d i) i) i = { getPeer (inPackage d i) i with marked := false, cause := 0 } := getPeer_setPeer ..
    have hkept := hsent.peer i
    rw [hown, hpeer] at hkept
    refine ⟨hkept.bcast_eq, hkept.beating_eq, hkept.marked_eq, hsent.joining_eq, (sameButLink_sends ..).boot_eq, fun k hk => ?_⟩
    rw [(hsent.peer k).bcast_eq, clearMark, getPeer_setPeer_ne _ _ _ _ hk, inPackage, getPeer_setPeer_ne _ _ _ _ hk]

end InPackage

theorem endBcast_peers (d : Dev) (k : Nat) : getPeer (endBcast d) k = getPeer d k := by
  obtain ⟨b, j, h⟩ := endBcast_eq d
  rw [h]
  rfl

/-- A join ends once no worker is in progress (R474). -/
theorem endBcast_ends {d : Dev} (hjoin : d.link.joining.isSome = true) (hdone : ∀ k ∈ others d, (getPeer d k).bcast ≠ 1) :
    (endBcast d).link.bcastBusy = false ∧ (endBcast d).link.joining = none := by
  have hnone : (others d).any (fun i => decide ((getPeer d i).bcast = 1)) = false := by
    rw [List.any_eq_false]
    exact fun k hk => by rw [decide_eq_true_eq]; exact hdone k hk
  have hsome : d.link.joining.isNone = false := by rw [← Option.not_isSome, hjoin]; rfl
  rw [endBcast, hnone, hsome, Bool.and_false, if_neg (by decide)]
  exact ⟨rfl, rfl⟩

/-! ## JOIN (R474) -/

/-- A broadcast to one marked worker begins. -/
def joining (d : Dev) (i : Nat) : Dev := onLinkState d fun p => { p with bcastBusy := true, joining := some (BitVec.ofNat 2 i) }

theorem bcastTo_eq (d : Dev) (i : Nat) : bcastTo d i =
    (List.range ((imageBytes d + 223) / 224)).foldl (fun d n => send d i (imageMsg d n))
      (setPeer d i { getPeer d i with bcast := 1, acked := false, verified := false }) := rfl

theorem mailed_images (i : Nat) (l : List Nat) (d : Dev) : Mailed d (l.foldl (fun d n => send d i (imageMsg d n)) d) := by
  induction l generalizing d with
  | nil => exact .refl d
  | cons k l ih => exact (mailed_send d i (imageMsg d k)).trans (ih _)

theorem sameButLink_images (i : Nat) (l : List Nat) (d : Dev) : SameButLink d (l.foldl (fun d n => send d i (imageMsg d n)) d) := by
  induction l generalizing d with
  | nil => exact .refl d
  | cons k l ih => exact (sameButLink_send d i (imageMsg d k)).trans (ih _)

theorem mailed_bcastTo (d : Dev) (i : Nat) :
    Mailed (setPeer d i { getPeer d i with bcast := 1, acked := false, verified := false }) (bcastTo d i) := mailed_images i _ _

theorem joinInst_refuses {d : Dev} {i : BitVec 2}
    (h : (getPeer d i.toNat).marked = false ∨ (getPeer d i.toNat).unreach = true ∨ d.link.bcastBusy = true) :
    joinInst d i.toNat = (d, false) := by
  rw [joinInst, if_pos]
  obtain h | h | h := h
  · simp [h]
  · simp [h]
  · simp [h]

section Join
variable {d : Dev} {i : BitVec 2} (hm : isManager d = true) (hi : isOther d i)
include hm hi

theorem joinInst_accepts (hmark : (getPeer d i.toNat).marked = true) (hun : (getPeer d i.toNat).unreach = false)
    (hbusy : d.link.bcastBusy = false) : joinInst d i.toNat = (bcastTo (joining d i.toNat) i.toNat, true) := by
  have hme : decide (i.toNat = me d) = false := decide_eq_false (ne_me hi)
  rw [joinInst, if_neg (by rw [hm, hme, hmark, hun, hbusy]; decide)]
  rfl

end Join

end Sys2Proof.Machine

section
open Sys2Proof Sys2Proof.Machine Sys2Proof.Claims

/-- Settles O47: each message of the broadcast by what it leaves of its worker; the messages that follow touch nothing it shows. -/
theorem broadcastGoesStepByStep : Obligations.BroadcastGoesStepByStep := by
  refine ⟨fun off ws k w s hw hstate hword hroom => ?_, fun s hw hstate => ?_, fun v s hw hs => regWrite_demand hw hs v,
    fun i s hm hi hf => ⟨fun hb => ⟨?_, fun r => ?_, fun hv ha taken => ?_, fun ha => ?_⟩, fun hs hmark hun hbusy => ?_, fun hs h => ?_⟩⟩
  · refine endsDev_of_onDev (f := (imageMessage · off.toNat ws)) rfl ?_
    obtain ⟨himage, hfull, hpart⟩ := imageMessage_stores hw hstate off.toNat ws
    rw [himage]
    exact ⟨mget_putWords ws _ _ hword hroom, hfull, hpart⟩
  · exact endsDev_of_onDev (f := applyMessage) rfl (applyMessage_shows hw hstate)
  · refine endsDev_of_onDev (f := (verdict · i.toNat none)) rfl ?_
    rw [verdict_verified hm hb]
    have h := (mailed_send (setPeer s.dev i.toNat { getPeer s.dev i.toNat with verified := true }) i.toNat
      (.regWrite 0xC030 (BitVec.ofNat 32 i.toNat))).peer i.toNat
    rw [getPeer_setPeer] at h
    exact h
  · refine endsDev_of_onDev (f := (verdict · i.toNat (some r))) rfl ?_
    rw [verdict_failed hm hb]
    obtain ⟨hmarked, hthree, hpending, -⟩ := bcastFail_fails hf i.toNat 3
    exact ⟨hthree, hmarked, hpending⟩
  · refine endsDev_of_onDev (f := (regAck · i.toNat 0xC030)) rfl ?_
    rw [regAck_slot hm hb hv ha]
    split
    · have h := (mailed_send (setPeer s.dev i.toNat { getPeer s.dev i.toNat with acked := true }) i.toNat .apply).peer i.toNat
      rw [getPeer_setPeer] at h
      exact h
    · rw [getPeer_setPeer]
  · refine endsDev_of_onDev (f := (applied · i.toNat)) rfl ?_
    rw [applied_acked hm hb ha]
    obtain ⟨htwo, hbeat, hclear, hjoin, hboot, hrest⟩ := unmarked_shows s.dev i.toNat
    rw [endBcast_peers]
    refine ⟨htwo, hbeat, hclear, fun hjoining hdone => endBcast_ends (by rw [hjoin, hjoining]; rfl) fun k hk => ?_⟩
    have hothers : others (unmarked s.dev i.toNat) = others s.dev := by rw [others, others, me, me, hboot]
    rw [hothers] at hk
    by_cases hki : k = i.toNat
    · rw [hki, htwo]
      decide
    · rw [hrest k hki]
      exact hdone k hk hki
  · refine ends_join (v := joinWord i) rfl hs ?_
    rw [joinCmd_join, joinInst_accepts (d := atPort s.dev) hm.2 hi hmark hun hbusy]
    have hsent := mailed_bcastTo (joining (atPort s.dev) i.toNat) i.toNat
    have hpeer := hsent.peer i.toNat
    rw [getPeer_setPeer] at hpeer
    refine ⟨hsent.bcastBusy_eq, ?_, hpeer.bcast_eq, rfl⟩
    refine hsent.joining_eq.trans ?_
    change some (BitVec.ofNat 2 i.toNat) = some i
    rw [BitVec.ofNat_toNat, BitVec.setWidth_eq]
  · refine ends_join (v := joinWord i) rfl hs ?_
    rw [joinCmd_join, joinInst_refuses (d := atPort s.dev) h, commandEnd_ignored (by rw [isHemCmd]; rfl)]
    exact ⟨lint_link .., rfl⟩

end
end

section
/-!
The pattern's load on the manager: the image buffer, GO, the verdict of its verification, and apply (R467, R486 to R491).
-/
namespace Sys2Proof.Machine
open Sys2Proof.Claims

/-! ## DLB_IMG_DATA (R490) -/

theorem unpaired_imgData : Unpaired 0x100C := ⟨by decide, by decide⟩

theorem regCmd_imgData (m : SMap DLine) (d : Dev) (v : Word) : regCmd m d 0x100C v = some ((m, (imgData d v).1), (imgData d v).2) := rfl

theorem imgData_takes {d : Dev} (happlied : d.boot.applied = false) (hm : isManager d = true) (h1 : d.boot.imgState ≠ 1)
    (h2 : d.boot.imgState ≠ 2) (v : Word) : imgData d v =
      (rset (storeWords d (rbits d 0x1008 17 0) [v]) 0x1008 (BitVec.ofNat 32 ((rbits d 0x1008 17 0 + 1) % 262144)), true) := by
  rw [imgData, if_neg (by simp [happlied, hm, h1, h2])]

theorem imgData_refuses {d : Dev} (h : d.boot.applied = true ∨ isManager d = false ∨ d.boot.imgState = 1 ∨ d.boot.imgState = 2) (v : Word) :
    imgData d v = (d, false) := by
  rw [imgData, if_pos]
  obtain h | h | h | h := h
  · simp [h]
  · simp [h]
  · simp [h]
  · simp [h]

theorem imgDataWrite_takes (v : Word) {s : State} (hs : hostServed s.dev 0x100C) (happlied : s.dev.boot.applied = false)
    (hm : isManager s.dev = true) (h1 : s.dev.boot.imgState ≠ 1) (h2 : s.dev.boot.imgState ≠ 2) :
    EndsDev (.imgDataWrite v) s fun d =>
      mget d.boot.image (rbits s.dev 0x1008 17 0) = some v ∧
      (∀ k, k ≠ rbits s.dev 0x1008 17 0 → mget d.boot.image k = mget s.dev.boot.image k) ∧
      (rget d 0x1008).toNat = (rbits s.dev 0x1008 17 0 + 1) % 262144 ∧ okay d := by
  have hroom : rbits s.dev 0x1008 17 0 < 262144 := bits_lt _ 17 0
  have himage : (([v] : List Word).foldl putWord (s.dev.boot.image, rbits s.dev 0x1008 17 0)).1 =
      minsert s.dev.boot.image (rbits s.dev 0x1008 17 0) v := if_pos hroom
  refine ends_command (v := v) rfl hs unpaired_imgData (regCmd_imgData _ _ _) ?_
  rw [imgData_takes (d := atPort s.dev) happlied hm h1 h2 v]
  refine ⟨?_, fun k hk => ?_, ?_, rfl⟩
  · exact (congrArg (mget · _) himage).trans (mget_minsert ..)
  · exact (congrArg (mget · k) himage).trans (mget_minsert_ne _ _ _ _ hk)
  · rw [commandEnd_taken, rget_answerWrite, rget_rset, BitVec.toNat_ofNat]
    exact Nat.mod_eq_of_lt (by omega)

theorem imgDataWrite_ignored (v : Word) {s : State} (hs : hostServed s.dev 0x100C)
    (h : s.dev.boot.applied = true ∨ isManager s.dev = false ∨ s.dev.boot.imgState = 1 ∨ s.dev.boot.imgState = 2) :
    EndsDev (.imgDataWrite v) s fun d => d.boot = s.dev.boot ∧ ignored d := by
  refine ends_command (v := v) rfl hs unpaired_imgData (regCmd_imgData _ _ _) ?_
  rw [imgData_refuses (d := atPort s.dev) h v, commandEnd_ignored (by rw [isHemCmd]; rfl)]
  exact ⟨lint_boot .., rfl⟩

/-! ## GO (R491) -/

theorem unpaired_bootCtrl : Unpaired 0x1000 := ⟨by decide, by decide⟩

theorem exec_go (s : State) : exec .go s = hostCmd 0x1000 (rget s.dev 0x1000 ||| 0x80000000) s := by
  change onMem s (fun m d => portWrite m d 0x1000 (rget d 0x1000 ||| 0x80000000)) = _
  simp only [hostCmd, onMem]

theorem goWord_go (w : Word) : (w ||| 0x80000000).getLsbD 31 = true := by
  rw [BitVec.getLsbD_or, show (0x80000000 : Word).getLsbD 31 = true from rfl, Bool.or_true]

/-- Verification has started. -/
def verifying (d : Dev) : Dev := { d with boot := { d.boot with imgState := 1, imgReason := 0, imgDetail := 0, step := 1 } }

theorem goCmd_starts {d : Dev} (happlied : d.boot.applied = false) (hm : isManager d = true) (h1 : d.boot.imgState ≠ 1)
    (h2 : d.boot.imgState ≠ 2) (hbusy : d.link.bcastBusy = false) :
    goCmd d = (verifying d, true) := by
  rw [goCmd, if_neg (by simp [happlied, hm, h1, h2, hbusy])]
  rfl

theorem goCmd_refuses {d : Dev} (h : d.boot.applied = true ∨ isManager d = false ∨ d.boot.imgState = 1 ∨ d.boot.imgState = 2 ∨
    d.link.bcastBusy = true) : goCmd d = (d, false) := by
  rw [goCmd, if_pos]
  obtain h | h | h | h | h := h
  · simp [h]
  · simp [h]
  · simp [h]
  · simp [h]
  · simp [h]

/-- KIND of DLB_BOOT_CTRL, while the pattern has not been applied. -/
def writeKind (d : Dev) (v : Word) : Dev := if d.boot.applied then d else rset d 0x1000 (setBits (rget d 0x1000) 0 0 (bits v 0 0))

theorem writeKind_units (d : Dev) (v : Word) :
    (writeKind d v).boot = d.boot ∧ (writeKind d v).link = d.link ∧ (writeKind d v).pins = d.pins := by
  unfold writeKind
  split
  · exact ⟨rfl, rfl, rfl⟩
  · exact ⟨rset_boot .., rset_link .., rset_pins ..⟩

/-- DLB_BOOT_CTRL with GO: what GO does, and KIND. -/
theorem bootCtrl_go (d : Dev) {v : Word} (hgo : v.getLsbD 31 = true) : bootCtrl d v =
    (writeKind (if (goCmd d).2 then (goCmd d).1 else logIgnored (goCmd d).1 0x1000 v) v, (goCmd d).2 || !d.boot.applied) := by
  rw [bootCtrl, hgo]
  rfl

theorem ends_go {s : State} {P : Dev → Prop} (hs : hostServed s.dev 0x1000)
    (hP : P (answerWrite (bootCtrl (atPort s.dev) (rget s.dev 0x1000 ||| 0x80000000)).1
      (bootCtrl (atPort s.dev) (rget s.dev 0x1000 ||| 0x80000000)).2)) : EndsDev .go s P :=
  ends_field (exec_go s) hs unpaired_bootCtrl rfl hP

theorem go_starts {s : State} (hs : hostServed s.dev 0x1000) (happlied : s.dev.boot.applied = false) (hm : isManager s.dev = true)
    (h1 : s.dev.boot.imgState ≠ 1) (h2 : s.dev.boot.imgState ≠ 2) (hbusy : s.dev.link.bcastBusy = false) : EndsDev .go s fun d =>
      d.boot = { s.dev.boot with imgState := 1, imgReason := 0, imgDetail := 0, step := 1 } ∧ okay d := by
  refine ends_go hs ?_
  rw [bootCtrl_go _ (goWord_go _), goCmd_starts (d := atPort s.dev) happlied hm h1 h2 hbusy]
  exact ⟨(writeKind_units (verifying (atPort s.dev)) _).1, rfl⟩

theorem go_refused {s : State} (hs : hostServed s.dev 0x1000)
    (h : s.dev.boot.applied = true ∨ isManager s.dev = false ∨ s.dev.boot.imgState = 1 ∨ s.dev.boot.imgState = 2 ∨
      s.dev.link.bcastBusy = true) : EndsDev .go s fun d => d.boot = s.dev.boot ∧ d.link = s.dev.link ∧ d.pins = s.dev.pins ∧
        (s.dev.boot.applied = true → ignored d) := by
  refine ends_go hs ?_
  rw [bootCtrl_go _ (goWord_go _), goCmd_refuses (d := atPort s.dev) h]
  obtain ⟨hboot, hlink, hpins⟩ := writeKind_units (logIgnored (atPort s.dev) 0x1000 (rget s.dev 0x1000 ||| 0x80000000))
    (rget s.dev 0x1000 ||| 0x80000000)
  refine ⟨hboot.trans (lint_boot ..), hlink.trans (lint_link ..), hpins.trans (lint_pins ..), fun happlied => ?_⟩
  rw [show (atPort s.dev).boot.applied = true from happlied]
  rfl

/-! ## PATTERN_VERIFY (R486, R488) -/

/-- The boot state with its verdict. -/
def verdictBoot (f : Fuses) (d : Dev) : Boot :=
  { d.boot with imgState := if (verifyImage f d).1 = 0 then 2 else 3, imgReason := (verifyImage f d).1, imgDetail := (verifyImage f d).2,
                step := if (verifyImage f d).1 = 0 then 2 else 0 }

/-- PATTERN_REJECTED is raised where the image fails. -/
def judged (f : Fuses) (d : Dev) : Dev :=
  if (verifyImage f d).1 = 0 then { d with boot := verdictBoot f d } else raise { d with boot := verdictBoot f d } Ev.PATTERN_REJECTED

/-- What the manager does next, or a worker's answer. -/
def passedOn (f : Fuses) (d e : Dev) : Dev :=
  if isManager d then (if (verifyImage f d).1 = 0 then bcastStart e else e)
  else send e d.boot.mgr.toNat (.verdict (if (verifyImage f d).1 = 0 then none else some (BitVec.ofNat 4 (verifyImage f d).1)))

theorem patternVerify_eq (f : Fuses) {d : Dev} (hrst : d.pins.rstAsserted = false) (himg : d.boot.imgState = 1)
    (hlinks : isManager d = true → linksTrain d = false) : patternVerify f d = passedOn f d (judged f d) := by
  have hacts : ¬((decide (d.boot.imgState ≠ 1) || d.pins.rstAsserted || (isManager d && linksTrain d)) = true) := by
    cases hm : isManager d with
    | true => simp [hrst, himg, hlinks hm]
    | false => simp [hrst, himg]
  rw [patternVerify, if_neg hacts]
  rfl

theorem patternVerify_waits (f : Fuses) {d : Dev} (hm : isManager d = true) (hlinks : linksTrain d = true) : patternVerify f d = d := by
  rw [patternVerify, if_pos (by simp [hm, hlinks])]

/-- A step on each of a list of peers keeps the frame where no forwarded request is outstanding. -/
theorem follows_each {g : Dev → Nat → Dev} (hg : ∀ d i, noFwds d → Follows (fun _ => True) d (g d i)) (l : List Nat) {d : Dev}
    (hd : noFwds d) : Follows (fun _ => True) d (l.foldl g d) := by
  induction l generalizing d with
  | nil => exact .refl d
  | cons i l ih => exact (hg d i hd).trans (ih ((hg d i hd).noFwds hd))

/-- Step 1 of the broadcast for one worker (R467). -/
def bcastOne (d : Dev) (i : Nat) : Dev := if (getPeer d i).unreach then bcastFail d i 6 else bcastTo d i

theorem follows_bcastTo (d : Dev) (i : Nat) : Follows (fun _ => True) d (bcastTo d i) := by
  refine (follows_setPeer d (i := i) trivial { getPeer d i with bcast := 1, acked := false, verified := false }).trans ?_
  obtain ⟨l, n, h⟩ := sameButLink_images i (List.range ((imageBytes d + 223) / 224))
    (setPeer d i { getPeer d i with bcast := 1, acked := false, verified := false })
  rw [← bcastTo_eq] at h
  exact ((mailed_bcastTo d i).follows (by rw [h]) (by rw [h]) (keepsRegs_of_regs (by rw [h]))).of_noPeer

theorem follows_bcastOne {d : Dev} (hd : noFwds d) (i : Nat) : Follows (fun _ => True) d (bcastOne d i) := by
  obtain ⟨-, -, -, hfail⟩ := bcastFail_fails hd i 6
  unfold bcastOne
  split
  · exact hfail.mono fun _ _ => trivial
  · exact follows_bcastTo d i

/-- The broadcast is on. -/
def bcasting (d : Dev) : Dev := onLinkState d fun p => { p with bcastBusy := true, joining := none }

theorem bcastStart_eq (d : Dev) : bcastStart d = (others (bcasting d)).foldl bcastOne (bcasting d) := rfl

theorem follows_bcasting (d : Dev) : Follows noPeer d (bcasting d) :=
  ⟨rfl, rfl, rfl, rfl, rfl, rfl, rfl, linksKept_of_link rfl, fun _ _ => .refl _, keepsRegs_of_regs rfl⟩

/-- The broadcast to the workers touches no boot state, and clears no pending bit. -/
theorem follows_bcastStart {d : Dev} (hd : noFwds d) : Follows (fun _ => True) d (bcastStart d) := by
  rw [bcastStart_eq]
  exact (follows_bcasting d).of_noPeer.trans (follows_each (fun d i hd => follows_bcastOne hd i) _ hd)

section Verdict
variable (f : Fuses) {d : Dev} (hd : noFwds d)

theorem judged_boot : (judged f d).boot = verdictBoot f d := by
  unfold judged
  split
  · rfl
  · rw [raise_boot]

theorem judged_raises (hbad : (verifyImage f d).1 ≠ 0) : isPending (judged f d) Ev.PATTERN_REJECTED := by
  rw [judged, if_neg hbad]
  exact isPending_raise _ none none (by decide)

include hd

theorem noFwds_judged : noFwds (judged f d) := by
  unfold judged noFwds
  split
  · exact hd
  · rw [raise_link]
    exact hd

theorem follows_passedOn : Follows (fun _ => True) (judged f d) (passedOn f d (judged f d)) := by
  unfold passedOn
  split
  · split
    · exact follows_bcastStart (noFwds_judged f hd)
    · exact .refl _
  · exact (follows_send ..).of_noPeer

end Verdict

theorem patternVerify_ends {s : State} (hrst : s.dev.pins.rstAsserted = false) (himg : s.dev.boot.imgState = 1) (hf : s.dev.link.fwds = [])
    (hlinks : isManager s.dev = true → linksTrain s.dev = false) : EndsDev .patternVerify s fun d =>
      let r := verifyImage s.fuses s.dev
      d.boot.imgReason = r.1 ∧ d.boot.imgDetail = r.2 ∧ d.boot.applied = s.dev.boot.applied ∧
      (r.1 = 0 → d.boot.imgState = 2 ∧ d.boot.step = 2) ∧
      (r.1 ≠ 0 → d.boot.imgState = 3 ∧ d.boot.step = 0 ∧ isPending d Ev.PATTERN_REJECTED) := by
  refine endsDev_of_onDev (f := patternVerify s.fuses) rfl ?_
  rw [patternVerify_eq s.fuses hrst himg hlinks]
  have hpassed := follows_passedOn s.fuses hf
  rw [hpassed.boot, judged_boot]
  refine ⟨rfl, rfl, rfl, fun hgood => ⟨if_pos hgood, if_pos hgood⟩, fun hbad => ⟨if_neg hbad, if_neg hbad, ?_⟩⟩
  exact hpassed.isPending (by decide) (judged_raises s.fuses hbad)

/-! ## PATTERN_APPLY (R487) -/

/-- The manager itself has applied. -/
def selfApplied (d : Dev) : Dev := setPeer (applyPattern d) (me d) { getPeer (applyPattern d) (me d) with bcast := 2 }

theorem patternApply_eq {d : Dev} (hm : asManager d) (himg : d.boot.imgState = 2) (hready : bcastReady d = true) :
    ∃ l : List Nat, patternApply d = endBcast (l.foldl (fun d i => send d i .apply) (selfApplied d)) := by
  refine ⟨(others (selfApplied d)).filter fun i => (getPeer (selfApplied d) i).bcast = 1 && (getPeer (selfApplied d) i).acked, ?_⟩
  rw [patternApply, if_neg (by rw [manager_acts hm, himg, hready]; decide)]
  rfl

theorem selfApplied_units (d : Dev) : (selfApplied d).boot = (applyPattern d).boot ∧ (selfApplied d).lint = (applyPattern d).lint ∧
    (selfApplied d).energy = (applyPattern d).energy ∧ (selfApplied d).txns = (applyPattern d).txns := by
  exact ⟨setPeer_boot .., setPeer_lint .., setPeer_energy .., setPeer_txns ..⟩

theorem endBcast_units (d : Dev) : (endBcast d).boot = d.boot ∧ (endBcast d).lint = d.lint ∧ (endBcast d).energy = d.energy ∧
    (endBcast d).txns = d.txns := by
  obtain ⟨b, j, h⟩ := endBcast_eq d
  rw [h]
  exact ⟨rfl, rfl, rfl, rfl⟩

theorem patternApply_shows {d : Dev} (hm : asManager d) (himg : d.boot.imgState = 2) (hready : bcastReady d = true) :
    (patternApply d).boot.applied = true ∧ (patternApply d).boot.imgState = 4 ∧ (patternApply d).boot.step = 3 ∧
      (getPeer (patternApply d) (me d)).bcast = 2 ∧ (patternApply d).lint.open_ = true ∧ (patternApply d).energy.started = true ∧
      (patternApply d).txns = d.txns := by
  obtain ⟨l, hl⟩ := patternApply_eq hm himg hready
  obtain ⟨happlied, hstate, hstep, hopen, hstarted, -, htxns, -⟩ := applyPattern_applies d
  obtain ⟨hboot, hlint, henergy, htxn⟩ := selfApplied_units d
  have hsent := mailed_sends (fun _ => .apply) l (selfApplied d)
  have hsame := sameButLink_sends (fun _ => .apply) l (selfApplied d)
  have hpeer : (getPeer (selfApplied d) (me d)).bcast = 2 := by rw [selfApplied, getPeer_setPeer]
  rw [hl]
  generalize l.foldl (fun d i => send d i .apply) (selfApplied d) = e at *
  obtain ⟨eboot, elint, eenergy, etxns⟩ := endBcast_units e
  rw [eboot, elint, eenergy, etxns, endBcast_peers, hsame.boot_eq, hsame.lint_eq, hsame.energy_eq, hsame.txns_eq, (hsent.peer _).bcast_eq,
    hboot, hlint, henergy, htxn]
  exact ⟨happlied, hstate, hstep, hpeer, hopen, hstarted, htxns⟩

end Sys2Proof.Machine

section
open Sys2Proof Sys2Proof.Machine Sys2Proof.Claims

/-- Settles O48: the buffer and GO are writes at the port, the verdict is the boot state that verification leaves, and apply what
`applyPattern` leaves. -/
theorem patternLoadsOnTheManager : Obligations.PatternLoadsOnTheManager := by
  refine ⟨fun v s hs => ⟨imgDataWrite_takes v hs, imgDataWrite_ignored v hs⟩, fun s hs => ⟨go_starts hs, go_refused hs⟩,
    fun s hrst himg hf => ⟨fun hm hlinks => ?_, patternVerify_ends hrst himg hf⟩, fun s hm himg hready => ?_⟩
  · change onDev s (patternVerify s.fuses) = _
    rw [onDev, patternVerify_waits s.fuses hm hlinks]
  · exact endsDev_of_onDev (f := patternApply) rfl (patternApply_shows hm himg hready)

end
end

section
/-!
O42 fails: the choice that waits for the end of a change of point is promised its point whatever DLW_PURSE_CTRL says. While EN is 0
the instance runs at OP0 (R441), and the model takes up OP0 in its place.
-/
namespace Sys2Proof.Machine
open Sys2Proof.Claims

/-- The purse is off (EN of DLW_PURSE_CTRL is 0), and the last region of a change to point 2 is under way while point 3 waits for its
end. -/
def wishesWithoutPurse : Dev :=
  { Reset.dev with
      regs := [(0xE000, 0)]
      energy := { Reset.dev.energy with chg := true, changing := [1], begun := true, target := 2, wish := some 3 } }

theorem wishesWithoutPurse_idle : allIdle wishesWithoutPurse ∧ ∀ t ∈ regionTiles 1, (svc wishesWithoutPurse t).hem.use = .idle := by
  decide +kernel

/-- The instance ends at OP0, and no change runs. -/
theorem wishesWithoutPurse_ends_at_zero :
    (rateChangeRegion wishesWithoutPurse true).energy.point = 0 ∧ (rateChangeRegion wishesWithoutPurse true).energy.chg = false := by
  decide +kernel

end Sys2Proof.Machine

section
open Sys2Proof Sys2Proof.Machine Sys2Proof.Claims

/-- Refutes O42: the clause of the choice that waits does not ask that the purse act. With EN at 0 the change that ends is followed by
one to OP0, not to the point that waited. -/
theorem not_railsRatesAndEnergyWrites : ¬ Obligations.RailsRatesAndEnergyWrites := by
  rintro ⟨⟨-, hrate, -⟩, -⟩
  obtain ⟨hidle, hhems⟩ := wishesWithoutPurse_idle
  obtain ⟨-, hwish, -⟩ := hrate 1 true { State.reset with dev := wishesWithoutPurse } rfl rfl hhems hidle
  obtain ⟨d, hexec, -, hends⟩ := hwish 3 rfl rfl (.inl rfl) (by decide)
  have hd : rateChangeRegion wishesWithoutPurse true = d := dev_eq_of_next hexec
  obtain ⟨hpoint, hchg⟩ := wishesWithoutPurse_ends_at_zero
  rw [hd] at hpoint hchg
  obtain h | ⟨h, -⟩ := hends
  · exact absurd (hpoint.symm.trans h) (by decide)
  · exact absurd (hchg.symm.trans h) (by decide)

end
end

section
/-!
O28, O30, O33, O37 and O38 fail. Each ends a command with the settling of the panel of its tile, and asks that this panel be idle, but not
that it be `seated`. In `disputedMap` tile 83 belongs to panel 0, and so does tile 4 by `tileAt`, which names panel 5; a bolt operation
of panel 5, which all its members have granted, goes on when tile 4 is settled, and by `tileAt` tile 83 is its member 3.
-/
namespace Sys2Proof.Machine
open Sys2Proof.Claims

/-! ## The scene -/

/-- The device with that tile map, its hems' clocks running, whose tile 83 is `x` and in whose panel 5 the operation `o` waits. -/
def disputedTile (x : Tile) (o : BoltOp) : Dev :=
  let d := disputedMap Reset.slice
  { d with pins := { d.pins with ck := true }, tiles := [(83, x)], panels := [(5, { Reset.panel with boltOps := [o] })] }

/-- Two states that one command answers have one device. -/
theorem devs_eq_of_next {u v : State} (h : (Host.Outcome.next u : Host.Outcome State Fault Refusal) = .next v) : u.dev = v.dev :=
  congrArg State.dev (Host.Outcome.next.inj h)

/-! ## A column write beside a WRITEBOLT (O28) -/

/-- A FULL entry of the disputed line. -/
def disputedEntry : HEntry := ⟨0, .full, 2, 5, 0, 5, disputedBolt, ⟨77, 0⟩, false, none, false, false, false, false, false⟩

/-- It stands in the round of a drain, and its row is open. -/
def disputedRound : Chan :=
  { Reset.chan with ham := [disputedEntry], nextId := 1, mode := .hwm, round := [0],
                    banks := [(2, { Reset.bank with openRow := some 5, actAt := some 0 })] }

def disputedColumn : State := { State.reset with dev := disputedTile { Reset.tile with chan := disputedRound } grantedWritebolt }

theorem disputedColumn_ready : roundReads (chan disputedColumn.dev 83) = [] ∧ roundAll (chan disputedColumn.dev 83) = [disputedEntry] ∧
    colOk disputedColumn.dev 83 2 5 true 1000 = true ∧ idlePanel disputedColumn.dev (panelOf disputedColumn.dev 83) := by decide +kernel

/-- The two lines of member 3 enter its Hamper. -/
theorem ham_after_columnWrite : (chan (columnCommand disputedColumn.dram disputedColumn.dev (83 : Fin 320).val 1000).2 83).ham.length = 2 := by decide +kernel

theorem exec_columnCommandIssue (t : Fin 320) (at_ : Nat) (s : State) : exec (.columnCommandIssue t at_) s =
    .next { s with dram := (columnCommand s.dram s.dev t.val at_).1, dev := (columnCommand s.dram s.dev t.val at_).2 } := rfl

/-! ## A line that returns beside a ZERO (O30) -/

/-- The read of the disputed line for its miss entry, on its way with the value 5. -/
def disputedFly : Fly := ⟨.fill, .miss disputedLoc, 2, 5, 5, 0, 0, some (coded disputedLoc 5), 0, 0, none, true, 0⟩

def disputedFill : Tile :=
  { Reset.tile with slice := { Reset.slice with miss := [⟨disputedLoc, disputedBolt, .waiting, 0, []⟩] }
                    chan := { Reset.chan with fly := [disputedFly] } }

/-- In panel 5 a ZERO waits, and the word of its bolt in the Blank map has a single error. -/
def disputedReturn : State :=
  let d := disputedTile disputedFill { grantedWritebolt with zero := true }
  { State.reset with dev := { d with blank := { d.blank with errs := [(mapWord grantedWritebolt.bolt, false)] } } }

theorem disputedReturn_ready : (chan disputedReturn.dev 83).fly = [disputedFly] ∧ (chan disputedReturn.dev 83).alert = none ∧
    roleOf disputedReturn.dev disputedLoc = .data ⟨0, 2, 5, 0, 0⟩ ∧
    isValid disputedReturn.dev (stripeBolt disputedReturn.dev ⟨0, 2, 5, 0, 0⟩) = true ∧
    idlePanel disputedReturn.dev (panelOf disputedReturn.dev 83) := by decide +kernel

theorem disputedFly_good : checkLine disputedLoc (coded disputedLoc 5) false = .good := by decide +kernel

/-- The error is counted in DLE_BLANK_ERR. -/
theorem blankErr_after_return : rget (lineReturn disputedReturn.dram disputedReturn.dev (83 : Fin 320).val 0 0 .none .none).2 0xA010 = 1 := by decide +kernel

theorem exec_lineReadReturn (t : Fin 320) (fd : LineData) (fm : BitVec 32) (e0 e1 : Ecc) (s : State) :
    exec (.lineReadReturn t fd fm e0 e1) s = .next { s with dram := (lineReturn s.dram s.dev t.val fd fm e0 e1).1,
                                                            dev := (lineReturn s.dram s.dev t.val fd fm e0 e1).2 } := rfl

/-! ## A job's last write beside a WRITEBOLT (O33, O38) -/

/-- The write of the line at l for job 3. -/
def disputedPut (l : Loc) : Part := ⟨0, 0, 17, 7, .unit (.put .full ⟨9, 9⟩ false (some 3)), l, 0⟩

def disputedPutTxn : Txn := { writeboltTxn with src := .unit, master := 17, left := 1 }

/-- The arbiter of tile 83 has decided to grant it; it is the last write of the job j, which alone panel 0 runs. -/
def disputedJob (l : Loc) (j : Job) (v : Svc) : State :=
  let s : Slice := { Reset.slice with arb := [(17, [disputedPut l])], decided := some (17, true) }
  let d := disputedTile { Reset.tile with slice := s, svc := v } grantedWritebolt
  { State.reset with dev := { d with txns := (0, disputedPutTxn) :: d.txns, jobs := [(3, j)], nextJob := 4,
                                     panels := (0, { Reset.panel with jobs := [3] }) :: d.panels } }

/-- The place of a parity line of panel 0 in tile 83, and a reconstruct-write of it. -/
def disputedParity : Loc := ⟨83, 2, 1920, 0⟩
def disputedReconstruct : Job := ⟨⟨0, 3, 0, 3, 0⟩, .reconstruct 0 ⟨1, 1⟩, 0, [], [], [], 1, [], 0, false⟩
def disputedMend : State := disputedJob disputedParity disputedReconstruct Reset.svc

theorem disputedMend_ready : oneJob disputedMend.dev (panelOf disputedMend.dev 83) 3 ∧ idleSlice (slice disputedMend.dev 83) ∧
    accepts disputedMend.dev 83 = true ∧ allSent disputedMend.dev ∧ isGranted disputedMend.dev 83 17 (disputedPut disputedParity) true ∧
    roleOf disputedMend.dev disputedParity = .parity ⟨0, 3, 0, 3, 0⟩ ∧
    countsOut disputedMend.dev 83 (stripeBolt disputedMend.dev ⟨0, 3, 0, 3, 0⟩) = false ∧ unitMay disputedMend.dev 83 = true ∧
    hamRoom (chan disputedMend.dev 83) 1 = true := by decide +kernel

theorem ham_after_mend : (chan (tileGrant disputedMend.dev 83) 83).ham.length = 3 := by decide +kernel

/-- The walk of tile 83 of the stripe of the disputed line. -/
def disputedWalkJob : Job := ⟨⟨0, 2, 5, 0, 0⟩, .walk 83, 0, [], [], [], 1, [], 0, false⟩
def disputedWalk : State := disputedJob disputedLoc disputedWalkJob { Reset.svc with state := .returning }

theorem disputedWalk_ready : oneJob disputedWalk.dev (panelOf disputedWalk.dev 83) 3 ∧ idleSlice (slice disputedWalk.dev 83) ∧
    accepts disputedWalk.dev 83 = true ∧ allSent disputedWalk.dev ∧ isGranted disputedWalk.dev 83 17 (disputedPut disputedLoc) true ∧
    unitMay disputedWalk.dev 83 = true ∧ hamRoom (chan disputedWalk.dev 83) 1 = true ∧ walkFits disputedWalk.dev 83 3 = true := by
  decide +kernel

theorem ham_after_walk : (chan (tileGrant disputedWalk.dev 83) 83).ham.length = 3 := by decide +kernel

/-- One entry more is not three. -/
theorem ham_ne_append {c : Chan} (h : c.ham.length = 3) (e : HEntry) : c.ham ≠ [] ++ [e] := by
  intro heq
  rw [heq] at h
  have hcontra : 1 = 3 := h
  exact absurd hcontra (by decide)

/-! ## A take-out beside a WRITEBOLT (O37) -/

/-- A WRITEBOLT of panel 5 whose stripe names a row that no channel has; member 3 holds its parity. -/
def beyondWritebolt : BoltOp := ⟨1, 5, false, .none, ⟨5, 2, 4000, 3, 0⟩, 4, List.range 16, []⟩

def disputedTakeOut : State :=
  { State.reset with dev := disputedTile { Reset.tile with svc := { Reset.svc with draining := true } } beyondWritebolt }

theorem disputedTakeOut_ready : (svc disputedTakeOut.dev 83).draining = true ∧ channelEmpty disputedTakeOut.dev 83 = true ∧
    (chan disputedTakeOut.dev 83).alert = none ∧ (svc disputedTakeOut.dev 83).slot = none ∧
    idlePanel disputedTakeOut.dev (panelOf disputedTakeOut.dev 83) := by decide +kernel

/-- Two lines enter the Hamper of the tile that has gone out. -/
theorem ham_after_takeOut : (chan (takeOutDrainDone disputedTakeOut.dev 83) 83).ham.length = 2 := by decide +kernel

theorem ham_before_takeOut : (chan disputedTakeOut.dev 83).ham.length = 0 := by decide +kernel

end Sys2Proof.Machine

section
open Sys2Proof Sys2Proof.Machine Sys2Proof.Claims

/-- Refutes O28: its third clause does not ask that the panel be `seated`. The Hamper is promised to lose the entry that is written, and
no more; but a WRITEBOLT of panel 5 goes on in the same command, and two lines of it enter. -/
theorem not_columnCommandsTouchOneLine : ¬ Obligations.ColumnCommandsTouchOneLine := by
  rintro ⟨-, -, hwrite⟩
  obtain ⟨hreads, hall, hcol, hidle⟩ := disputedColumn_ready
  obtain ⟨u, hexec, -, -, -, -, hrest⟩ := hwrite 83 1000 disputedEntry [] ⟨77, 0⟩ disputedColumn (by decide) rfl hreads hall hcol rfl
  obtain ⟨hham, -⟩ := hrest rfl hidle
  rw [exec_columnCommandIssue] at hexec
  have hu := devs_eq_of_next hexec
  dsimp only at hu
  have hcontra : 2 = 0 :=
    calc 2
      _ = (chan u.dev 83).ham.length := by rw [← hu, ham_after_columnWrite]
      _ = 0 := congrArg List.length hham
  exact absurd hcontra (by decide)

/-- Refutes O30: it does not ask that the panel be `seated`. The registers are promised to stay; but a ZERO of panel 5 goes on in the same
command, and the error that its lookup in the Blank map corrects is counted (R351). -/
theorem not_lineReturnsToItsMiss : ¬ Obligations.LineReturnsToItsMiss := by
  intro h
  obtain ⟨hfly, halert, hrole, hvalid, hidle⟩ := disputedReturn_ready
  obtain ⟨hgood, -⟩ := h 83 disputedFly [] (coded disputedLoc 5) ⟨0, 2, 5, 0, 0⟩ disputedReturn hfly halert rfl rfl rfl hrole hvalid rfl hidle
    (by decide)
  obtain ⟨d, hexec, -, hregs, -⟩ := hgood disputedFly_good
  rw [exec_lineReadReturn] at hexec
  have hd := devs_eq_of_next hexec
  dsimp only at hd
  have hcontra : (1 : Word) = 0 :=
    calc (1 : Word)
      _ = rget d 0xA010 := by rw [← hd, blankErr_after_return]
      _ = 0 := rget_congr hregs _
  exact absurd hcontra (by decide)

/-- Refutes O33: its last clause does not ask that the panel be `seated`. The Hamper is promised the entry of the write and no other; but
a WRITEBOLT of panel 5 goes on in the same command, and two lines of it enter. -/
theorem not_darnEndsItsJobs : ¬ Obligations.DarnEndsItsJobs := by
  rintro ⟨-, -, -, hput⟩
  obtain ⟨hjob, hslice, haccepts, hsent, hgranted, hrole, hout, hmay, hroom⟩ := disputedMend_ready
  obtain ⟨d, hexec, ⟨e, hham, -⟩, -⟩ := hput 83 0 7 0 3 0 true disputedParity ⟨9, 9⟩ ⟨1, 1⟩ ⟨0, 3, 0, 3, 0⟩ disputedPutTxn disputedReconstruct
    disputedMend hjob hslice rfl rfl rfl rfl haccepts hsent hgranted rfl rfl hrole hout hmay hroom
  rw [exec_tileGrant] at hexec
  have hd : tileGrant disputedMend.dev 83 = d := dev_eq_of_next hexec
  exact ham_ne_append (hd ▸ ham_after_mend) e hham

/-- Refutes O37: its take-out's clause does not ask that the panel be `seated`. The channel of the tile that goes out is promised to stay
empty; but a WRITEBOLT of panel 5 goes on in the same command, and lines of it enter. -/
theorem not_serviceCommandsAreCheckedAndComplete : ¬ Obligations.ServiceCommandsAreCheckedAndComplete := by
  rintro ⟨-, hdrained, -⟩
  obtain ⟨hdraining, hempty, halert, hslot, hidle⟩ := disputedTakeOut_ready
  obtain ⟨d, hexec, -, -, hchan⟩ := hdrained 83 disputedTakeOut hdraining hempty halert hslot hidle
  have hd : takeOutDrainDone disputedTakeOut.dev 83 = d := dev_eq_of_next hexec
  have hcontra : 2 = 0 :=
    calc 2
      _ = (chan d 83).ham.length := by rw [← hd, ham_after_takeOut]
      _ = (chan disputedTakeOut.dev 83).ham.length := congrArg (fun c => c.ham.length) hchan
      _ = 0 := ham_before_takeOut
  exact absurd hcontra (by decide)

/-- Refutes O38: the clause of the walk's last write does not ask that the panel be `seated`. The Hamper is promised the entry of that
write and no other; but a WRITEBOLT of panel 5 goes on in the same command, and two lines of it enter. -/
theorem not_walkAndRinseGoBoltByBolt : ¬ Obligations.WalkAndRinseGoBoltByBolt := by
  rintro ⟨⟨-, -, -, hput, -⟩, -⟩
  obtain ⟨hjob, hslice, haccepts, hsent, hgranted, hmay, hroom, hfits⟩ := disputedWalk_ready
  obtain ⟨d, hexec, ⟨e, hham, -⟩, -⟩ := hput 83 83 0 7 3 0 true disputedLoc ⟨9, 9⟩ disputedPutTxn disputedWalkJob disputedWalk hjob hslice
    rfl rfl rfl rfl rfl haccepts hsent hgranted rfl rfl (by decide) hmay hroom hfits rfl (by decide)
  rw [exec_tileGrant] at hexec
  have hd : tileGrant disputedWalk.dev 83 = d := dev_eq_of_next hexec
  exact ham_ne_append (hd ▸ ham_after_walk) e hham

end
end

section
/-!
O39 fails: M21's work on the PATCH section of a tile is promised to be one job more. Where a freeze has stopped a move while M21 wrote its
record, the move asks for the record again after the tile's return (R391), and the job that is still under way takes the new writes too.
-/
namespace Sys2Proof.Machine
open Sys2Proof.Claims

/-- A move of tile 0 that has copied its last column, while M21 still writes an earlier record. -/
def recordUnderWay : Svc := { Reset.svc with move := some ⟨0, 2, 5, 0, none, 32, none, false⟩, led := [⟨0x1000, 8, 16⟩] }

def recordAgain : State := { State.reset with dev := { Reset.dev with tiles := [(0, { Reset.tile with svc := recordUnderWay })] } }

theorem recordAgain_led : (svc (rowPatched recordAgain.dev 0) 0).led = [⟨0x1000, 8, 32⟩] := by decide +kernel

end Sys2Proof.Machine

section
open Sys2Proof Sys2Proof.Machine Sys2Proof.Claims

/-- Refutes O39: the clause of the record does not ask that M21 have no work left on the tile's PATCH section. A job there takes the 16
new writes, and no second one joins the list. -/
theorem not_patchMovesARowAndWearIsCounted : ¬ Obligations.PatchMovesARowAndWearIsCounted := by
  rintro ⟨⟨-, -, hpatched⟩, -⟩
  obtain ⟨hrecord, -⟩ := hpatched 0 ⟨0, 2, 5, 0, none, 32, none, false⟩ recordAgain rfl (by decide) rfl
  obtain ⟨d, hexec, hsvc, -⟩ := hrecord rfl
  have hd : rowPatched recordAgain.dev 0 = d := dev_eq_of_next hexec
  have hcontra : 1 = 2 :=
    calc 1
      _ = (svc d 0).led.length := by rw [← hd, recordAgain_led]; rfl
      _ = 2 := congrArg (fun v => v.led.length) hsvc
  exact absurd hcontra (by decide)

end
end

section
/-!
What the commands of the hems leave alone: refreshes and precharges outside the choice of row commands, entries into self-refresh, mode
register writes, training patterns (R330, R408 to R415, R446, R502).
-/
namespace Sys2Proof.Machine
open Sys2Proof.Claims

/-! ## The frame -/

/-- The energy state but for the counts of the current ECLK, the change of point, and what an exhausted purse sets. -/
def windowCore (e : Energy) : Energy :=
  { e with counts := [], chg := false, changing := [], begun := false, target := 0, point := 0, wish := none, midwin := false,
           exhausted := false, rinseHold := false }

/-- What commands on channels and changes of point leave alone: of the tiles their slices and service states, of the registers all but
interrupt causes and the counts of RFM. -/
structure Channels (d e : Dev) : Prop where
  svc : ∀ t, svc e t = svc d t
  slice : ∀ t, slice e t = slice d t
  reg : e.reg = d.reg
  link : e.link = d.link
  boot : e.boot = d.boot
  ycp : e.ycp = d.ycp
  pins : e.pins = d.pins
  blank : e.blank = d.blank
  mend : e.mend = d.mend
  energy : windowCore e.energy = windowCore d.energy
  pending : ∀ k i, k < 0x100000 → (rget d k).getLsbD i = true → (rget e k).getLsbD i = true
  other : ∀ k, k < 0x80 ∨ 0xA0 ≤ k → (∀ t, k ≠ tileOff t 0x18C) → rget e k = rget d k

namespace Channels
variable {d e f : Dev}

theorem refl (d : Dev) : Channels d d := ⟨fun _ => rfl, fun _ => rfl, rfl, rfl, rfl, rfl, rfl, rfl, rfl, rfl, fun _ _ _ h => h, fun _ _ _ => rfl⟩

theorem trans (h : Channels d e) (h' : Channels e f) : Channels d f :=
  ⟨fun t => (h'.svc t).trans (h.svc t), fun t => (h'.slice t).trans (h.slice t), h'.reg.trans h.reg, h'.link.trans h.link,
    h'.boot.trans h.boot, h'.ycp.trans h.ycp, h'.pins.trans h.pins, h'.blank.trans h.blank, h'.mend.trans h.mend, h'.energy.trans h.energy, fun k i hk hb => h'.pending k i hk (h.pending k i hk hb),
    fun k hk ht => (h'.other k hk ht).trans (h.other k hk ht)⟩

theorem of_ite {c : Prop} [Decidable c] (he : Channels d e) (hf : Channels d f) : Channels d (if c then e else f) := by
  split
  · exact he
  · exact hf

theorem foldl {α : Type} {g : Dev → α → Dev} (hg : ∀ d a, Channels d (g d a)) (l : List α) (d : Dev) : Channels d (l.foldl g d) := by
  induction l generalizing d with
  | nil => exact .refl d
  | cons a l ih => exact (hg d a).trans (ih _)

theorem iter {n : Nat} {g : Nat → Dev → Dev} (hg : ∀ i d, Channels d (g i d)) (d : Dev) : Channels d (Machine.iter n g d) :=
  foldl (fun d i => hg i d) _ d

theorem isPending (h : Channels d e) {c : Nat} (hc : c < 0x200) (hp : isPending d c) : Claims.isPending e c :=
  h.pending _ _ (by unfold irqPend; omega) hp

theorem rbits_eq (h : Channels d e) {k : Nat} (hk : 0xA0 ≤ k) (htile : k < 0x100000) (hi lo : Nat) : rbits e k hi lo = rbits d k hi lo := by
  rw [rbits, rbits, h.other k (.inr hk) fun t => by unfold tileOff; omega]

/-- A part of the energy state that the frame keeps. -/
theorem energy_eq (h : Channels d e) {α : Type} (f : Energy → α) (hf : ∀ x, f (windowCore x) = f x) : f e.energy = f d.energy := by
  rw [← hf, h.energy, hf]

theorem getMaster_eq (h : Channels d e) (m : Nat) : getMaster e m = getMaster d m := by rw [getMaster, getMaster, h.reg]

theorem counted {s : Dev} (h : Channels d e) {k n : Nat} (hk : 0x100000 ≤ k) (ht : ∀ t, k ≠ tileOff t 0x18C) (hc : counted s d k n) :
    Claims.counted s e k n := by
  rw [Claims.counted, h.other k (by omega) ht]
  exact hc

end Channels

/-! ## The parts of a command -/

section Parts
variable (d : Dev)

theorem channels_onChan (t : Nat) (f : Chan → Chan) : Channels d (onChan d t f) :=
  ⟨fun u => svc_onChan d t u f, fun u => slice_onChan d t u f, rfl, rfl, rfl, rfl, rfl, rfl, rfl, rfl, fun _ _ _ h => h, fun _ _ _ => rfl⟩

theorem channels_onLayer (t k : Nat) (f : Layer → Layer) : Channels d (onLayer d t k f) :=
  ⟨fun _ => rfl, fun _ => rfl, rfl, rfl, rfl, rfl, rfl, rfl, rfl, rfl, fun _ _ _ h => h, fun _ _ _ => rfl⟩

theorem channels_eCount (owner cls n : Nat) : Channels d (eCount d owner cls n) :=
  ⟨fun _ => rfl, fun _ => rfl, rfl, rfl, rfl, rfl, rfl, rfl, rfl, rfl, fun _ _ _ h => h, fun _ _ _ => rfl⟩

theorem channels_raise (e : Nat) (m b : Option Nat) : Channels d (raise d e m b) := by
  have htile (t : Nat) : getTile (raise d e m b) t = getTile d t := getTile_congr (raise_tiles ..) t
  exact ⟨fun t => congrArg Tile.svc (htile t), fun t => congrArg Tile.slice (htile t), raise_reg .., raise_link .., raise_boot ..,
    raise_ycp .., raise_pins .., raise_blank .., raise_mend .., by rw [raise_energy], fun _ _ _ hb => getLsbD_raise_of_getLsbD hb e m b, fun _ hk _ => rget_raise_ne _ _ _ _ _ hk⟩

theorem channels_rinc_rfm (t n : Nat) : Channels d (rinc d (tileOff t 0x18C) n) := by
  refine ⟨fun _ => rfl, fun _ => rfl, rfl, rfl, rfl, rfl, rfl, rfl, rfl, rfl, fun k i hk hb => ?_, fun k _ ht => rget_rinc_ne _ _ _ (ht t)⟩
  rw [rget_rinc_ne _ _ _ (by unfold tileOff; omega)]
  exact hb

end Parts

/-! ## Refreshes and self-refresh -/

section Refreshes
variable (d : Dev) (t : Nat)

theorem channels_doPre (bank at_ : Nat) : Channels d (doPre d t bank at_) := channels_onChan ..

theorem channels_doRefresh (target at_ : Nat) : Channels d (doRefresh d t target at_) :=
  ((channels_onChan ..).trans (channels_eCount ..)).trans (channels_raise ..)

theorem channels_refreshAt (at_ target : Nat) : Channels d (refreshAt at_ t d target) := by
  refine (channels_onChan ..).trans (Channels.trans (.foldl (fun d b => ?_) _ _) (channels_doRefresh ..))
  exact .of_ite (channels_doPre ..) (.refl d)

theorem channels_issueDue (at_ : Nat) : Channels d (issueDue d t at_) := by
  unfold issueDue
  exact ((channels_onChan ..).trans (.of_ite (.refl _) (channels_rinc_rfm ..))).trans (.foldl (fun d k => channels_refreshAt d t at_ k) _ _)

theorem channels_pauseTile : Channels d (pauseTile d t) := (channels_onChan ..).trans (channels_issueDue ..)

theorem channels_repayAll (rank : Nat) : Channels d (repayAll d t rank) :=
  (channels_onChan ..).trans (.iter (fun _ d => channels_refreshAt d t 0 rank) _)

theorem channels_repayQuiet : Channels d (repayQuiet d t) :=
  .foldl (fun d _ => .of_ite (channels_repayAll d t _) (.refl d)) _ d

theorem channels_sleepTile : Channels d (sleepTile d t) :=
  (channels_pauseTile d t).trans (.foldl (fun d r => (channels_repayAll d t r).trans (channels_onChan ..)) _ _)

end Refreshes

/-! ## Commands to the layers -/

section Layers
variable (d : Dev) (t : Nat)

theorem channels_layerCmd (tm : Timing) (rank reg sub : Nat) (wr : Bool) (x : DLine) : Channels d (layerCmd tm t rank reg sub wr x d) :=
  ((channels_onChan ..).trans (channels_onChan ..)).trans (channels_onChan ..)

theorem channels_noteMode (at_ rank : Nat) (u : ModeUndo) : Channels d (noteMode d t at_ rank u) := channels_onChan ..

theorem channels_sendMrw (tm : Timing) (rank : Nat) (w : Nat × BitVec 16) : Channels d (sendMrw tm t rank d w) := by
  unfold sendMrw
  exact Channels.trans ((channels_layerCmd d ..).trans (channels_noteMode ..)) (channels_onLayer ..)

theorem channels_sendMrr (tm : Timing) (rank reg : Nat) : Channels d (sendMrr tm t rank d reg) := channels_layerCmd ..

theorem channels_sendTrk (tm : Timing) (rank : Nat) : Channels d (sendTrk tm t rank d) := by
  unfold sendTrk
  exact Channels.trans ((channels_layerCmd d ..).trans (channels_noteMode ..)) (channels_onLayer ..)

theorem channels_eachLayer {f : Nat → Dev → Dev} (hf : ∀ k d, Channels d (f k d)) : Channels d (eachLayer f d) := (hf 0 d).trans (hf 1 _)

theorem channels_sendMrws (tm : Timing) (rank : Nat) (l : List (Nat × BitVec 16)) : Channels d (l.foldl (sendMrw tm t rank) d) :=
  .foldl (fun d w => channels_sendMrw d t tm rank w) l d

theorem channels_sendScript (l : List (Nat × BitVec 16)) : Channels d (sendScript d t l) := by
  unfold sendScript
  exact channels_eachLayer d fun k d => channels_sendMrws d t _ k l

theorem channels_fifoMode (v : BitVec 16) : Channels d (fifoMode d t v) :=
  .of_ite (.refl d) ((channels_eachLayer d fun _ d => channels_onLayer d ..).trans (channels_sendScript ..))

theorem channels_fifoBatch (tm : Timing) (rank : Nat) : Channels d (fifoBatch tm t rank d) := by
  refine Channels.trans (.iter (fun _ d => ?_) d) (.iter (fun _ d => ?_) _)
  · exact Channels.trans (.of_ite (channels_layerCmd ..) ((channels_layerCmd d t ..).trans (channels_noteMode ..))) (channels_onLayer ..)
  · exact ((channels_layerCmd d t ..).trans (channels_noteMode ..)).trans (channels_onLayer ..)

theorem channels_verifyRank (tm : Timing) (rank : Nat) : Channels d (verifyRank tm t rank d) :=
  (((channels_fifoBatch d t ..).trans (channels_fifoBatch ..)).trans (channels_onChan ..)).trans (channels_fifoBatch ..)

theorem channels_enterSafe (tm : Timing) (rank : Nat) : Channels d (enterSafe tm t rank d) := .of_ite (.refl d) (channels_sendMrw ..)

/-- A training touches the channel and the layers alone. -/
theorem channels_trainHem (r : Trial) : Channels d (trainHem d t r) := by
  unfold trainHem
  refine .of_ite (.refl d) ?_
  have hstep (n last : Nat) {f : Nat → Dev → Dev} (hf : ∀ k d, Channels d (f k d)) (d : Dev) :
      Channels d (if n ≤ last then eachLayer f d else d) := .of_ite (channels_eachLayer d hf) (.refl d)
  have hrates {f : Nat → Dev → Dev} (hf : ∀ k d, Channels d (f k d)) (d : Dev) : Channels d (eachLayer f (eachLayer f d)) :=
    (channels_eachLayer d hf).trans (channels_eachLayer _ hf)
  refine Channels.trans ?_ (hstep _ _ (fun k d => channels_sendMrw d t ..) _)
  refine Channels.trans ?_ (.of_ite (hrates (fun k d => channels_verifyRank d t ..) _) (.refl _))
  refine Channels.trans ?_ (.of_ite (Channels.trans (channels_eachLayer _ fun k d => (channels_sendMrw d t ..).trans (channels_onLayer ..))
    (hrates (fun k d => channels_fifoBatch d t ..) _)) (.refl _))
  refine Channels.trans ?_ (.of_ite (hrates (fun k d => channels_sendTrk d t ..) _) (.refl _))
  refine Channels.trans ?_ (hstep _ _ (fun k d => channels_sendMrws d t ..) _)
  refine Channels.trans ?_ (hstep _ _ (fun k d => (channels_sendMrw d t ..).trans (channels_onChan ..)) _)
  exact hstep _ _ (fun k d => ((channels_enterSafe d t ..).trans (channels_sendMrr ..)).trans (channels_sendMrr ..)) d

end Layers

/-! ## Changes of point (R446) -/

theorem channels_onEnergy (d : Dev) {f : Energy → Energy} (hf : windowCore (f d.energy) = windowCore d.energy) : Channels d (onEnergy d f) :=
  ⟨fun _ => rfl, fun _ => rfl, rfl, rfl, rfl, rfl, rfl, rfl, rfl, hf, fun _ _ _ h => h, fun _ _ _ => rfl⟩

theorem channels_beginRegion (d : Dev) : Channels d (beginRegion d) := by
  unfold beginRegion
  split
  · refine .of_ite (.refl d) (Channels.trans (.foldl (fun d t => ?_) _ d) (channels_onEnergy (f := fun e => { e with begun := true }) _ rfl))
    split
    · exact channels_pauseTile d t
    · exact channels_sleepTile d t
  · exact .refl d

theorem channels_startChange (d : Dev) (k : Nat) : Channels d (startChange d k) := by
  unfold startChange
  refine .of_ite (channels_onEnergy d rfl) (.of_ite (channels_onEnergy d rfl) ?_)
  split
  · exact (channels_onEnergy d rfl).trans (channels_raise ..)
  · exact (channels_onEnergy d rfl).trans (channels_beginRegion _)

theorem channels_toFloor (d : Dev) : Channels d (toFloor d) :=
  .of_ite ((channels_onEnergy d rfl).trans (channels_startChange ..)) (.refl d)

theorem channels_thresholds (d : Dev) : Channels d (thresholds d) := by
  unfold thresholds
  refine .of_ite (.refl d) (Channels.trans ?_ (channels_toFloor _))
  have hrinse : Channels d (if rbits d 0xE000 23 16 ≠ 0 && decide (d.energy.pEff * rbits d 0xE000 23 16 ≤ d.energy.spent * 256) then
      onEnergy d fun e => { e with rinseHold := true } else d) := .of_ite (channels_onEnergy d rfl) (.refl d)
  exact .of_ite hrinse ((hrinse.trans (channels_onEnergy _ rfl)).trans (channels_raise ..))

end Sys2Proof.Machine
end

section
/-!
Nothing is dropped: a message to an instance to which a path is up waits at its sender or stands in the queue of a link, whatever else
is sent (R62, R460).
-/
namespace Sys2Proof.Machine
open Sys2Proof.Claims

/-- The message stands in the queue of a link. -/
def isQueued (d : Dev) (m : Msg) : Prop := ∃ j q, j < 2 ∧ q ∈ (getLink d j).queue ∧ q.msg = m

/-- It stands there, or among the messages that a pump has held back so far. -/
def isKept (a : Dev × List Msg) (m : Msg) : Prop := m ∈ a.2 ∨ isQueued a.1 m

/-- A path to its receiver is up. -/
def hasPath (d : Dev) (m : Msg) : Prop := (pathOk d m.dst.toNat 0 || pathOk d m.dst.toNat 1) = true

theorem isQueued_of_links {d e : Dev} (h : e.link.links = d.link.links) {m : Msg} (hm : isQueued d m) : isQueued e m := by
  obtain ⟨j, q, hj, hq, heq⟩ := hm
  exact ⟨j, q, hj, by rw [getLink, h]; exact hq, heq⟩

/-- A queue takes more messages in. -/
theorem isQueued_setQueue {d : Dev} (j : Nat) {l : List Queued} (hl : ∀ q ∈ (getLink d j).queue, q ∈ l) {m : Msg} (hm : isQueued d m) :
    isQueued (setLink d j { getLink d j with queue := l }) m := by
  obtain ⟨k, q, hk, hq, heq⟩ := hm
  refine ⟨k, q, hk, ?_, heq⟩
  by_cases h : k = j
  · subst h
    rw [getLink_setLink]
    exact hl q hq
  · rw [getLink_setLink_ne _ _ _ _ h]
    exact hq

theorem isQueued_enqueue {d : Dev} (j : Nat) (q : Queued) {m : Msg} (hm : isQueued d m) : isQueued (enqueue d j q) m :=
  isQueued_setQueue j (fun _ h => List.mem_append_left _ h) hm

theorem isQueued_enqueued (d : Dev) {j : Nat} (hj : j < 2) (m : Msg) (c : Nat) (b : Bool) : isQueued (enqueue d j ⟨m, c, b⟩) m := by
  refine ⟨j, ⟨m, c, b⟩, hj, ?_, rfl⟩
  rw [enqueue, getLink_setLink]
  exact List.mem_append_right _ List.mem_cons_self

/-! ## A message enters a queue -/

theorem isQueued_putMsg {d : Dev} (x : Msg) {m : Msg} (hm : isQueued d m) : isQueued (putMsg d x) m := by
  unfold putMsg
  dsimp only
  split
  · exact isQueued_setQueue _ (fun _ h => List.mem_cons_of_mem _ h) hm
  · split
    · split
      · exact isQueued_enqueue _ _ (isQueued_of_links rfl hm)
      · exact isQueued_enqueue _ _ hm
    · exact hm

theorem directLink_lt (me dst : Nat) : directLink me dst < 2 := by
  unfold directLink
  split
  · decide
  · decide

/-- Where a path is up a message finds the first link of one. -/
theorem chooseLink_of_path {d : Dev} {dst : Nat} (h : (pathOk d dst 0 || pathOk d dst 1) = true) (b : MsgBody) :
    ∃ j, j < 2 ∧ chooseLink d dst b = some j := by
  have hp := directLink_lt d.boot.inst.toNat dst
  have ho : 1 - directLink d.boot.inst.toNat dst < 2 := by omega
  have hsome : ¬(pathOk d dst (directLink d.boot.inst.toNat dst) = false ∧ pathOk d dst (1 - directLink d.boot.inst.toNat dst) = false) := by
    rintro ⟨hfirst, hsecond⟩
    have hcases : directLink d.boot.inst.toNat dst = 0 ∨ directLink d.boot.inst.toNat dst = 1 := by omega
    obtain h0 | h1 := hcases
    · rw [h0] at hfirst hsecond
      exact absurd h (by rw [hfirst, hsecond]; decide)
    · rw [h1] at hfirst hsecond
      exact absurd h (by rw [hfirst, hsecond]; decide)
  unfold chooseLink
  dsimp only
  split
  next hfirst hsecond => exact absurd ⟨hfirst, hsecond⟩ hsome
  · exact ⟨_, hp, rfl⟩
  · exact ⟨_, ho, rfl⟩
  · split
    · split
      · exact ⟨_, hp, rfl⟩
      · exact ⟨_, ho, rfl⟩
    · split
      · exact ⟨_, ho, rfl⟩
      · exact ⟨_, hp, rfl⟩

theorem isQueued_put {d : Dev} {m : Msg} (hcode : m.body.code ≠ 3) (h : hasPath d m) : isQueued (putMsg d m) m := by
  obtain ⟨j, hj, hchoose⟩ := chooseLink_of_path h m.body
  unfold putMsg
  dsimp only
  rw [if_neg hcode, hchoose]
  exact isQueued_enqueued _ hj m 0 false

/-! ## A request gives its room up -/

theorem mem_of_takeFirst {α : Type} {p : α → Bool} {l : List α} {r : α × List α} (h : takeFirst p l = some r) {x : α} (hx : x ∈ l) :
    x = r.1 ∨ x ∈ r.2 := by
  induction l generalizing r with
  | nil => simp at hx
  | cons a l ih =>
    unfold takeFirst at h
    split at h
    · cases h
      exact List.mem_cons.mp hx
    · obtain ⟨q, hq, rfl⟩ := Option.map_eq_some_iff.mp h
      obtain rfl | hx := List.mem_cons.mp hx
      · exact .inr List.mem_cons_self
      · exact (ih hq hx).imp_right (List.mem_cons_of_mem _)

theorem isKept_unsend {d e : Dev} {x : Msg} (h : unsend d = some (x, e)) {m : Msg} (hm : isQueued d m) : m = x ∨ isQueued e m := by
  obtain ⟨j, -, hj⟩ := List.exists_of_findSome?_eq_some h
  obtain ⟨r, hr, heq⟩ := Option.map_eq_some_iff.mp hj
  cases heq
  obtain ⟨k, q, hk, hq, rfl⟩ := hm
  by_cases hkj : k = j
  · subst hkj
    obtain rfl | hrest := mem_of_takeFirst hr (List.mem_reverse.mpr hq)
    · exact .inl rfl
    · refine .inr ⟨k, q, hk, ?_, rfl⟩
      rw [getLink_setLink]
      exact List.mem_reverse.mpr hrest
  · refine .inr ⟨k, q, hk, ?_, rfl⟩
    rw [getLink_setLink_ne _ _ _ _ hkj]
    exact hq

theorem isKept_yieldRoom (n : Nat) {a : Dev × List Msg} {m : Msg} (hm : isKept a m) : isKept (yieldRoom n a) m := by
  induction n generalizing a with
  | zero => exact hm
  | succ n ih =>
    rw [yieldRoom]
    split
    · exact hm
    · split
      next x e hx =>
        refine ih (hm.elim (fun h => .inl (List.mem_cons_of_mem _ h)) fun h => ?_)
        exact (isKept_unsend hx h).imp (fun (h : m = x) => List.mem_cons.mpr (.inl h)) id
      · exact hm

/-! ## The held messages go on -/

theorem isKept_pumpOne {a : Dev × List Msg} (x : Msg) {m : Msg} (hm : isKept a m) : isKept (pumpOne a x) m := by
  have hput : isKept (putMsg a.1 x, a.2) m := hm.imp id (isQueued_putMsg x)
  unfold pumpOne
  split
  · exact hm.imp (List.mem_append_left _) id
  · split
    · exact isKept_yieldRoom _ hput
    · exact hput

theorem isKept_pumped {a : Dev × List Msg} {m : Msg} (hcode : m.body.code ≠ 3) (h : hasPath a.1 m) : isKept (pumpOne a m) m := by
  have hput : isKept (putMsg a.1 m, a.2) m := .inr (isQueued_put hcode h)
  unfold pumpOne
  split
  · exact .inl (List.mem_append_right _ List.mem_cons_self)
  · split
    · exact isKept_yieldRoom _ hput
    · exact hput

theorem hasPath_of_mailed {d e : Dev} (h : Mailed d e) (hinst : e.boot.inst = d.boot.inst) {m : Msg} (hm : hasPath d m) : hasPath e m := by
  rw [hasPath, h.links.pathOk_eq hinst h.far_eq, h.links.pathOk_eq hinst h.far_eq]
  exact hm

theorem isKept_pumps (l : List Msg) {a : Dev × List Msg} {m : Msg} (hm : isKept a m) : isKept (l.foldl pumpOne a) m := by
  induction l generalizing a with
  | nil => exact hm
  | cons x l ih => exact ih (isKept_pumpOne x hm)

theorem isKept_of_held {l : List Msg} {a : Dev × List Msg} {m : Msg} (hcode : m.body.code ≠ 3) (h : hasPath a.1 m) (hm : m ∈ l) :
    isKept (l.foldl pumpOne a) m := by
  induction l generalizing a with
  | nil => simp at hm
  | cons x l ih =>
    obtain rfl | hm := List.mem_cons.mp hm
    · exact isKept_pumps l (isKept_pumped hcode h)
    · exact ih (hasPath_of_mailed (mailed_pumpOne a x) (by rw [(sameButLink_pumpOne a x).boot_eq]) h) hm

/-- A message that was held or queued still is, once the held ones have gone on. -/
theorem hasMsg_sendHeld {d : Dev} {m : Msg} (hcode : m.body.code ≠ 3) (h : hasPath d m) (hm : hasMsg d m) : hasMsg (sendHeld d) m := by
  have hkept : isKept (d.link.held.foldl pumpOne (d, [])) m :=
    hm.elim (isKept_of_held hcode h) fun hq => isKept_pumps _ (.inr hq)
  exact hkept.imp id (isQueued_of_links rfl)

section Send
variable (d : Dev) (dst : Nat) (b : MsgBody)

/-- The message that is sent. -/
def msgTo (d : Dev) (dst : Nat) (b : MsgBody) : Msg := ⟨d.boot.inst, BitVec.ofNat 2 dst, b⟩

/-- It waits with those that are held back. -/
def holding (d : Dev) (m : Msg) : Dev := { d with link := { d.link with held := d.link.held ++ [m] } }

theorem hasPath_holding {x m : Msg} (h : hasPath d m) : hasPath (holding d x) m := hasPath_of_mailed (mailed_withHeld d _) rfl h

theorem hasMsg_send {m : Msg} (hcode : m.body.code ≠ 3) (h : hasPath d m) (hm : hasMsg d m) : hasMsg (send d dst b) m :=
  hasMsg_sendHeld (d := holding d (msgTo d dst b)) hcode (hasPath_holding d h) (hm.imp (List.mem_append_left _) (isQueued_of_links rfl))

theorem hasMsg_sent (hcode : b.code ≠ 3) (h : hasPath d (msgTo d dst b)) : hasMsg (send d dst b) (msgTo d dst b) :=
  hasMsg_sendHeld (d := holding d (msgTo d dst b)) hcode (hasPath_holding d h) (.inl (List.mem_append_right _ List.mem_cons_self))

end Send

theorem hasPath_follows {K : Nat → Prop} {d e : Dev} (h : Follows K d e) {m : Msg} (hm : hasPath d m) : hasPath e m := by
  rw [hasPath, h.pathOk_eq, h.pathOk_eq]
  exact hm

theorem hasMsg_of_link {d e : Dev} (h : e.link = d.link) {m : Msg} (hm : hasMsg d m) : hasMsg e m :=
  hm.imp (by rw [h]; exact id) (isQueued_of_links (by rw [h]))

end Sys2Proof.Machine
end

section
/-!
Samples of the event counts (R428 to R430).
-/
namespace Sys2Proof.Machine
open Sys2Proof.Claims

/-! ## One count -/

/-- What a count is worth under a table of coefficients. -/
def worth (coefs : SMap Nat) (x : Nat × Nat) : Nat := x.2 * mgetD 0 coefs (coefOf (x.1 / 16) (x.1 % 16))

/-- The worth of those counts of a list whose owner satisfies p. -/
def worthOf (coefs : SMap Nat) (p : Nat → Bool) (l : List (Nat × Nat)) : Nat := ((l.filter fun x => p (x.1 / 16)).map (worth coefs)).sum

theorem worthOf_cons (coefs : SMap Nat) (p : Nat → Bool) (x : Nat × Nat) (l : List (Nat × Nat)) :
    worthOf coefs p (x :: l) = (if p (x.1 / 16) then worth coefs x else 0) + worthOf coefs p l := by
  unfold worthOf
  cases h : p (x.1 / 16)
  · rw [List.filter_cons_of_neg (by simp [h]), if_neg (by decide), Nat.zero_add]
  · rw [List.filter_cons_of_pos (p := fun (x : Nat × Nat) => p (x.1 / 16)) h, List.map_cons, List.sum_cons, if_pos rfl]

/-- The energy state with more at one total. -/
def addTotal (k n : Nat) (e : Energy) : Energy := { e with totals := mputD 0 e.totals k (mgetD 0 e.totals k + n) }

theorem totals_addTotal (k n : Nat) (e : Energy) (o : Nat) :
    mgetD 0 (addTotal k n e).totals o = mgetD 0 e.totals o + if o = k then n else 0 := by
  unfold addTotal
  split
  next h => rw [h, mgetD_mputD]
  next h => rw [mgetD_mputD_ne _ _ _ _ _ h, Nat.add_zero]

theorem sampleOne_eq (e : Energy) (x : Nat × Nat) : sampleOne e x =
    if inEstimate (x.1 / 16) then
      { addTotal 346 (worth e.coefs x) (addTotal (x.1 / 16) (worth e.coefs x) e) with winPj := e.winPj + worth e.coefs x }
    else addTotal (x.1 / 16) (worth e.coefs x) e := rfl

section One
variable (e : Energy) (x : Nat × Nat)

/-- A count goes to its owner's total, and for an owner of the estimate to the sum of all. -/
theorem totals_sampleOne (hx : x.1 / 16 < 345) (o : Nat) : mgetD 0 (sampleOne e x).totals o = mgetD 0 e.totals o +
    if (if o = 346 then inEstimate (x.1 / 16) else x.1 / 16 = o) then worth e.coefs x else 0 := by
  rw [sampleOne_eq]
  by_cases ho : o = 346
  · have hne : ¬(346 = x.1 / 16) := by omega
    subst ho
    cases h : inEstimate (x.1 / 16)
    · rw [if_neg (by decide), totals_addTotal, if_neg hne]
      rfl
    · rw [if_pos rfl]
      exact (totals_addTotal ..).trans (congrArg (· + worth e.coefs x) ((totals_addTotal ..).trans (by rw [if_neg hne, Nat.add_zero])))
  · have hown : mgetD 0 (addTotal (x.1 / 16) (worth e.coefs x) e).totals o = mgetD 0 e.totals o + if x.1 / 16 = o then worth e.coefs x else 0 := by
      rw [totals_addTotal]
      simp only [eq_comm]
    simp only [if_neg ho, decide_eq_true_eq]
    split
    · refine Eq.trans (totals_addTotal ..) ?_
      rw [if_neg ho, Nat.add_zero, hown]
    · exact hown

theorem winPj_sampleOne : (sampleOne e x).winPj = e.winPj + if inEstimate (x.1 / 16) then worth e.coefs x else 0 := by
  rw [sampleOne_eq]
  split
  · rfl
  · rfl

theorem sampleOne_rest : (sampleOne e x).coefs = e.coefs ∧ (sampleOne e x).counts = e.counts ∧ (sampleOne e x).eclk = e.eclk := by
  rw [sampleOne_eq]
  split
  · exact ⟨rfl, rfl, rfl⟩
  · exact ⟨rfl, rfl, rfl⟩

theorem sampleOne_marks : (sampleOne e x).midwin = e.midwin ∧ (sampleOne e x).started = e.started ∧
    (sampleOne e x).exhausted = e.exhausted := by
  rw [sampleOne_eq]
  split
  · exact ⟨rfl, rfl, rfl⟩
  · exact ⟨rfl, rfl, rfl⟩

end One

/-! ## All of them -/

section All
variable {l : List (Nat × Nat)} (e : Energy)

theorem samples_rest : (l.foldl sampleOne e).coefs = e.coefs ∧ (l.foldl sampleOne e).counts = e.counts ∧
    (l.foldl sampleOne e).eclk = e.eclk := by
  induction l generalizing e with
  | nil => exact ⟨rfl, rfl, rfl⟩
  | cons x l ih =>
    obtain ⟨hcoefs, hcounts, heclk⟩ := ih (sampleOne e x)
    obtain ⟨hcoefs1, hcounts1, heclk1⟩ := sampleOne_rest e x
    exact ⟨hcoefs.trans hcoefs1, hcounts.trans hcounts1, heclk.trans heclk1⟩

theorem samples_marks : (l.foldl sampleOne e).midwin = e.midwin ∧ (l.foldl sampleOne e).started = e.started ∧
    (l.foldl sampleOne e).exhausted = e.exhausted := by
  induction l generalizing e with
  | nil => exact ⟨rfl, rfl, rfl⟩
  | cons x l ih =>
    obtain ⟨hmid, hstarted, hexhausted⟩ := ih (sampleOne e x)
    obtain ⟨hmid1, hstarted1, hexhausted1⟩ := sampleOne_marks e x
    exact ⟨hmid.trans hmid1, hstarted.trans hstarted1, hexhausted.trans hexhausted1⟩

theorem totals_samples (hl : ∀ x ∈ l, x.1 / 16 < 345) (o : Nat) : mgetD 0 (l.foldl sampleOne e).totals o =
    mgetD 0 e.totals o + worthOf e.coefs (fun k => if o = 346 then inEstimate k else k = o) l := by
  induction l generalizing e with
  | nil => rfl
  | cons x l ih =>
    rw [List.forall_mem_cons] at hl
    rw [List.foldl_cons, ih (sampleOne e x) hl.2, totals_sampleOne e x hl.1, (sampleOne_rest e x).1, worthOf_cons, Nat.add_assoc]

theorem winPj_samples : (l.foldl sampleOne e).winPj = e.winPj + worthOf e.coefs inEstimate l := by
  induction l generalizing e with
  | nil => rfl
  | cons x l ih =>
    rw [List.foldl_cons, ih (sampleOne e x), winPj_sampleOne, (sampleOne_rest e x).1, worthOf_cons, Nat.add_assoc]

end All

/-! ## ENERGY_SAMPLE (R430) -/

/-- The energy state with the counts taken and STATIC not yet added. -/
def countsTaken (e : Energy) : Energy := e.counts.foldl sampleOne { e with counts := [], eclk := e.eclk + 1 }

theorem takeSample_eq (e : Energy) : takeSample e =
    { addTotal 346 (1000 * mgetD 0 e.coefs 17) (addTotal 345 (1000 * mgetD 0 e.coefs 17) (countsTaken e)) with
        winPj := (countsTaken e).winPj + 1000 * mgetD 0 e.coefs 17 } := by
  have hother : mgetD 0 (mputD 0 (countsTaken e).totals 345 (mgetD 0 (countsTaken e).totals 345 + 1000 * mgetD 0 e.coefs 17)) 346 =
      mgetD 0 (countsTaken e).totals 346 := mgetD_mputD_ne _ _ _ _ _ (by decide)
  unfold takeSample addTotal
  rw [hother]
  rfl

section Sample
variable (e : Energy)

theorem takeSample_rest : (takeSample e).counts = [] ∧ (takeSample e).eclk = e.eclk + 1 := by
  obtain ⟨-, hcounts, heclk⟩ := samples_rest (l := e.counts) { e with counts := [], eclk := e.eclk + 1 }
  rw [takeSample_eq]
  exact ⟨hcounts, heclk⟩

/-- A sample leaves the marks of the window alone. -/
theorem takeSample_marks : (takeSample e).midwin = e.midwin ∧ (takeSample e).started = e.started ∧ (takeSample e).exhausted = e.exhausted := by
  rw [takeSample_eq]
  exact samples_marks { e with counts := [], eclk := e.eclk + 1 }

theorem winPj_takeSample : (takeSample e).winPj = e.winPj + worthOf e.coefs inEstimate e.counts + 1000 * mgetD 0 e.coefs 17 := by
  rw [takeSample_eq]
  exact congrArg (· + 1000 * mgetD 0 e.coefs 17) (winPj_samples _)

theorem totals_takeSample (hl : ∀ x ∈ e.counts, x.1 / 16 < 345) (o : Nat) : mgetD 0 (takeSample e).totals o = mgetD 0 e.totals o +
    worthOf e.coefs (fun k => if o = 346 then inEstimate k else k = o) e.counts +
      if o = 345 ∨ o = 346 then 1000 * mgetD 0 e.coefs 17 else 0 := by
  rw [takeSample_eq]
  refine (totals_addTotal ..).trans ?_
  rw [totals_addTotal, countsTaken, totals_samples _ hl]
  split
  next h =>
    subst h
    rfl
  next h => rw [Nat.add_zero]; simp only [h, or_false]

theorem worthOf_none {coefs : SMap Nat} {p : Nat → Bool} {l : List (Nat × Nat)} (h : ∀ x ∈ l, p (x.1 / 16) = false) : worthOf coefs p l = 0 := by
  unfold worthOf
  rw [List.filter_eq_nil_iff.mpr fun x hx => by rw [h x hx]; decide]
  rfl

end Sample

/-- The device with the sample taken. -/
def sampleTaken (d : Dev) : Dev := onEnergy d fun e => { takeSample e with spent := spentOf (takeSample e) }

theorem energySample_eq {d : Dev} (hrst : d.pins.rstAsserted = false) : energySample d = thresholds (sampleTaken d) := by
  rw [energySample, if_neg (by rw [hrst]; decide)]
  rfl

/-- The purse holds Rinse where c is true. -/
def holdRinse (d : Dev) (c : Bool) : Dev := if c then onEnergy d fun e => { e with rinseHold := true } else d

/-- It does once SPENT has reached its part of it (R439). -/
def rinseChecked (d : Dev) : Dev :=
  holdRinse d (rbits d 0xE000 23 16 ≠ 0 && decide (d.energy.pEff * rbits d 0xE000 23 16 ≤ d.energy.spent * 256))

theorem thresholds_eq (d : Dev) : thresholds d =
    if !d.energy.started || !purseActs d then d
    else toFloor (if d.energy.spent < d.energy.pEff || d.energy.exhausted then rinseChecked d
      else raise (onEnergy (rinseChecked d) fun e => { e with exhausted := true }) Ev.PURSE_EXHAUSTED) := rfl

/-- No change of point starts where the purse does not act, or its change has started before. -/
theorem thresholds_rest {d : Dev} (h : purseActs d = false ∨ d.energy.started = false ∨ d.energy.exhausted = true ∧ d.energy.midwin = true) :
    (thresholds d).energy.counts = d.energy.counts ∧ (thresholds d).tiles = d.tiles := by
  obtain h | h | ⟨hexhausted, hmid⟩ := h
  · rw [thresholds, if_pos (by rw [h]; simp)]
    exact ⟨rfl, rfl⟩
  · rw [thresholds, if_pos (by rw [h]; rfl)]
    exact ⟨rfl, rfl⟩
  · have hfloor {x : Dev} (hx : x.energy.midwin = true) : toFloor x = x := by
      rw [toFloor, if_neg (by rw [hx]; simp)]
    have hheld (c : Bool) : (holdRinse d c).energy.midwin = true ∧ (holdRinse d c).energy.counts = d.energy.counts ∧
        (holdRinse d c).tiles = d.tiles := by
      cases c
      · exact ⟨hmid, rfl, rfl⟩
      · exact ⟨hmid, rfl, rfl⟩
    rw [thresholds_eq, if_pos (c := (decide _ || _) = true) (by rw [hexhausted, Bool.or_true]), rinseChecked, hfloor (hheld _).1]
    split
    · exact ⟨rfl, rfl⟩
    · exact (hheld _).2

end Sys2Proof.Machine
end

section
/-!
The end of a window of energy: what it closes, the grant that it takes, the point that it chooses (R436 to R443, R450, R451).
-/
namespace Sys2Proof.Machine
open Sys2Proof.Claims

theorem follows_onEnergy (d : Dev) (f : Energy → Energy) : Follows noPeer d (onEnergy d f) :=
  ⟨rfl, rfl, rfl, rfl, rfl, rfl, rfl, linksKept_of_link rfl, fun _ _ => .refl _, keepsRegs_of_regs rfl⟩

/-! ## Step 1: the closing window and the divergence test -/

section Closing
variable (d : Dev)

/-- E_est of the closing window. -/
def estimateOf (d : Dev) : Nat := d.energy.winPj / 1000000

/-- The divergence test of the closing window (R450). -/
def diverges (d : Dev) : Bool :=
  (measured d).2 && rbits d 0xE0E0 7 0 ≠ 0 &&
    decide (rbits d 0xE0E0 7 0 * max (estimateOf d) (measured d).1 <
      ((estimateOf d - (measured d).1) + ((measured d).1 - estimateOf d)) * 256)

/-- RUN after it. -/
def runAfter (d : Dev) : Nat :=
  if diverges d then min 255 (d.energy.run + 1) else if (measured d).2 && !d.energy.diverged then 0 else d.energy.run

/-- RUN has reached N with it. -/
def runFull (d : Dev) : Bool := diverges d && decide (max 1 (rbits d 0xE0E0 15 8) ≤ runAfter d)

/-- The energy state with the window closed. -/
def closedEnergy (d : Dev) : Energy :=
  { d.energy with run := runAfter d, suspended := !(measured d).2, estLast := estimateOf d, measLast := (measured d).1,
                  measValid := (measured d).2, rails := d.energy.rails.map fun x => (x.1, { x.2 with sum := 0, count := 0 }) }

theorem closeWindow_eq : closeWindow d =
    if runFull d && !d.energy.diverged then
      lint (raise (onEnergy d fun _ => { closedEnergy d with diverged := true, coefStale := true }) Ev.ESTIMATE_DIVERGED) 0x2A {}
        (estimateOf d) (measured d).1
    else onEnergy d fun _ => closedEnergy d := rfl

theorem follows_closeWindow : Follows noPeer d (closeWindow d) := by
  rw [closeWindow_eq]
  split
  · exact ((follows_onEnergy ..).trans (follows_raise ..)).trans (follows_lint ..)
  · exact follows_onEnergy ..

theorem closeWindow_link : (closeWindow d).link = d.link := by
  rw [closeWindow_eq]
  split
  · rw [lint_link, raise_link]
    rfl
  · rfl

theorem closeWindow_energy : ∃ c, (closeWindow d).energy =
    { closedEnergy d with diverged := d.energy.diverged || runFull d, coefStale := c } := by
  rw [closeWindow_eq]
  split
  next h =>
    rw [Bool.and_eq_true] at h
    refine ⟨true, ?_⟩
    rw [lint_energy, raise_energy, h.1, Bool.or_true]
    rfl
  next h =>
    refine ⟨d.energy.coefStale, ?_⟩
    have hsame : (d.energy.diverged || runFull d) = d.energy.diverged := by
      cases hdiv : d.energy.diverged
      · rw [hdiv, Bool.not_false, Bool.and_true, Bool.not_eq_true] at h
        rw [h]
        rfl
      · rfl
    rw [hsame]
    rfl

theorem closeWindow_raises (hnow : runFull d = true) (hfirst : d.energy.diverged = false) : isPending (closeWindow d) Ev.ESTIMATE_DIVERGED := by
  rw [closeWindow_eq, if_pos (by rw [hnow, hfirst]; rfl)]
  exact (follows_lint ..).isPending (by decide) (isPending_raise _ none none (by decide))

/-! ## Step 2: the accounted energy -/

/-- The energy that the window accounts. -/
def accountedOf (d : Dev) : Nat :=
  if (d.energy.diverged || runFull d) && (measured d).2 then max (estimateOf d) (measured d).1 else estimateOf d

/-- The window is closed and accounted. -/
def windowClosed (d : Dev) : Dev := onEnergy (closeWindow d) fun e => { e with acctLast := accounted e }

theorem accounted_closeWindow : accounted (closeWindow d).energy = accountedOf d := by
  obtain ⟨c, h⟩ := closeWindow_energy d
  rw [h]
  rfl

theorem windowClosed_energy : ∃ c, (windowClosed d).energy =
    { closedEnergy d with diverged := d.energy.diverged || runFull d, coefStale := c, acctLast := accountedOf d } := by
  obtain ⟨c, h⟩ := closeWindow_energy d
  refine ⟨c, ?_⟩
  have hacct : (windowClosed d).energy = { (closeWindow d).energy with acctLast := accounted (closeWindow d).energy } := rfl
  rw [hacct, accounted_closeWindow, h]

theorem follows_windowClosed : Follows noPeer d (windowClosed d) := (follows_closeWindow d).trans (follows_onEnergy ..)

end Closing

/-! ## Step 4: phase, coefficients, grant -/

/-- The energy state but for what step 4 and the grants of the manager set. -/
def takenCore (e : Energy) : Energy :=
  { e with phase := 0, coefs := [], grant := 0, fresh := false, staleCnt := 0, stale := false, hist := [], reports := [] }

/-- The phase tag and the coefficients are taken up. -/
def newPhase (d : Dev) : Dev := onEnergy d fun e =>
  { e with phase := BitVec.ofNat 4 (rbits d 0xE004 3 0),
           coefs := (List.range 17).foldl (fun (m : SMap Nat) c => mputD 0 m c (rbits d (0xE010 + 4 * c) 19 0)) (mputD 0 [] 17 (rbits d 0xE008 15 0)) }

/-- A grant has not come for one more window. -/
def noGrant (d : Dev) : Dev :=
  if max 1 (rbits d 0xE0C8 31 24) ≤ d.energy.staleCnt + 1 && !d.energy.stale then
    raise (onEnergy d fun e => { e with staleCnt := d.energy.staleCnt + 1, grant := rbits d 0xE0C8 23 0, stale := true }) Ev.PURSE_STALE
  else onEnergy d fun e => { e with staleCnt := d.energy.staleCnt + 1 }

section Taking
variable {d : Dev}

theorem takePending_fresh (h : d.energy.fresh = true) : takePending d =
    onEnergy (newPhase d) fun e => { e with grant := rbits d 0xE0C0 23 0, fresh := false, staleCnt := 0, stale := false } := by
  rw [takePending]
  exact if_pos h

theorem takePending_none (h : d.energy.fresh = false) : takePending d = noGrant (newPhase d) := by
  rw [takePending]
  exact if_neg (by rw [Bool.not_eq_true]; exact h)

theorem follows_noGrant (d : Dev) : Follows noPeer d (noGrant d) := by
  unfold noGrant
  split
  · exact (follows_onEnergy ..).trans (follows_raise ..)
  · exact follows_onEnergy ..

theorem noGrant_energy (d : Dev) : takenCore (noGrant d).energy = takenCore d.energy ∧ (noGrant d).energy.phase = d.energy.phase ∧
    (noGrant d).link = d.link := by
  unfold noGrant
  split
  · rw [raise_energy, raise_link]
    exact ⟨rfl, rfl, rfl⟩
  · exact ⟨rfl, rfl, rfl⟩

theorem noGrant_stale (hstale : d.energy.stale = false) (hcount : max 1 (rbits d 0xE0C8 31 24) ≤ d.energy.staleCnt + 1) :
    isPending (noGrant d) Ev.PURSE_STALE ∧ (noGrant d).energy.stale = true ∧ (noGrant d).energy.grant = rbits d 0xE0C8 23 0 := by
  rw [noGrant, if_pos (by rw [hstale, decide_eq_true hcount]; rfl), raise_energy]
  exact ⟨isPending_raise _ none none (by decide), rfl, rfl⟩

theorem takePending_keeps (d : Dev) : Follows noPeer d (takePending d) ∧ takenCore (takePending d).energy = takenCore d.energy ∧
    (takePending d).energy.phase = BitVec.ofNat 4 (rbits d 0xE004 3 0) ∧ (takePending d).link = d.link := by
  cases h : d.energy.fresh
  · obtain ⟨hcore, hphase, hlink⟩ := noGrant_energy (newPhase d)
    rw [takePending_none h]
    exact ⟨(follows_onEnergy ..).trans (follows_noGrant _), hcore, hphase, hlink⟩
  · rw [takePending_fresh h]
    exact ⟨(follows_onEnergy ..).trans (follows_onEnergy ..), rfl, rfl, rfl⟩

theorem takePending_energy_eq (d : Dev) {α : Type} (f : Energy → α) (hf : ∀ x, f (takenCore x) = f x) :
    f (takePending d).energy = f d.energy := by rw [← hf, (takePending_keeps d).2.1, hf]

end Taking

/-! ## Steps 5 and 6: the effective purse, the point, the next window -/

/-- The grant less what the closed window spent above its purse (R438). -/
def effective (d : Dev) : Dev := onEnergy d fun e => { e with pEff := e.grant - min e.grant (e.acctLast - e.pEff) }

theorem channels_choose5 (d : Dev) : Channels (effective d) (choose5 d) :=
  .of_ite (channels_startChange (effective d) 0) (.of_ite (channels_onEnergy (effective d) rfl) (channels_startChange (effective d) _))

/-- What is left of a window end once its report has been made. -/
def windowOpened (d : Dev) : Dev := onEnergy (choose5 (takePending d)) openWindow

theorem energyWindowEnd_eq {d : Dev} (hstarted : d.energy.started = true) (hrst : d.pins.rstAsserted = false) :
    energyWindowEnd d = windowOpened (reportWindow (windowClosed d)) := by
  rw [energyWindowEnd, if_neg (by rw [hstarted, hrst]; decide)]
  rfl

section Opened
variable (d : Dev)

/-- What the energy state keeps of the closed window. -/
theorem windowOpened_keeps : let e := (windowOpened d).energy
    e.run = d.energy.run ∧ e.diverged = d.energy.diverged ∧ e.suspended = d.energy.suspended ∧ e.spent = 0 ∧ e.winPj = 0 ∧
      e.exhausted = false ∧ e.estPrev = d.energy.estLast ∧ e.aPrev = d.energy.acctLast ∧ e.phase = BitVec.ofNat 4 (rbits d 0xE004 3 0) := by
  obtain ⟨-, -, hphase, -⟩ := takePending_keeps d
  have hchannels := channels_choose5 (takePending d)
  refine ⟨?_, ?_, ?_, rfl, rfl, rfl, ?_, ?_, ?_⟩
  · exact (hchannels.energy_eq Energy.run fun _ => rfl).trans (takePending_energy_eq d Energy.run fun _ => rfl)
  · exact (hchannels.energy_eq Energy.diverged fun _ => rfl).trans (takePending_energy_eq d Energy.diverged fun _ => rfl)
  · exact (hchannels.energy_eq Energy.suspended fun _ => rfl).trans (takePending_energy_eq d Energy.suspended fun _ => rfl)
  · exact (hchannels.energy_eq Energy.estLast fun _ => rfl).trans (takePending_energy_eq d Energy.estLast fun _ => rfl)
  · exact (hchannels.energy_eq Energy.acctLast fun _ => rfl).trans (takePending_energy_eq d Energy.acctLast fun _ => rfl)
  · exact (hchannels.energy_eq Energy.phase fun _ => rfl).trans hphase

/-- The grant in force, and the purse that is left of it. -/
theorem windowOpened_grant : (windowOpened d).energy.grant = (takePending d).energy.grant ∧
    (windowOpened d).energy.stale = (takePending d).energy.stale ∧ (windowOpened d).energy.fresh = (takePending d).energy.fresh ∧
    (windowOpened d).energy.pEff = (takePending d).energy.grant - min (takePending d).energy.grant (d.energy.acctLast - d.energy.pEff) := by
  have hchannels := channels_choose5 (takePending d)
  have hacct := takePending_energy_eq d Energy.acctLast fun _ => rfl
  have hpurse := takePending_energy_eq d Energy.pEff fun _ => rfl
  refine ⟨hchannels.energy_eq Energy.grant fun _ => rfl, hchannels.energy_eq Energy.stale fun _ => rfl,
    hchannels.energy_eq Energy.fresh fun _ => rfl, (hchannels.energy_eq Energy.pEff fun _ => rfl).trans ?_⟩
  rw [← hacct, ← hpurse]
  rfl

theorem windowOpened_link : (windowOpened d).link = d.link := (channels_choose5 _).link.trans (takePending_keeps d).2.2.2

theorem windowOpened_rbits {k : Nat} (hk : 0xA0 ≤ k) (htile : k < 0x100000) (hdrop : k ≠ 0xA04C) (hi lo : Nat) :
    rbits (windowOpened d) k hi lo = rbits d k hi lo :=
  ((channels_choose5 (takePending d)).rbits_eq hk htile hi lo).trans ((takePending_keeps d).1.rbits_eq (.inr hk) hdrop hi lo)

theorem windowOpened_isPending {c : Nat} (hc : c < 0x200) (h : isPending (takePending d) c) : isPending (windowOpened d) c :=
  (channels_choose5 (takePending d)).isPending hc h

variable {d}

theorem windowOpened_fresh (h : d.energy.fresh = true) : (windowOpened d).energy.grant = rbits d 0xE0C0 23 0 ∧
    (windowOpened d).energy.stale = false ∧ (windowOpened d).energy.fresh = false ∧
    (windowOpened d).energy.pEff = rbits d 0xE0C0 23 0 - min (rbits d 0xE0C0 23 0) (d.energy.acctLast - d.energy.pEff) := by
  obtain ⟨hgrant, hstale, hfresh, hpurse⟩ := windowOpened_grant d
  rw [hgrant, hstale, hfresh, hpurse, takePending_fresh h]
  exact ⟨rfl, rfl, rfl, rfl⟩

theorem windowOpened_stale (h : d.energy.fresh = false) (hstale : d.energy.stale = false)
    (hcount : max 1 (rbits d 0xE0C8 31 24) ≤ d.energy.staleCnt + 1) : isPending (windowOpened d) Ev.PURSE_STALE ∧
    (windowOpened d).energy.stale = true ∧
    (windowOpened d).energy.pEff = rbits d 0xE0C8 23 0 - min (rbits d 0xE0C8 23 0) (d.energy.acctLast - d.energy.pEff) := by
  obtain ⟨-, hshows, -, hpurse⟩ := windowOpened_grant d
  obtain ⟨hraised, hnow, hgrant⟩ := noGrant_stale (d := newPhase d) hstale hcount
  rw [← takePending_none h] at hraised hnow hgrant
  rw [hshows, hpurse, hgrant]
  exact ⟨windowOpened_isPending d (by decide) hraised, hnow, rfl⟩

end Opened

end Sys2Proof.Machine
end

section
/-!
The manager shares the package cap (R437, R452, R453).
-/
namespace Sys2Proof.Machine
open Sys2Proof.Claims

/-! ## What the shares depend on -/

/-- Two devices of which the shares are the same. -/
structure SameShares (d e : Dev) : Prop where
  inst : e.boot.inst = d.boot.inst
  link : e.link = d.link
  hist : e.energy.hist = d.energy.hist
  reports : e.energy.reports = d.energy.reports
  regs : ∀ k, 0xA0 ≤ k → k ≠ 0xA04C → rget e k = rget d k

namespace SameShares
variable {d e : Dev} (h : SameShares d e)
include h

theorem rbits_eq {k : Nat} (hk : 0xA0 ≤ k) (hdrop : k ≠ 0xA04C) (hi lo : Nat) : rbits e k hi lo = rbits d k hi lo := by
  rw [rbits, rbits, h.regs k hk hdrop]

theorem isAbsent_eq (i : Nat) : isAbsent e i = isAbsent d i := by
  rw [isAbsent, isAbsent, h.inst, show getPeer e i = getPeer d i by rw [getPeer, getPeer, h.link]]

theorem present_eq : present e = present d := by
  rw [present, present]
  exact List.filter_congr fun i _ => by rw [h.isAbsent_eq]

theorem histAt_eq (i p : Nat) : histAt e i p = histAt d i p := by rw [histAt, histAt, h.hist]

theorem ratio_eq (k : Nat) : ratio e k = ratio d k := h.rbits_eq (by omega) (by omega) ..

theorem floorUj_eq (i : Nat) : floorUj e i = floorUj d i := h.rbits_eq (by omega) (by omega) ..

theorem demandOf_eq (i : Nat) : demandOf e i = demandOf d i := by
  have hpref (p : Nat) : prefOf e p = prefOf d p := h.rbits_eq (by omega) (by omega) ..
  rw [demandOf, demandOf, h.histAt_eq, h.reports, h.ratio_eq, hpref]

theorem demands_eq : ((present e).map (demandOf e)).sum = ((present d).map (demandOf d)).sum := by
  rw [h.present_eq, funext h.demandOf_eq]

theorem floors_eq : ((present e).map (floorUj e)).sum = ((present d).map (floorUj d)).sum := by
  rw [h.present_eq, funext h.floorUj_eq]

theorem purseOf_eq (i : Nat) : purseOf e i = purseOf d i := by
  have hdemand : demandOf e = demandOf d := funext h.demandOf_eq
  have hfloor : floorUj e = floorUj d := funext h.floorUj_eq
  unfold purseOf
  rw [h.present_eq, hdemand, hfloor, h.rbits_eq (by decide) (by decide)]

end SameShares

theorem sameShares_applyReport {d e : Dev} (h : SameShares d e) (i ph pt a : Nat) : SameShares (applyReport d i ph pt a) (applyReport e i ph pt a) := by
  refine ⟨h.inst, h.link, ?_, ?_, h.regs⟩
  · unfold applyReport onEnergy
    simp only [h.rbits_eq (k := 0xE000) (by decide) (by decide), h.ratio_eq, h.histAt_eq, h.hist]
  · unfold applyReport onEnergy
    simp only [h.reports]

theorem sameShares_windowClosed (d : Dev) : SameShares d (windowClosed d) := by
  obtain ⟨c, h⟩ := windowClosed_energy d
  have hfollows := follows_windowClosed d
  refine ⟨by rw [hfollows.boot], closeWindow_link d, by rw [h]; rfl, by rw [h]; rfl, fun k hk hdrop => hfollows.regs.other k (.inr hk) hdrop⟩

/-! ## The shares (R453) -/

section Shares
variable (u : Dev)

/-- The demands, the floors, and the demands above the floors, of the instances that are present. -/
def demands (u : Dev) : Nat := ((present u).map (demandOf u)).sum
def floors (u : Dev) : Nat := ((present u).map (floorUj u)).sum
def above (u : Dev) (i : Nat) : Nat := demandOf u i - floorUj u i

/-- Each by its demand, by its floor and its demand above it, or by its floor alone. -/
def shareOf (u : Dev) (i : Nat) : Nat :=
  let cap := rbits u 0xE180 23 0
  if demands u ≤ cap then (if demands u = 0 then cap / (present u).length else demandOf u i + (cap - demands u) * demandOf u i / demands u)
  else if floors u ≤ cap then
    (if ((present u).map (above u)).sum = 0 then floorUj u i
      else floorUj u i + (cap - floors u) * above u i / ((present u).map (above u)).sum)
  else cap * floorUj u i / floors u

theorem purseOf_fst (i : Nat) : (purseOf u i).1 = shareOf u i := by
  unfold purseOf shareOf
  dsimp only
  split
  next h => exact (if_pos (c := demands u ≤ _) h).symm
  next h =>
    rw [if_neg (c := demands u ≤ _) h]
    split
    next h => exact (if_pos (c := floors u ≤ _) h).symm
    next h => exact (if_neg (c := floors u ≤ _) h).symm

theorem purseOf_short (i : Nat) (hdemands : rbits u 0xE180 23 0 < demands u) (hfloors : rbits u 0xE180 23 0 < floors u) :
    (purseOf u i).2 = true := by
  unfold purseOf
  dsimp only
  split
  next h => exact absurd hdemands (Nat.not_lt.mpr h)
  next =>
    split
    next h => exact absurd hfloors (Nat.not_lt.mpr h)
    next => rfl

end Shares

/-! ## The grants (R437, R453) -/

/-- What the manager's grants leave alone. -/
structure Grants (d e : Dev) : Prop where
  boot : e.boot = d.boot
  links : LinksKept d e
  far : e.link.far = d.link.far
  energy : { e.energy with fresh := false } = { d.energy with fresh := false }
  pending : ∀ k i, k < 0xE0C0 → k ≠ 0xA04C → (rget d k).getLsbD i = true → (rget e k).getLsbD i = true
  other : ∀ k, 0xA0 ≤ k → k ≠ 0xA04C → k ≠ 0xE0C0 → k ≠ 0xE0C4 → rget e k = rget d k

theorem Grants.refl (d : Dev) : Grants d d := ⟨rfl, .refl d, rfl, rfl, fun _ _ _ _ h => h, fun _ _ _ _ _ => rfl⟩

theorem Grants.trans {d e f : Dev} (h : Grants d e) (h' : Grants e f) : Grants d f :=
  ⟨h'.boot.trans h.boot, h.links.trans h'.links, h'.far.trans h.far, h'.energy.trans h.energy,
    fun k i hk hd hb => h'.pending k i hk hd (h.pending k i hk hd hb),
    fun k hk hd h0 h4 => (h'.other k hk hd h0 h4).trans (h.other k hk hd h0 h4)⟩

theorem Grants.foldl {α : Type} {g : Dev → α → Dev} (hg : ∀ d a, Grants d (g d a)) (l : List α) (d : Dev) : Grants d (l.foldl g d) := by
  induction l generalizing d with
  | nil => exact .refl d
  | cons a l ih => exact (hg d a).trans (ih _)

theorem Follows.grants {K : Nat → Prop} {d e : Dev} (h : Follows K d e) (henergy : e.energy = d.energy) : Grants d e :=
  ⟨h.boot, h.links, h.far, by rw [henergy], fun k i _ hd hb => h.regs.pending k i hd hb, fun k hk hd _ _ => h.regs.other k (.inr hk) hd⟩

section Grants
variable {d e : Dev} (h : Grants d e)
include h

theorem Grants.hasPath {m : Msg} (hm : hasPath d m) : Machine.hasPath e m := by
  rw [Machine.hasPath, h.links.pathOk_eq (by rw [h.boot]) h.far, h.links.pathOk_eq (by rw [h.boot]) h.far]
  exact hm

theorem Grants.isPending {c : Nat} (hc : c < 0x200) (hp : isPending d c) : Claims.isPending e c :=
  h.pending _ _ (by unfold irqPend; omega) (by unfold irqPend; omega) hp

theorem Grants.energy_eq {α : Type} (f : Energy → α) (hf : ∀ x : Energy, f { x with fresh := false } = f x) : f e.energy = f d.energy := by
  rw [← hf, h.energy, hf]

end Grants

/-- Purse and demand as they are written. -/
def purseWord (src : Dev) (i : Nat) : Nat := clip24 (purseOf src i).1
def demandWord (src : Dev) (i : Nat) : Nat := clip24 (demandOf src i)

theorem clip24_lt (n : Nat) : clip24 n < 2 ^ 24 := by
  unfold clip24
  omega

/-- The manager's own grant. -/
def grantSelf (src d : Dev) (i : Nat) : Dev := rset (putGrant d (purseWord src i)) 0xE0C4 (BitVec.ofNat 32 (demandWord src i))

/-- A worker's. -/
def grantWorker (src d : Dev) (i : Nat) : Dev :=
  send (send d i (.regWrite 0xE0C0 (BitVec.ofNat 32 (purseWord src i)))) i (.regWrite 0xE0C4 (BitVec.ofNat 32 (demandWord src i)))

theorem grantOne_eq (src d : Dev) (i : Nat) : grantOne src d i = if i = me d then grantSelf src d i else grantWorker src d i := rfl

section One
variable (src d : Dev) (i : Nat)

theorem grants_grantSelf : Grants d (grantSelf src d i) := by
  refine ⟨rfl, linksKept_of_link rfl, rfl, rfl, fun k j hk _ hb => ?_, fun k _ _ h0 h4 => ?_⟩
  · rw [grantSelf, rget_rset_ne _ _ _ _ (by omega)]
    exact (rget_rset_ne _ _ _ _ (by omega) : rget (rset d 0xE0C0 _) k = rget d k) ▸ hb
  · rw [grantSelf, rget_rset_ne _ _ _ _ h4]
    exact rget_rset_ne _ _ _ _ h0

theorem follows_grantWorker : Follows noPeer d (grantWorker src d i) := (follows_send ..).trans (follows_send ..)

theorem grantWorker_energy : (grantWorker src d i).energy = d.energy :=
  ((sameButLink_send ..).trans (sameButLink_send ..)).energy_eq

theorem grants_grantOne : Grants d (grantOne src d i) := by
  rw [grantOne_eq]
  split
  · exact grants_grantSelf ..
  · exact (follows_grantWorker ..).grants (grantWorker_energy ..)

/-- The manager has taken its own purse and demand. -/
def ownGrant (src : Dev) (i : Nat) (d : Dev) : Prop :=
  rbits d 0xE0C0 23 0 = purseWord src i ∧ rbits d 0xE0C4 23 0 = demandWord src i ∧ d.energy.fresh = true

theorem bits_ofNat24 {n : Nat} (h : n < 2 ^ 24) : bits (BitVec.ofNat 32 n) 23 0 = n := by
  rw [bits, BitVec.toNat_ofNat, Nat.shiftRight_zero, Nat.mod_eq_of_lt (show n < 2 ^ 32 by omega)]
  exact Nat.mod_eq_of_lt h

theorem ownGrant_grantSelf : ownGrant src i (grantSelf src d i) := by
  refine ⟨?_, ?_, rfl⟩
  · have hput : rget (putGrant d (purseWord src i)) 0xE0C0 = BitVec.ofNat 32 (purseWord src i % 2 ^ 24) := rget_rset ..
    rw [grantSelf, rbits, rget_rset_ne _ _ _ _ (by decide), hput, purseWord, Nat.mod_eq_of_lt (clip24_lt _), bits_ofNat24 (clip24_lt _)]
  · rw [grantSelf, rbits, rget_rset, demandWord, bits_ofNat24 (clip24_lt _)]

variable {src d i}

theorem ownGrant_of_follows {K : Nat → Prop} {e : Dev} (h : Follows K d e) (henergy : e.energy = d.energy) (hown : ownGrant src i d) :
    ownGrant src i e := by
  rw [ownGrant, h.rbits_eq (by decide) (by decide), h.rbits_eq (by decide) (by decide), henergy]
  exact hown

end One

/-! ## All of them -/

/-- A fold makes true what the step at one of its elements makes true and every step keeps; the steps keep an invariant that they may
use. -/
theorem foldl_establishes_of {α β : Type} {I P : β → Prop} {f : β → α → β} {a : α} {l : List α} (ha : a ∈ l) (hI : ∀ b c, I b → I (f b c))
    (hself : ∀ b, I b → P (f b a)) (hkeep : ∀ b c, I b → P b → P (f b c)) {b : β} (hb : I b) : P (l.foldl f b) := by
  obtain ⟨pre, post, rfl⟩ := List.append_of_mem ha
  rw [List.foldl_append, List.foldl_cons]
  have hpre : I (pre.foldl f b) := List.foldlRecOn pre f hb fun x hx c _ => hI x c hx
  exact (List.foldlRecOn (motive := fun x => I x ∧ P x) post f ⟨hI _ _ hpre, hself _ hpre⟩
    fun x hx c _ => ⟨hI x c hx.1, hkeep x c hx.1 hx.2⟩).2

section AllGrants
variable {src d : Dev} {l : List Nat}

theorem ownGrant_grants (hi : me d ∈ l) : ownGrant src (me d) (l.foldl (grantOne src) d) := by
  refine foldl_establishes_of (I := fun e => me e = me d) (P := ownGrant src (me d)) hi (fun e i he => ?_) (fun e he => ?_) (fun e i he h => ?_) rfl
  · rw [← he, me, me, (grants_grantOne src e i).boot]
  · rw [grantOne_eq, if_pos he.symm]
    exact ownGrant_grantSelf ..
  · rw [grantOne_eq]
    split
    next hme =>
      rw [hme, he]
      exact ownGrant_grantSelf ..
    next => exact ownGrant_of_follows (follows_grantWorker ..) (grantWorker_energy ..) h

/-- The messages of a worker's grant. -/
def purseMsg (src d : Dev) (i : Nat) : Msg := msgTo d i (.regWrite 0xE0C0 (BitVec.ofNat 32 (purseWord src i)))
def demandMsg (src d : Dev) (i : Nat) : Msg := msgTo d i (.regWrite 0xE0C4 (BitVec.ofNat 32 (demandWord src i)))

theorem hasMsg_grantOne {m : Msg} (i : Nat) (hcode : m.body.code ≠ 3) (h : hasPath d m) (hm : hasMsg d m) : hasMsg (grantOne src d i) m := by
  rw [grantOne_eq]
  split
  · exact hasMsg_of_link rfl hm
  · exact hasMsg_send _ _ _ hcode (hasPath_follows (follows_send ..) h) (hasMsg_send _ _ _ hcode h hm)

theorem msgTo_congr {d e : Dev} (h : e.boot = d.boot) (i : Nat) (b : MsgBody) : msgTo e i b = msgTo d i b := by rw [msgTo, msgTo, h]

/-- A worker's grant is sent. -/
theorem hasMsg_grants {i : Nat} (hi : i ∈ l) (hne : i ≠ me d) (hpath : hasPath d (purseMsg src d i)) :
    hasMsg (l.foldl (grantOne src) d) (purseMsg src d i) ∧ hasMsg (l.foldl (grantOne src) d) (demandMsg src d i) := by
  have hcode : (8 : Nat) ≠ 3 := by decide
  refine foldl_establishes_of (I := fun e => Grants d e) (P := fun e => hasMsg e (purseMsg src d i) ∧ hasMsg e (demandMsg src d i)) hi
    (fun e k he => he.trans (grants_grantOne src e k)) (fun e he => ?_) (fun e k he h => ?_) (.refl d)
  · have hme : me e = me d := by rw [me, me, he.boot]
    have hp := msgTo_congr he.boot i (.regWrite 0xE0C0 (BitVec.ofNat 32 (purseWord src i)))
    have hfirst := follows_send e i (.regWrite 0xE0C0 (BitVec.ofNat 32 (purseWord src i)))
    have hq := msgTo_congr (hfirst.boot.trans he.boot) i (.regWrite 0xE0C4 (BitVec.ofNat 32 (demandWord src i)))
    have hpath1 : hasPath e (purseMsg src d i) := he.hasPath hpath
    have hsent : hasMsg (send e i (.regWrite 0xE0C0 (BitVec.ofNat 32 (purseWord src i)))) (purseMsg src d i) := by
      rw [purseMsg, ← hp]
      exact hasMsg_sent e i _ hcode (by rw [hp]; exact hpath1)
    rw [grantOne_eq, if_neg (by rw [hme]; exact hne), grantWorker]
    refine ⟨hasMsg_send _ _ _ hcode (hasPath_follows hfirst hpath1) hsent, ?_⟩
    rw [demandMsg, ← hq]
    exact hasMsg_sent _ i _ hcode (by rw [hq]; exact hasPath_follows (m := purseMsg src d i) hfirst hpath1)
  · have hpathd : hasPath d (demandMsg src d i) := hpath
    exact ⟨hasMsg_grantOne k hcode (he.hasPath hpath) h.1, hasMsg_grantOne k hcode (he.hasPath hpathd) h.2⟩

end AllGrants

/-! ## The report of the manager's own window (R437, R452) -/

/-- CAP_SHORT is raised where a share is short. -/
def shortRaised (u : Dev) : Dev := if (present u).any fun i => (purseOf u i).2 then raise u Ev.CAP_SHORT else u

theorem sharePurse_eq (u : Dev) : sharePurse u = (present u).foldl (grantOne u) (shortRaised u) := rfl

theorem follows_shortRaised (u : Dev) : Follows noPeer u (shortRaised u) := by
  unfold shortRaised
  split
  · exact follows_raise ..
  · exact .refl u

theorem shortRaised_raises {u : Dev} (hdemands : rbits u 0xE180 23 0 < demands u) (hfloors : rbits u 0xE180 23 0 < floors u) :
    isPending (shortRaised u) Ev.CAP_SHORT := by
  have hany : (present u).any (fun i => (purseOf u i).2) = true := by
    cases hps : present u with
    | nil =>
      rw [demands, hps] at hdemands
      exact absurd hdemands (Nat.not_lt_zero _)
    | cons i ps =>
      rw [List.any_cons, purseOf_short u i hdemands hfloors]
      rfl
  rw [shortRaised, if_pos hany]
  exact isPending_raise _ none none (by decide)

end Sys2Proof.Machine
end

section
/-!
The samples and the windows of energy, on a worker and on the manager (R428 to R438, R450 to R453).
-/
namespace Sys2Proof.Machine
open Sys2Proof.Claims

/-! ## The sample -/

section Totals
variable (e : Energy) (hl : ∀ x ∈ e.counts, x.1 / 16 < 345)
include hl

theorem totals_takeSample_own {o : Nat} (ho : o < 345) : mgetD 0 (takeSample e).totals o =
    mgetD 0 e.totals o + worthOf e.coefs (fun k => k = o) e.counts := by
  have hne : o ≠ 346 := by omega
  rw [totals_takeSample e hl, if_neg (by omega)]
  simp only [if_neg hne, Nat.add_zero]

theorem totals_takeSample_static : mgetD 0 (takeSample e).totals 345 = mgetD 0 e.totals 345 + 1000 * mgetD 0 e.coefs 17 := by
  rw [totals_takeSample e hl, if_pos (.inl rfl), worthOf_none fun x hx => ?_, Nat.add_zero]
  have hown : x.1 / 16 ≠ 345 := Nat.ne_of_lt (hl x hx)
  rw [if_neg (by decide)]
  exact decide_eq_false hown

theorem totals_takeSample_all : mgetD 0 (takeSample e).totals 346 =
    mgetD 0 e.totals 346 + worthOf e.coefs inEstimate e.counts + 1000 * mgetD 0 e.coefs 17 := by
  rw [totals_takeSample e hl, if_pos (.inr rfl)]
  rfl

end Totals

theorem inEstimate_eq : inEstimate = fun o => decide (o < 320 ∨ o = 344) := by
  funext o
  rw [inEstimate, Bool.decide_or]

theorem energySample_shows {d : Dev} (hrst : d.pins.rstAsserted = false) (hl : ∀ x ∈ d.energy.counts, x.1 / 16 < 345) :
    let e := (energySample d).energy
    let st := 1000 * mgetD 0 d.energy.coefs 17
    (∀ o, o < 345 → mgetD 0 e.totals o = mgetD 0 d.energy.totals o + worthOf d.energy.coefs (fun k => k = o) d.energy.counts) ∧
    mgetD 0 e.totals 345 = mgetD 0 d.energy.totals 345 + st ∧
    mgetD 0 e.totals 346 = mgetD 0 d.energy.totals 346 + worthOf d.energy.coefs inEstimate d.energy.counts + st ∧
    e.winPj = d.energy.winPj + worthOf d.energy.coefs inEstimate d.energy.counts + st ∧ e.eclk = d.energy.eclk + 1 ∧
    (purseActs d = false ∨ d.energy.started = false ∨ (d.energy.exhausted = true ∧ d.energy.midwin = true) →
      e.counts = [] ∧ (energySample d).tiles = d.tiles) := by
  have hchannels := channels_thresholds (sampleTaken d)
  have htotals : (thresholds (sampleTaken d)).energy.totals = (takeSample d.energy).totals := hchannels.energy_eq Energy.totals fun _ => rfl
  obtain ⟨hcounts, heclk⟩ := takeSample_rest d.energy
  obtain ⟨hmid, hstarted, hexhausted⟩ : (takeSample d.energy).midwin = d.energy.midwin ∧ (takeSample d.energy).started = d.energy.started ∧
      (takeSample d.energy).exhausted = d.energy.exhausted := takeSample_marks d.energy
  rw [energySample_eq hrst]
  refine ⟨fun o ho => ?_, ?_, ?_, ?_, ?_, fun hrest => ?_⟩
  · rw [htotals, totals_takeSample_own _ hl ho]
  · rw [htotals, totals_takeSample_static _ hl]
  · rw [htotals, totals_takeSample_all _ hl]
  · exact (hchannels.energy_eq Energy.winPj fun _ => rfl).trans (winPj_takeSample _)
  · exact (hchannels.energy_eq Energy.eclk fun _ => rfl).trans heclk
  · obtain ⟨hc, ht⟩ := thresholds_rest (d := sampleTaken d) (hrest.imp id
      (Or.imp (fun h => hstarted.trans h) fun h => ⟨hexhausted.trans h.1, hmid.trans h.2⟩))
    exact ⟨hc.trans hcounts, ht⟩

/-! ## The end of a window on a worker -/

/-- A worker's report changes the die link alone. -/
theorem reportWindow_worker {d : Dev} (hw : isManager d = false) : Follows noPeer d (reportWindow d) ∧ (reportWindow d).energy = d.energy := by
  rw [reportWindow, if_neg (by rw [hw]; decide)]
  split
  · exact ⟨.refl d, rfl⟩
  · exact ⟨follows_send .., (sameButLink_send ..).energy_eq⟩

section Worker
variable {d : Dev} (hstarted : d.energy.started = true) (hrst : d.pins.rstAsserted = false) (hw : isManager d = false)
include hstarted hrst hw

theorem windowEnd_worker : let e := (energyWindowEnd d).energy
    e.run = runAfter d ∧ e.diverged = (d.energy.diverged || runFull d) ∧ e.suspended = !(measured d).2 ∧
    (runFull d = true → d.energy.diverged = false → isPending (energyWindowEnd d) Ev.ESTIMATE_DIVERGED) ∧
    e.spent = 0 ∧ e.winPj = 0 ∧ e.exhausted = false ∧ e.estPrev = estimateOf d ∧ e.aPrev = accountedOf d ∧
    e.phase = BitVec.ofNat 4 (rbits d 0xE004 3 0) ∧
    (d.energy.fresh = true → e.stale = false ∧ e.fresh = false ∧
      e.pEff = rbits d 0xE0C0 23 0 - min (rbits d 0xE0C0 23 0) (accountedOf d - d.energy.pEff)) ∧
    (d.energy.fresh = false → d.energy.stale = false → max 1 (rbits d 0xE0C8 31 24) ≤ d.energy.staleCnt + 1 →
      isPending (energyWindowEnd d) Ev.PURSE_STALE ∧ e.stale = true ∧
      e.pEff = rbits d 0xE0C8 23 0 - min (rbits d 0xE0C8 23 0) (accountedOf d - d.energy.pEff)) := by
  obtain ⟨c, henergy⟩ := windowClosed_energy d
  obtain ⟨hfollows, hsame⟩ := reportWindow_worker (d := windowClosed d) (by rw [(follows_windowClosed d).isManager_eq]; exact hw)
  have hreport := (follows_windowClosed d).trans hfollows
  rw [henergy] at hsame
  obtain ⟨hrun, hdiverged, hsuspended, hspent, hwin, hexhausted, hest, hacct, hphase⟩ := windowOpened_keeps (reportWindow (windowClosed d))
  rw [hsame] at hrun hdiverged hsuspended hest hacct
  rw [hreport.rbits_eq (by decide) (by decide)] at hphase
  rw [energyWindowEnd_eq hstarted hrst]
  refine ⟨hrun, hdiverged, hsuspended, fun hnow hfirst => ?_, hspent, hwin, hexhausted, hest, hacct, hphase, fun hfresh => ?_,
    fun hfresh hstale hcount => ?_⟩
  · refine windowOpened_isPending _ (by decide) ((takePending_keeps _).1.isPending (by decide) (hfollows.isPending (by decide) ?_))
    exact closeWindow_raises d hnow hfirst
  · obtain ⟨-, hshows, htaken, hpurse⟩ := windowOpened_fresh (d := reportWindow (windowClosed d)) (by rw [hsame]; exact hfresh)
    rw [hsame, hreport.rbits_eq (by decide) (by decide)] at hpurse
    exact ⟨hshows, htaken, hpurse⟩
  · have hlimit := hreport.rbits_eq (off := 0xE0C8) (by decide) (by decide)
    obtain ⟨hraised, hshows, hpurse⟩ := windowOpened_stale (d := reportWindow (windowClosed d)) (by rw [hsame]; exact hfresh)
      (by rw [hsame]; exact hstale) (by rw [hsame, hlimit]; exact hcount)
    rw [hsame, hlimit] at hpurse
    exact ⟨hraised, hshows, hpurse⟩

end Worker

/-! ## The end of a window on the manager -/

/-- The device whose shares the manager computes: its own report has reached the history. -/
def ownReported (d e : Dev) : Dev := applyReport e (me d) d.energy.phase.toNat d.energy.point (clip24 (accountedOf d))

theorem reportWindow_manager {d : Dev} (hm : isManager d = true) : reportWindow (windowClosed d) = sharePurse (ownReported d (windowClosed d)) := by
  obtain ⟨c, henergy⟩ := windowClosed_energy d
  have hfollows := follows_windowClosed d
  rw [reportWindow, if_pos (by rw [hfollows.isManager_eq]; exact hm), henergy, hfollows.boot]
  rfl

theorem follows_ownReported (d e : Dev) : Follows noPeer e (ownReported d e) := by
  unfold ownReported applyReport; exact follows_onEnergy ..

section Manager
variable {d : Dev} (hstarted : d.energy.started = true) (hrst : d.pins.rstAsserted = false) (hm : isManager d = true)

/-- The shares are those of the device as it was, with the report. -/
theorem sameShares_ownReported (d : Dev) : SameShares (ownReported d d) (ownReported d (windowClosed d)) :=
  sameShares_applyReport (sameShares_windowClosed d) ..

theorem purseWord_ownReported (d : Dev) (i : Nat) : purseWord (ownReported d (windowClosed d)) i = clip24 (shareOf (ownReported d d) i) := by
  rw [purseWord, (sameShares_ownReported d).purseOf_eq, purseOf_fst]

theorem demandWord_ownReported (d : Dev) (i : Nat) : demandWord (ownReported d (windowClosed d)) i = clip24 (demandOf (ownReported d d) i) := by
  rw [demandWord, (sameShares_ownReported d).demandOf_eq]

/-- What the grants are made on. -/
theorem follows_granting (d : Dev) : Follows noPeer d (shortRaised (ownReported d (windowClosed d))) :=
  ((follows_windowClosed d).trans (follows_ownReported ..)).trans (follows_shortRaised _)

include hstarted hrst hm

theorem windowEnd_manager : energyWindowEnd d = windowOpened (sharePurse (ownReported d (windowClosed d))) := by
  rw [energyWindowEnd_eq hstarted hrst, reportWindow_manager hm]

theorem windowEnd_short (hdemands : rbits d 0xE180 23 0 < demands (ownReported d d)) (hfloors : rbits d 0xE180 23 0 < floors (ownReported d d)) :
    isPending (energyWindowEnd d) Ev.CAP_SHORT := by
  have hshares := sameShares_ownReported d
  have hcap : rbits (ownReported d (windowClosed d)) 0xE180 23 0 = rbits d 0xE180 23 0 := hshares.rbits_eq (by decide) (by decide) 23 0
  rw [windowEnd_manager hstarted hrst hm, sharePurse_eq]
  refine windowOpened_isPending _ (by decide) ((takePending_keeps _).1.isPending (by decide) ?_)
  refine (Grants.foldl (grants_grantOne _) _ _).isPending (by decide) (shortRaised_raises ?_ ?_)
  · rw [hcap, demands, hshares.demands_eq]
    exact hdemands
  · rw [hcap, floors, hshares.floors_eq]
    exact hfloors

theorem windowEnd_own (hme : me d ∈ present (ownReported d d)) : let p := clip24 (shareOf (ownReported d d) (me d))
    rbits (energyWindowEnd d) 0xE0C0 23 0 = p ∧ rbits (energyWindowEnd d) 0xE0C4 23 0 = clip24 (demandOf (ownReported d d) (me d)) ∧
    (energyWindowEnd d).energy.grant = p ∧ (energyWindowEnd d).energy.stale = false := by
  have hgranting := (follows_granting d).me_eq
  have hown := ownGrant_grants (src := ownReported d (windowClosed d)) (d := shortRaised (ownReported d (windowClosed d)))
    (l := present (ownReported d (windowClosed d))) (by rw [hgranting, (sameShares_ownReported d).present_eq]; exact hme)
  rw [hgranting, ← sharePurse_eq] at hown
  obtain ⟨hpurse, hdemand, hfresh⟩ := hown
  obtain ⟨hgrant, hstale, -, -⟩ := windowOpened_fresh hfresh
  rw [windowEnd_manager hstarted hrst hm, windowOpened_rbits _ (by decide) (by decide) (by decide),
    windowOpened_rbits _ (by decide) (by decide) (by decide), hgrant, hpurse, hdemand, purseWord_ownReported, demandWord_ownReported]
  exact ⟨rfl, rfl, rfl, hstale⟩

theorem windowEnd_sends {i : Nat} (hi : i ∈ present (ownReported d d)) (hne : i ≠ me d) (hpath : (pathOk d i 0 || pathOk d i 1) = true) :
    hasMsg (energyWindowEnd d) ⟨d.boot.inst, BitVec.ofNat 2 i,
      .regWrite 0xE0C0 (BitVec.ofNat 32 (clip24 (shareOf (ownReported d d) i)))⟩ ∧
    hasMsg (energyWindowEnd d) ⟨d.boot.inst, BitVec.ofNat 2 i,
      .regWrite 0xE0C4 (BitVec.ofNat 32 (clip24 (demandOf (ownReported d d) i)))⟩ := by
  have hgranting := follows_granting d
  have hlt : i < 4 := List.mem_range.mp (List.mem_of_mem_filter hi)
  have hpathd : hasPath d (purseMsg (ownReported d (windowClosed d)) d i) := by
    have hdst : (BitVec.ofNat 2 i).toNat = i := by rw [BitVec.toNat_ofNat]; omega
    rw [hasPath, purseMsg, msgTo, hdst]
    exact hpath
  obtain ⟨hpurse, hdemand⟩ := hasMsg_grants (src := ownReported d (windowClosed d)) (d := shortRaised (ownReported d (windowClosed d)))
    (l := present (ownReported d (windowClosed d))) (by rw [(sameShares_ownReported d).present_eq]; exact hi) (by rw [hgranting.me_eq]; exact hne)
    (by rw [purseMsg, msgTo_congr hgranting.boot]; exact hasPath_follows hgranting hpathd)
  rw [← sharePurse_eq, purseMsg, msgTo_congr hgranting.boot, purseWord_ownReported] at hpurse
  rw [← sharePurse_eq, demandMsg, msgTo_congr hgranting.boot, demandWord_ownReported] at hdemand
  rw [windowEnd_manager hstarted hrst hm]
  exact ⟨hasMsg_of_link (windowOpened_link _) hpurse, hasMsg_of_link (windowOpened_link _) hdemand⟩

end Manager

theorem clip24_closing (d : Dev) : min (closing d) 0xFFFFFF = clip24 (accountedOf d) := by
  rw [closing]
  exact congrArg clip24 (accounted_closeWindow d)

end Sys2Proof.Machine

section
open Sys2Proof Sys2Proof.Machine Sys2Proof.Claims

/-- Settles O41: a sample is a sum over the counts, a window's end its six steps one after the other, and the manager's grants each
stay as they were made. -/
theorem energyIsSampledAndPursed : Obligations.EnergyIsSampledAndPursed := by
  refine ⟨fun s hrst hcounts => endsDev_of_onDev (f := energySample) rfl ?_,
    fun s hstarted hrst hw => endsDev_of_onDev (f := energyWindowEnd) rfl (windowEnd_worker hstarted hrst hw),
    fun s hstarted hrst hm => endsDev_of_onDev (f := energyWindowEnd) rfl ?_⟩
  · have h := energySample_shows hrst hcounts
    rw [inEstimate_eq] at h
    exact h
  · rw [clip24_closing]
    exact ⟨windowEnd_short hstarted hrst hm, windowEnd_own hstarted hrst hm, fun i hi => windowEnd_sends hstarted hrst hm hi⟩

end
end

section
/-!
Tasks of the hems: the commands of DLT_HEM_CMD, the end of a retraining and of a loopback burst, calibration and tracking (R415 to R425).
-/
namespace Sys2Proof.Machine
open Sys2Proof.Claims

/-! ## The hem of a tile -/

theorem hem_onHem (d : Dev) (t : Nat) (f : Hem → Hem) : (svc (onHem d t f) t).hem = f (svc d t).hem := by rw [svc_onHem]

theorem hem_answered (d : Dev) (t : Nat) (f : Hem → Hem) (ok : Bool) :
    (svc (answerWrite (onHem (atPort d) t f) ok) t).hem = f (svc d t).hem := hem_onHem (atPort d) t f

/-! ## DLT_HEM_CMD (R418) -/

section Command
variable (d : Dev) (t : Nat)

theorem regCmd_hemCmd (ht : t < 320) (m : SMap DLine) (v : Word) :
    regCmd m d (tileOff t 0x300) v = some ((m, (hemCmd d t v).1), (hemCmd d t v).2) := by
  have hoff : tileOff t 0x300 = 0x100000 + 0x1000 * t + 0x300 := rfl
  have htile : (tileOff t 0x300 - 0x100000) / 0x1000 = t := by omega
  have hreg : tileOff t 0x300 % 0x1000 = 0x300 := by omega
  rw [regCmd, if_pos (by omega), htile, hreg]
  · rfl
  all_goals omega

theorem isHemCmd_tileOff (ht : t < 320) {v : Word} (hv : bits v 31 29 < 5) : isHemCmd (tileOff t 0x300) v = true := by
  have hoff : tileOff t 0x300 = 0x100000 + 0x1000 * t + 0x300 := rfl
  rw [isHemCmd, Bool.and_eq_true, decide_eq_true_eq, decide_eq_true_eq]
  exact ⟨by omega, hv⟩

/-- What the port leaves of a write of DLT_HEM_CMD with a defined action. -/
theorem ends_hemCmd {c : Instr} {s : State} {t : Fin 320} {v : Word} {P : Dev → Prop} (hc : exec c s = hostCmd (tileOff t.val 0x300) v s)
    (hs : hostServed s.dev (tileOff t.val 0x300)) (hv : bits v 31 29 < 5)
    (hP : P (answerWrite (hemCmd (atPort s.dev) t.val v).1 (hemCmd (atPort s.dev) t.val v).2)) : EndsDev c s P :=
  ends_command hc hs (unpaired_tileOff ..) (regCmd_hemCmd _ _ t.isLt ..)
    (by rw [commandEnd_hemCmd (isHemCmd_tileOff _ t.isLt hv)]; exact hP)

/-- The pattern that a command starts: a retraining with action 1, a loopback with 2 and 3. -/
def startedHem (action : Nat) (h : Hem) : Hem :=
  if action = 1 then { h with use := .training }
  else { h with use := if action = 2 then .nearEnd else .farEnd, stop := false, byReturn := false, lbPin := none }

variable {d t} {v : Word}

theorem hemCmd_starts (hv : bits v 31 29 ∈ [1, 2, 3]) (hout : (svc d t).state = .out) (hidle : (svc d t).hem.use = .idle)
    (hrate : rateChanging d t = false) (hck : d.pins.ck = true) :
    hemCmd d t v = (onHem (if bits v 31 29 = 3 then fifoMode d t 4 else d) t (startedHem (bits v 31 29)), true) := by
  rw [hemCmd]
  simp only [List.mem_cons, List.not_mem_nil, or_false] at hv
  obtain hv | hv | hv := hv
  · simp [hv, hout, hidle, hrate, hck]; rfl
  · simp [hv, hout, hidle, hrate, hck]; rfl
  · simp [hv, hout, hidle, hrate, hck]; rfl

theorem hem_hemCmd_starts (hv : bits v 31 29 ∈ [1, 2, 3]) (hout : (svc d t).state = .out) (hidle : (svc d t).hem.use = .idle)
    (hrate : rateChanging d t = false) (hck : d.pins.ck = true) :
    (svc (hemCmd d t v).1 t).hem = startedHem (bits v 31 29) (svc d t).hem ∧ (hemCmd d t v).2 = true := by
  rw [hemCmd_starts hv hout hidle hrate hck]
  refine ⟨?_, rfl⟩
  dsimp only
  rw [svc_onHem, (Channels.of_ite (channels_fifoMode (d := d) (t := t) 4) (.refl d)).svc]

theorem hemCmd_stops (hv : bits v 31 29 = 4) (hloop : (svc d t).hem.use = .nearEnd ∨ (svc d t).hem.use = .farEnd) :
    hemCmd d t v = (onHem d t fun h => { h with stop := true }, true) := by
  have huse : (decide ((svc d t).hem.use = .nearEnd) || decide ((svc d t).hem.use = .farEnd)) = true := by simpa using hloop
  rw [hemCmd, if_neg (by omega), if_neg (by omega), if_pos hv, if_pos huse]

theorem hemCmd_not_out (hv : bits v 31 29 ∈ [1, 2, 3]) (hout : (svc d t).state ≠ .out) :
    hemCmd d t v = (onHem d t fun h => { h with result := 2 }, false) := by
  simp only [List.mem_cons, List.not_mem_nil, or_false] at hv
  rw [hemCmd, if_neg (by omega), if_neg (by omega), if_neg (by omega), if_pos hout]

theorem hemCmd_busy (hv : bits v 31 29 ∈ [1, 2, 3]) (hout : (svc d t).state = .out) (huse : (svc d t).hem.use ≠ .idle) :
    hemCmd d t v = (onHem d t fun h => { h with result := 3 }, false) := by
  simp only [List.mem_cons, List.not_mem_nil, or_false] at hv
  rw [hemCmd, if_neg (by omega), if_neg (by omega), if_neg (by omega), if_neg (not_not.mpr hout), if_pos (by simp [huse])]

theorem hemCmd_no_clock (hv : bits v 31 29 ∈ [1, 2, 3]) (hout : (svc d t).state = .out) (hidle : (svc d t).hem.use = .idle)
    (hrate : rateChanging d t = false) (hck : d.pins.ck = false) : hemCmd d t v = (d, false) := by
  simp only [List.mem_cons, List.not_mem_nil, or_false] at hv
  rw [hemCmd, if_neg (by omega), if_neg (by omega), if_neg (by omega), if_neg (not_not.mpr hout), if_neg (by simp [hidle, hrate]),
    if_pos (by simp [hck])]

end Command

/-- The commands that start a pattern, each a write of its action. -/
theorem exec_hemStart {t : Fin 320} {c : Instr} (hc : c = .retrain t ∨ c = .loopNearEnd t ∨ c = .loopFarEnd t) (s : State) :
    ∃ v : Word, exec c s = hostCmd (tileOff t.val 0x300) v s ∧ bits v 31 29 ∈ [1, 2, 3] := by
  obtain rfl | rfl | rfl := hc
  · exact ⟨0x20000000, rfl, by decide⟩
  · exact ⟨0x40000000, rfl, by decide⟩
  · exact ⟨0x60000000, rfl, by decide⟩

section Write
variable {t : Fin 320} {s : State} (hs : hostServed s.dev (tileOff t.val 0x300))
include hs

/-- A command that starts its pattern. -/
theorem ends_hemStart {c : Instr} {v : Word} (hc : exec c s = hostCmd (tileOff t.val 0x300) v s) (hv : bits v 31 29 ∈ [1, 2, 3])
    (hout : (svc s.dev t.val).state = .out) (hidle : (svc s.dev t.val).hem.use = .idle) (hrate : rateChanging s.dev t.val = false)
    (hck : s.dev.pins.ck = true) :
    EndsDev c s fun d => (svc d t.val).hem = startedHem (bits v 31 29) (svc s.dev t.val).hem ∧ okay d := by
  refine ends_hemCmd hc hs (by simp only [List.mem_cons, List.not_mem_nil, or_false] at hv; omega) ?_
  obtain ⟨hhem, htaken⟩ := hem_hemCmd_starts (d := atPort s.dev) hv hout hidle hrate hck
  rw [htaken]
  exact ⟨hhem, rfl⟩

theorem ends_loopStop (hloop : (svc s.dev t.val).hem.use = .nearEnd ∨ (svc s.dev t.val).hem.use = .farEnd) :
    EndsDev (.loopStop t) s fun d => (svc d t.val).hem = { (svc s.dev t.val).hem with stop := true } ∧ okay d ∧ d.regs = s.dev.regs := by
  refine ends_hemCmd (v := 0x80000000) rfl hs (by decide) ?_
  rw [hemCmd_stops (d := atPort s.dev) (by decide) hloop]
  refine ⟨?_, rfl, rfl⟩
  dsimp only
  rw [hem_answered]

/-- A command that is rejected: DLT_HEM_CMD shows why, and nothing is logged. -/
theorem ends_hemStart_rejected {c : Instr} {v : Word} {n : Nat} (hc : exec c s = hostCmd (tileOff t.val 0x300) v s)
    (hv : bits v 31 29 ∈ [1, 2, 3]) (hcmd : hemCmd (atPort s.dev) t.val v = (onHem (atPort s.dev) t.val fun h => { h with result := n }, false)) :
    EndsDev c s fun d => (svc d t.val).hem = { (svc s.dev t.val).hem with result := n } ∧ ignored d ∧ d.lint = s.dev.lint := by
  refine ends_hemCmd hc hs (by simp only [List.mem_cons, List.not_mem_nil, or_false] at hv; omega) ?_
  rw [hcmd]
  dsimp only
  rw [hem_answered]
  exact ⟨rfl, rfl, rfl⟩

theorem ends_hemStart_no_clock {c : Instr} {v : Word} (hc : exec c s = hostCmd (tileOff t.val 0x300) v s)
    (hv : bits v 31 29 ∈ [1, 2, 3]) (hcmd : hemCmd (atPort s.dev) t.val v = (atPort s.dev, false)) :
    EndsDev c s fun d => d.tiles = s.dev.tiles ∧ ignored d ∧ d.lint = s.dev.lint := by
  refine ends_hemCmd hc hs (by simp only [List.mem_cons, List.not_mem_nil, or_false] at hv; omega) ?_
  rw [hcmd]
  exact ⟨rfl, rfl, rfl⟩

end Write

end Sys2Proof.Machine
end

section
/-!
The end of a retraining and of a loopback burst, and the writes of a channel's TRAIN section (R415 to R418, R496).
-/
namespace Sys2Proof.Machine
open Sys2Proof.Claims

/-! ## The accesses that M21 asks for -/

section Posts
variable (d : Dev) (t : Nat)

theorem svc_post (m prio : Nat) (u : UnitOp) (l : Loc) (bolt : Nat) : svc (post d m prio u l bolt) t = svc d t := rfl
theorem boot_post (m prio : Nat) (u : UnitOp) (l : Loc) (bolt : Nat) : (post d m prio u l bolt).boot = d.boot := rfl

theorem queue_length_post (m prio : Nat) (u : UnitOp) (l : Loc) (bolt : Nat) :
    (getMaster (post d m prio u l bolt) m).queue.length = (getMaster d m).queue.length + 1 := by
  unfold post queueAt
  rw [getMaster_setMaster]
  exact List.length_append

/-- M21 asks for a section's lines, one after the other. -/
theorem posts_queue {f : Dev → Nat → Dev} (hf : ∀ d i, ∃ m prio u l bolt, m = 21 ∧ f d i = post d m prio u l bolt) (l : List Nat) (d : Dev) :
    (∀ t, svc (l.foldl f d) t = svc d t) ∧ (l.foldl f d).boot = d.boot ∧
    (getMaster (l.foldl f d) 21).queue.length = (getMaster d 21).queue.length + l.length := by
  induction l generalizing d with
  | nil => exact ⟨fun _ => rfl, rfl, rfl⟩
  | cons a l ih =>
    obtain ⟨hsvc, hboot, hqueue⟩ := ih (f d a)
    obtain ⟨m, prio, u, loc, bolt, rfl, ha⟩ := hf d a
    rw [List.foldl_cons]
    refine ⟨fun t => ?_, ?_, ?_⟩
    · rw [hsvc, ha, svc_post]
    · rw [hboot, ha, boot_post]
    · rw [hqueue, ha, queue_length_post, List.length_cons]
      omega

/-- What M21 has to write of a channel, with a section's writes asked for. -/
def grownLed (off n : Nat) (l : List LedJob) : List LedJob :=
  if l.any fun x => x.off = off then updWhere (fun x => x.off = off) (fun x => { x with left := x.left + 2 * n }) l
  else l ++ [⟨off, n, 2 * n⟩]

theorem ledgerPost_asks (off n v : Nat) :
    svc (ledgerPost t off n v d) t = { svc d t with led := grownLed off n (svc d t).led } ∧
    (ledgerPost t off n v d).boot = d.boot ∧
    (getMaster (ledgerPost t off n v d) 21).queue.length = (getMaster d 21).queue.length + n := by
  obtain ⟨hsvc, hboot, hqueue⟩ := posts_queue (f := fun d i => post d 21 0
      (.put .full (coded (ledgerLoc t false (off + 64 * i)) (sectionLine v i)) false none) (ledgerLoc t false (off + 64 * i)) noBolt)
    (fun d i => ⟨_, _, _, _, _, rfl, rfl⟩) (List.range n) (onSvc d t fun s => { s with led := grownLed off n s.led })
  refine ⟨(hsvc t).trans (svc_onSvc ..), hboot, hqueue.trans ?_⟩
  rw [List.length_range]
  rfl

theorem trainPost_frozen (hfrozen : isFrozen d t = true) (hwarm : d.boot.warmState ≠ 3) :
    trainWaits (trainPost d t) t = true ∧ (svc (trainPost d t) t).hem = (svc d t).hem ∧ (trainPost d t).reg = d.reg := by
  have hpost : trainPost d t = onSvc d t fun s => { s with led := s.led.filter (fun j => j.off ≠ 0x40) ++ [⟨0x40, 63, 126⟩] } := by
    rw [trainPost, if_pos]
    rw [show ((svc d t).state = .out && (svc d t).reason = .frozen) = true from hfrozen, Bool.true_and, decide_eq_true hwarm]
  rw [hpost, trainWaits, svc_onSvc]
  refine ⟨?_, rfl, rfl⟩
  rw [List.any_append]
  exact Bool.or_true _

theorem trainPost_asks (hfrozen : isFrozen d t = false) :
    (getMaster (trainPost d t) 21).queue.length = (getMaster d 21).queue.length + 63 := by
  rw [trainPost, if_neg]
  · exact (ledgerPost_asks ..).2.2
  · rw [show ((svc d t).state = .out && (svc d t).reason = .frozen) = false from hfrozen]
    exact Bool.false_ne_true

theorem hem_trainPost : (svc (trainPost d t) t).hem = (svc d t).hem := by
  rw [trainPost]
  split
  · rw [svc_onSvc]
  · rw [(ledgerPost_asks ..).1]

end Posts

/-! ## RETRAIN_DONE -/

/-- What a training leaves alone until its end: the services and the regulator. -/
structure TrainKeeps (d e : Dev) : Prop where
  svc : ∀ t, svc e t = svc d t
  reg : e.reg = d.reg
  warm : e.boot.warmState = d.boot.warmState

theorem TrainKeeps.trans {d e f : Dev} (h : TrainKeeps d e) (h' : TrainKeeps e f) : TrainKeeps d f :=
  ⟨fun t => (h'.svc t).trans (h.svc t), h'.reg.trans h.reg, h'.warm.trans h.warm⟩

theorem Channels.trainKeeps {d e : Dev} (h : Channels d e) : TrainKeeps d e := ⟨h.svc, h.reg, congrArg _ h.boot⟩

section Training
variable (d : Dev) (t : Nat) (r : Trial)

theorem channels_trialIds : Channels d (trialIds d t r) := by
  unfold trialIds
  exact .of_ite (.refl d) ((channels_onLayer ..).trans (channels_onLayer ..))

/-- The device with the training's steps run and its margin shown. -/
def trainedDev (step : Option Nat) : Dev :=
  if step = some 1 then trainHem (trialIds d t r) t r else seenMargin (trainHem (trialIds d t r) t r) (trialMargin t r step)

theorem trainKeeps_trainedDev (step : Option Nat) : TrainKeeps d (trainedDev d t r step) := by
  have h : TrainKeeps d (trainHem (trialIds d t r) t r) := ((channels_trialIds d t r).trans (channels_trainHem _ t r)).trainKeeps
  rw [trainedDev]
  split
  · exact h
  · exact h.trans ⟨fun _ => rfl, rfl, rfl⟩

variable {d t r}

/-- A training that completes: its margin, no drift. -/
def completedHem (g : BitVec 8) (h : Hem) : Hem := { h with use := .idle, result := 1, drift := 0, driftRaised := false, margin := g }

theorem retrainDone_completes (huse : (svc d t).hem.use = .training) (hck : d.pins.ck = true) (hstep : failStep (trialIds d t r) t r = none) :
    retrainDone d t r =
      beginRegion (trainPost (newValues (onHem (trainedDev d t r none) t (completedHem (trialMargin t r none))) t) t) := by
  rw [retrainDone, if_neg (by simp [huse, hck])]
  dsimp only
  rw [hstep]
  rfl

theorem retrainDone_fails {k : Nat} (huse : (svc d t).hem.use = .training) (hck : d.pins.ck = true)
    (hstep : failStep (trialIds d t r) t r = some k) :
    retrainDone d t r = beginRegion (lint (onHem (trainedDev d t r (some k)) t
      fun h => { h with use := .idle, result := 4, margin := trialMargin t r (some k) }) 0x28 { tile := t } k (trainPin t k r.pin)) := by
  rw [retrainDone, if_neg (by simp [huse, hck])]
  dsimp only
  rw [hstep]
  rfl

theorem hem_newValues (d : Dev) (t : Nat) :
    (svc (newValues d t) t).hem = { (svc d t).hem with values := (svc (newValues d t) t).hem.values } := by
  rw [newValues, hem_onHem]
  rfl

theorem isFrozen_congr {d e : Dev} {t : Nat} (hstate : (svc e t).state = (svc d t).state) (hreason : (svc e t).reason = (svc d t).reason) :
    isFrozen e t = isFrozen d t := by rw [isFrozen, isFrozen, hstate, hreason]

theorem isFrozen_onHem (d : Dev) (t : Nat) (f : Hem → Hem) : isFrozen (onHem d t f) t = isFrozen d t :=
  isFrozen_congr (by rw [svc_onHem]) (by rw [svc_onHem])

theorem isFrozen_newValues (d : Dev) (t : Nat) : isFrozen (newValues d t) t = isFrozen d t := by
  unfold newValues
  exact isFrozen_onHem ..

/-- The device as the training's values are in use. -/
def valuedDev (d : Dev) (t : Nat) (r : Trial) : Dev := newValues (onHem (trainedDev d t r none) t (completedHem (trialMargin t r none))) t

theorem hem_valuedDev (d : Dev) (t : Nat) (r : Trial) : (svc (valuedDev d t r) t).hem =
    { completedHem (trialMargin t r none) (svc d t).hem with values := (svc (valuedDev d t r) t).hem.values } := by
  have h := hem_newValues (onHem (trainedDev d t r none) t (completedHem (trialMargin t r none))) t
  rw [hem_onHem, (trainKeeps_trainedDev d t r none).svc t] at h
  exact h

theorem valuedDev_keeps (d : Dev) (t : Nat) (r : Trial) : isFrozen (valuedDev d t r) t = isFrozen d t ∧
    (valuedDev d t r).reg = d.reg ∧ (valuedDev d t r).boot.warmState = d.boot.warmState := by
  have h := trainKeeps_trainedDev d t r none
  refine ⟨?_, h.reg, h.warm⟩
  rw [valuedDev, isFrozen_newValues, isFrozen_onHem, isFrozen_congr (congrArg _ (h.svc t)) (congrArg _ (h.svc t))]

end Training

end Sys2Proof.Machine
end

section
/-!
How a retraining, a loopback burst, a calibration and a tracking step end (R415 to R418, R424, R425).
-/
namespace Sys2Proof.Machine
open Sys2Proof.Claims

/-! ## A retraining's end -/

section Retrain
variable {d : Dev} {t : Nat} {r : Trial} (huse : (svc d t).hem.use = .training) (hck : d.pins.ck = true)
include huse hck

theorem retrainDone_none (hstep : failStep (trialIds d t r) t r = none) :
    (svc (retrainDone d t r) t).hem =
      { completedHem (trialMargin t r none) (svc d t).hem with values := (svc (retrainDone d t r) t).hem.values } ∧
    (isFrozen d t = false → (getMaster (retrainDone d t r) 21).queue.length = (getMaster d 21).queue.length + 63) ∧
    (isFrozen d t = true → d.boot.warmState ≠ 3 →
      trainWaits (retrainDone d t r) t = true ∧ (getMaster (retrainDone d t r) 21).queue = (getMaster d 21).queue) := by
  have hbegin := channels_beginRegion (trainPost (valuedDev d t r) t)
  obtain ⟨hfrozen, hreg, hwarm⟩ := valuedDev_keeps d t r
  have hmaster : getMaster (valuedDev d t r) 21 = getMaster d 21 := getMaster_congr hreg 21
  have hdone : retrainDone d t r = beginRegion (trainPost (valuedDev d t r) t) := retrainDone_completes huse hck hstep
  rw [hdone, hbegin.svc t, hbegin.getMaster_eq, trainWaits, hbegin.svc t, hem_trainPost]
  refine ⟨hem_valuedDev .., fun h => ?_, fun h hw => ?_⟩
  · rw [trainPost_asks _ _ (hfrozen.trans h), hmaster]
  · obtain ⟨hwaits, -, hkept⟩ := trainPost_frozen _ _ (hfrozen.trans h) (by rw [hwarm]; exact hw)
    exact ⟨hwaits, by rw [getMaster_congr hkept, hmaster]⟩

theorem retrainDone_some {k : Nat} (hstep : failStep (trialIds d t r) t r = some k) :
    (svc (retrainDone d t r) t).hem = { (svc d t).hem with use := .idle, result := 4, margin := trialMargin t r (some k) } := by
  rw [retrainDone_fails huse hck hstep, (channels_beginRegion _).svc, svc, getTile_congr (lint_tiles ..), ← svc, hem_onHem,
    (trainKeeps_trainedDev d t r (some k)).svc t]

end Retrain

/-! ## LOOPBACK_BURST_END -/

/-- The first failing pin that a loopback keeps. -/
def burstPin (t : Nat) (errs : BitVec 32) (pin : Nat) (h : Hem) : Hem :=
  { h with lbPin := if errs = 0 || !lbPinFits t pin then h.lbPin else h.lbPin.or (some (BitVec.ofNat 9 pin)) }

/-- The burst after which a stop takes effect. -/
def stoppedHem (h : Hem) : Hem := { h with use := .idle, stop := false, byReturn := false, result := if h.byReturn then 5 else 1 }

/-- The burst's bit errors, counted. -/
def burstCounted (d : Dev) (t : Nat) (errs : BitVec 32) : Dev := if errs = 0 then d else rinc d (tileOff t 0x308) errs.toNat

/-- A near hem's far end loopback answers the burst's lines from the layers' FIFOs. -/
def burstFifo (d : Dev) (t : Nat) : Dev :=
  if (svc d t).hem.use = .farEnd && !isFar t then eachLayer (fifoBatch (timing d t) t) d else d

/-- A stopped far end loopback puts MR6 back. -/
def burstMode (d : Dev) (t : Nat) (h : Hem) : Dev := if h.use = .farEnd && h.stop then fifoMode d t 0 else d

theorem loopbackBurstEnd_runs {d : Dev} {t : Nat} {errs : BitVec 32} {pin at_ : Nat}
    (hburst : inBurst d t = true) (hck : d.pins.ck = true) :
    loopbackBurstEnd d t errs pin at_ =
      let d2 := onHem (burstCounted d t errs) t (burstPin t errs pin)
      let d3 := burstMode (burstFifo d2 t) t (svc d2 t).hem
      beginRegion (repayQuiet (issueDue (if (svc d2 t).hem.stop then onHem d3 t stoppedHem else d3) t at_) t) := by
  rw [loopbackBurstEnd, if_neg (by simp [hburst, hck])]
  rfl

theorem svc_burstCounted (d : Dev) (t : Nat) (errs : BitVec 32) (k : Nat) : svc (burstCounted d t errs) k = svc d k := by
  rw [burstCounted]
  split
  · rfl
  · rw [svc, svc, getTile_congr (rinc_tiles ..)]

theorem burstCounted_counts (d : Dev) (t : Nat) (errs : BitVec 32) : counted d (burstCounted d t errs) (tileOff t 0x308) errs.toNat := by
  rw [counted, burstCounted]
  split
  next h =>
    have := (rget d (tileOff t 0x308)).isLt
    rw [h, show (0 : BitVec 32).toNat = 0 from rfl]
    omega
  next => rw [toNat_rget_rinc]

theorem channels_burst (d : Dev) (t : Nat) (h : Hem) : Channels d (burstMode (burstFifo d t) t h) := by
  refine Channels.trans (e := burstFifo d t) ?_ ?_
  · unfold burstFifo
    exact .of_ite (channels_eachLayer d fun k d => channels_fifoBatch d t ..) (.refl d)
  · unfold burstMode
    exact .of_ite (channels_fifoMode ..) (.refl _)

theorem loopbackBurstEnd_hem {d : Dev} {t : Nat} {errs : BitVec 32} {pin at_ : Nat}
    (hburst : inBurst d t = true) (hck : d.pins.ck = true) :
    counted d (loopbackBurstEnd d t errs pin at_) (tileOff t 0x308) errs.toNat ∧
    (svc (loopbackBurstEnd d t errs pin at_) t).hem =
      if (svc d t).hem.stop then stoppedHem (burstPin t errs pin (svc d t).hem) else burstPin t errs pin (svc d t).hem := by
  rw [loopbackBurstEnd_runs hburst hck]
  dsimp only
  have hhem2 : (svc (onHem (burstCounted d t errs) t (burstPin t errs pin)) t).hem = burstPin t errs pin (svc d t).hem := by
    rw [hem_onHem, svc_burstCounted]
  have hcount2 : counted d (onHem (burstCounted d t errs) t (burstPin t errs pin)) (tileOff t 0x308) errs.toNat := burstCounted_counts ..
  generalize onHem (burstCounted d t errs) t (burstPin t errs pin) = d2 at hhem2 hcount2 ⊢
  have hburst := channels_burst d2 t (svc d2 t).hem
  generalize burstMode (burstFifo d2 t) t (svc d2 t).hem = d3 at hburst ⊢
  have hoff (k : Nat) : tileOff t 0x308 ≠ tileOff k 0x18C := by unfold tileOff; omega
  have hcount3 := hburst.counted (by unfold tileOff; omega) hoff hcount2
  have hend (e : Dev) : Channels e (beginRegion (repayQuiet (issueDue e t at_) t)) :=
    ((channels_issueDue e t at_).trans (channels_repayQuiet _ t)).trans (channels_beginRegion _)
  have hstop : (svc d2 t).hem.stop = (svc d t).hem.stop := by rw [hhem2]; rfl
  rw [(hend _).svc t, hstop]
  split
  · refine ⟨(hend _).counted (by unfold tileOff; omega) hoff (s := d) ?_, ?_⟩
    · exact hcount3
    · rw [hem_onHem, hburst.svc t, hhem2]
  · exact ⟨(hend _).counted (by unfold tileOff; omega) hoff hcount3, by rw [hburst.svc t, hhem2]⟩

/-! ## READ_TRACKING -/

section Tracking
variable {d : Dev} {t : Nat} {v : BitVec 8} {pin : BitVec 9}

/-- The drift after one tracking step, which moves it by at most one. -/
def steppedDrift (h : Hem) (v : BitVec 8) : Nat := max h.drift.toNat (min v.toNat (min 255 (h.drift.toNat + 1)))

theorem toNat_steppedDrift (h : Hem) (v : BitVec 8) :
    (BitVec.ofNat 8 (steppedDrift h v)).toNat = steppedDrift h v ∧
    steppedDrift h v = max h.drift.toNat (min v.toNat (h.drift.toNat + 1)) := by
  have hd := h.drift.isLt
  have hv := v.isLt
  rw [BitVec.toNat_ofNat, steppedDrift]
  omega

/-- The hem with its new drift, its generator busy while a near channel tracks. -/
def trackedHem (t : Nat) (v : BitVec 8) (h : Hem) : Hem :=
  { h with drift := BitVec.ofNat 8 (steppedDrift h v), use := if isFar t then .idle else .tracking }

/-- The channel with the step's reads, and the hem with its drift. -/
def trackedDev (d : Dev) (t : Nat) (v : BitVec 8) : Dev :=
  addTasks (onHem d t (trackedHem t v)) t (if isFar t then [.drift, .drift] else [.trk 0, .trk 1])

theorem trackedDev_tile (d : Dev) (t : Nat) (v : BitVec 8) :
    (svc (trackedDev d t v) t).hem = trackedHem t v (svc d t).hem ∧
    (chan (trackedDev d t v) t).tasks = (chan d t).tasks ++ (if isFar t then [.drift, .drift] else [.trk 0, .trk 1]) := by
  rw [trackedDev, addTasks, svc_onChan, hem_onHem, chan_onChan]
  exact ⟨rfl, congrArg (fun c : Chan => c.tasks ++ _) (chan_onSvc ..)⟩

/-- The device that has reported the drift. -/
def driftReported (d : Dev) (t : Nat) (pin : BitVec 9) (n : Nat) : Dev :=
  lint (raise (onHem d t fun h => { h with driftRaised := true }) Ev.HEM_DRIFT) 0x29 { tile := t } pin.toNat n

theorem driftReported_tile (d : Dev) (t : Nat) (pin : BitVec 9) (n : Nat) :
    (svc (driftReported d t pin n) t).hem = { (svc d t).hem with driftRaised := true } ∧
    (chan (driftReported d t pin n) t).tasks = (chan d t).tasks ∧ isPending (driftReported d t pin n) Ev.HEM_DRIFT := by
  have htile : getTile (driftReported d t pin n) t = getTile (onHem d t fun h => { h with driftRaised := true }) t :=
    getTile_congr ((lint_tiles ..).trans (raise_tiles ..)) t
  refine ⟨?_, ?_, (follows_lint ..).isPending (by decide) (isPending_raise _ none none (by decide))⟩
  · rw [svc, htile]
    exact hem_onHem d t fun h => { h with driftRaised := true }
  · rw [chan, htile]
    exact congrArg Chan.tasks (chan_onSvc d t t _)

theorem readTracking_steps (hon : (rget d 0xD020).getLsbD 30 = true) (htrained : d.boot.trainDone = true)
    (hout : (svc d t).state ≠ .out) (hidle : (svc d t).hem.use = .idle) (hpin : lbPinFits t pin.toNat = true) :
    readTracking d t v pin =
      if rbits d 0xD020 23 16 ≠ 0 && decide (rbits d 0xD020 23 16 < steppedDrift (svc d t).hem v) && !(svc d t).hem.driftRaised
      then driftReported (trackedDev d t v) t pin (steppedDrift (svc d t).hem v) else trackedDev d t v := by
  rw [readTracking, if_neg (by simp [hon, htrained, hout, hidle, hpin])]
  rfl

theorem readTracking_tile (hon : (rget d 0xD020).getLsbD 30 = true) (htrained : d.boot.trainDone = true)
    (hout : (svc d t).state ≠ .out) (hidle : (svc d t).hem.use = .idle) (hpin : lbPinFits t pin.toNat = true) :
    (svc (readTracking d t v pin) t).hem.drift.toNat = steppedDrift (svc d t).hem v ∧
    (chan (readTracking d t v pin) t).tasks = (chan d t).tasks ++ (if isFar t then [.drift, .drift] else [.trk 0, .trk 1]) ∧
    (rbits d 0xD020 23 16 ≠ 0 → rbits d 0xD020 23 16 < steppedDrift (svc d t).hem v → (svc d t).hem.driftRaised = false →
      isPending (readTracking d t v pin) Ev.HEM_DRIFT ∧ (svc (readTracking d t v pin) t).hem.driftRaised = true) := by
  obtain ⟨hhem, htasks⟩ := trackedDev_tile d t v
  obtain ⟨hreported, hkept, hpending⟩ := driftReported_tile (trackedDev d t v) t pin (steppedDrift (svc d t).hem v)
  have hdrift : (trackedHem t v (svc d t).hem).drift.toNat = steppedDrift (svc d t).hem v := (toNat_steppedDrift ..).1
  rw [readTracking_steps hon htrained hout hidle hpin]
  split
  · rw [hreported, hkept, hhem]
    exact ⟨hdrift, htasks, fun _ _ _ => ⟨hpending, rfl⟩⟩
  next h =>
    rw [hhem]
    refine ⟨hdrift, htasks, fun hmost hpast hfirst => absurd ?_ h⟩
    rw [decide_eq_true hmost, decide_eq_true hpast, hfirst]
    rfl

end Tracking

/-! ## ZQ_CALIBRATION -/

theorem zqCalibration_adds {d : Dev} {t : Nat} (hon : (rget d 0xD020).getLsbD 31 = true) (htrained : d.boot.trainDone = true) :
    zqCalibration d t = addTasks d t (if isFar t && isFirstOfStack d t then [.gap, .zq] else [.gap]) := by
  rw [zqCalibration, if_neg (by simp [hon, htrained])]

theorem columnCommand_task (m : SMap DLine) {d : Dev} {t at_ : Nat} {k : HemTask} {rest : List HemTask}
    (htasks : (chan d t).tasks = k :: rest) (hok : taskOk d t at_ k = true) :
    columnCommand m d t at_ = (m, doTask (onChan d t fun c => { c with tasks := rest }) t at_ k) := by
  rw [columnCommand, htasks]
  dsimp only
  rw [if_pos hok]

theorem doTask_zq (d : Dev) (t at_ : Nat) : doTask d t at_ .zq =
    onChan d t fun c => { record c t ⟨7, false, 0, 0, 0, at_, false, 0, false⟩ with quietTo := at_ + 512 } := rfl

/-- A stack's calibration takes its channel for 512 FCLK. -/
theorem chan_doTask_zq (d : Dev) (t at_ : Nat) (rest : List HemTask) :
    (chan (doTask (onChan d t fun c => { c with tasks := rest }) t at_ .zq) t).tasks = rest ∧
    (chan (doTask (onChan d t fun c => { c with tasks := rest }) t at_ .zq) t).quietTo = at_ + 512 ∧
    (chan (doTask (onChan d t fun c => { c with tasks := rest }) t at_ .zq) t).banks = (chan d t).banks ∧
    (doTask (onChan d t fun c => { c with tasks := rest }) t at_ .zq).regs = d.regs := by
  rw [doTask_zq, chan_onChan, chan_onChan]
  exact ⟨rfl, rfl, rfl, rfl⟩

end Sys2Proof.Machine
end

section
open Sys2Proof Sys2Proof.Machine Sys2Proof.Claims

/-- Settles O40: a command of a hem is one change of it, a task's end another, and what runs beside them (trainings, refreshes, the
start of a region's change) keeps every service and register. -/
theorem hemTasksStartAndEnd : Obligations.HemTasksStartAndEnd := by
  unfold Obligations.HemTasksStartAndEnd
  refine ⟨fun t s hs => ⟨fun hout hidle hrate hck => ⟨?_, ?_, ?_⟩, ends_loopStop hs, fun c hc => ?_⟩, fun t r s huse hck hstep => ?_,
    fun t r k s huse hck hstep => ?_, fun t errs pin at_ s hloop hck => ?_, fun t s hon htrained => ?_,
    fun t at_ rest s htasks hok => ?_, fun t v pin s hon htrained hout hidle hpin => ?_⟩
  · exact ends_hemStart hs (c := .retrain t) rfl (by decide) hout hidle hrate hck
  · exact ends_hemStart hs (c := .loopNearEnd t) rfl (by decide) hout hidle hrate hck
  · exact ends_hemStart hs (c := .loopFarEnd t) rfl (by decide) hout hidle hrate hck
  · obtain ⟨v, hexec, hv⟩ := exec_hemStart hc s
    exact ⟨fun hout => ends_hemStart_rejected hs hexec hv (hemCmd_not_out (d := atPort s.dev) hv hout),
      fun hout huse => ends_hemStart_rejected hs hexec hv (hemCmd_busy (d := atPort s.dev) hv hout huse),
      fun hout hidle hrate hck => ends_hemStart_no_clock hs hexec hv (hemCmd_no_clock (d := atPort s.dev) hv hout hidle hrate hck)⟩
  · exact endsDev_of_onDev (f := (retrainDone · t.val r)) rfl (retrainDone_none huse hck hstep)
  · exact endsDev_of_onDev (f := (retrainDone · t.val r)) rfl (retrainDone_some huse hck hstep)
  · refine endsDev_of_onDev (f := (loopbackBurstEnd · t.val errs pin.val at_)) rfl ?_
    have hburst : inBurst s.dev t.val = true := by
      rw [inBurst, Bool.or_eq_true, decide_eq_true_eq, decide_eq_true_eq]
      exact hloop
    obtain ⟨hcount, hhem⟩ := loopbackBurstEnd_hem (errs := errs) (pin := pin.val) (at_ := at_) hburst hck
    have hpin (o : Option (BitVec 9)) : (if errs = 0 || !lbPinFits t.val pin.val then (svc s.dev t.val).hem.lbPin else o) =
        if errs = 0 ∨ lbPinFits t.val pin.val = false then (svc s.dev t.val).hem.lbPin else o :=
      if_congr (by simp) rfl rfl
    refine ⟨hcount, ?_⟩
    rw [hhem, ← hpin]
    cases (svc s.dev t.val).hem.stop with
    | true => exact ⟨rfl, rfl, fun _ => rfl⟩
    | false => exact ⟨rfl, rfl, fun h => absurd h Bool.false_ne_true⟩
  · refine endsDev_of_onDev (f := (zqCalibration · t.val)) rfl ?_
    rw [zqCalibration_adds hon htrained, addTasks, chan_onChan]
    exact ⟨rfl, fun k hk => chan_onChan_ne _ _ _ _ hk, rfl⟩
  · refine ⟨_, by rw [exec_columnCommandIssue, columnCommand_task _ htasks hok], ?_⟩
    exact chan_doTask_zq ..
  · refine endsDev_of_onDev (f := (readTracking · t.val v pin)) rfl ?_
    obtain ⟨hdrift, htasks, hpast⟩ := readTracking_tile (v := v) hon htrained hout hidle hpin
    rw [hdrift]
    exact ⟨(toNat_steppedDrift ..).2, htasks, hpast⟩

end

section
/-!
O52 fails: step E3 is promised to end once every channel is empty. A TCLK counts before it looks. A rebuild that names a panel beyond the
map of the tiles is looked for in whatever register stands at its place, here a count of time powered down; once that has advanced, the
rebuild is found at a tile that it did not wait at before, and the tile's channel is not empty any more.
-/
namespace Sys2Proof.Machine
open Sys2Proof.Claims

/-- A rebuild under way; 32 of them take all slots of a panel. -/
def runningRebuild : Job := { mkJob ⟨0, 0, 0, 0, 0⟩ (.rebuild 0 .nobody false .fill) 0 [] with open_ := [0] }

/-- A rebuild that waits for a slot, of member 8 of a panel 16112; the map has its place in the register 0x100020. -/
def strayRebuild : Job := mkJob ⟨16112, 0, 0, 0, 0⟩ (.rebuild 8 (.job 0 0) false .fill) 0 []

/-- Step E3, with tile 0 at the place of the rebuild and its time powered down about to be counted. -/
def strayEntry : State :=
  { State.reset with dev := { Reset.dev with
      pins := { Reset.dev.pins with rstAsserted := false, pllCore := true }
      boot := { Reset.dev.boot with warmState := 2 }
      regs := [(0x4400, 257800), (0x100020, 257800)]
      energy := { Reset.dev.energy with pdRest := [(0, 16)] }
      jobs := [(0, runningRebuild), (1, strayRebuild)]
      panels := [(16, { Reset.panel with jobs := 1 :: List.replicate 32 0 })] } }

theorem strayEntry_turn : entryTurn strayEntry 2 := by decide +kernel

theorem strayEntry_empty : allEmpty strayEntry.dev := by
  have h : ((List.range 320).all fun t => channelEmpty strayEntry.dev t) = true := by decide +kernel
  exact fun t ht => List.all_eq_true.mp h t (List.mem_range.mpr ht)

theorem strayEntry_waits : (tick strayEntry).dev.boot.warmState = 2 := by decide +kernel

end Sys2Proof.Machine

section
open Sys2Proof Sys2Proof.Machine Sys2Proof.Claims

/-- Refutes O52: every channel is empty as the TCLK begins, and E3 stays. -/
theorem not_warmEntriesReachSelfRefresh : ¬ Obligations.WarmEntriesReachSelfRefresh := by
  rintro ⟨-, -, hclean, -⟩
  obtain ⟨-, hempty⟩ := hclean strayEntry strayEntry_turn
  obtain ⟨u, hstep, hstate, -⟩ := hempty strayEntry_empty
  have hu : tick strayEntry = u := Host.Outcome.next.inj hstep
  rw [← hu, strayEntry_waits] at hstate
  exact absurd hstate (by decide)

end
end

section
/-!
What the accesses, polls and records of a start leave alone (R343, R353, R428, R496, R497).
-/
namespace Sys2Proof.Machine
open Sys2Proof.Claims

/-! ## The frames -/

/-- `e` has the boot state, pins, link and maps of `d`. -/
structure Core (d e : Dev) : Prop where
  boot : e.boot = d.boot
  pins : e.pins = d.pins
  link : e.link = d.link
  blank : e.blank = d.blank
  mend : e.mend = d.mend

/-- And the near layers too. -/
structure Quiet (d e : Dev) : Prop extends Core d e where
  layer : e.layer = d.layer
  layers : e.layers = d.layers

namespace Core
variable {d e f : Dev}

theorem refl (d : Dev) : Core d d := ⟨rfl, rfl, rfl, rfl, rfl⟩

theorem trans (h : Core d e) (h' : Core e f) : Core d f :=
  ⟨h'.boot.trans h.boot, h'.pins.trans h.pins, h'.link.trans h.link, h'.blank.trans h.blank, h'.mend.trans h.mend⟩

theorem of_ite {c : Prop} [Decidable c] (he : Core d e) (hf : Core d f) : Core d (if c then e else f) := by
  split
  · exact he
  · exact hf

theorem foldl {α : Type} {g : Dev → α → Dev} (hg : ∀ d a, Core d (g d a)) (l : List α) (d : Dev) : Core d (l.foldl g d) := by
  induction l generalizing d with
  | nil => exact .refl d
  | cons a l ih => exact (hg d a).trans (ih _)

end Core

theorem Channels.core {d e : Dev} (h : Channels d e) : Core d e := ⟨h.boot, h.pins, h.link, h.blank, h.mend⟩

namespace Quiet
variable {d e f : Dev}

theorem refl (d : Dev) : Quiet d d := ⟨.refl d, rfl, rfl⟩

theorem trans (h : Quiet d e) (h' : Quiet e f) : Quiet d f :=
  ⟨h.toCore.trans h'.toCore, h'.layer.trans h.layer, h'.layers.trans h.layers⟩

theorem of_ite {c : Prop} [Decidable c] (he : Quiet d e) (hf : Quiet d f) : Quiet d (if c then e else f) := by
  split
  · exact he
  · exact hf

theorem foldl {α : Type} {g : Dev → α → Dev} (hg : ∀ d a, Quiet d (g d a)) (l : List α) (d : Dev) : Quiet d (l.foldl g d) := by
  induction l generalizing d with
  | nil => exact .refl d
  | cons a l ih => exact (hg d a).trans (ih _)

theorem iter {n : Nat} {g : Nat → Dev → Dev} (hg : ∀ i d, Quiet d (g i d)) (d : Dev) : Quiet d (Machine.iter n g d) :=
  foldl (fun d i => hg i d) _ d

/-- A fold over a memory and a device. -/
theorem foldl_snd {α : Type} {g : SMap DLine × Dev → α → SMap DLine × Dev} (hg : ∀ s a, Quiet s.2 (g s a).2) (l : List α)
    (s : SMap DLine × Dev) : Quiet s.2 (l.foldl g s).2 := by
  induction l generalizing s with
  | nil => exact .refl s.2
  | cons a l ih => exact (hg s a).trans (ih _)

end Quiet

/-! ## The parts of the instance -/

section Parts
variable (d : Dev)

theorem quiet_onChan (t : Nat) (f : Chan → Chan) : Quiet d (onChan d t f) := ⟨⟨rfl, rfl, rfl, rfl, rfl⟩, rfl, rfl⟩
theorem quiet_onSvc (t : Nat) (f : Svc → Svc) : Quiet d (onSvc d t f) := ⟨⟨rfl, rfl, rfl, rfl, rfl⟩, rfl, rfl⟩
theorem quiet_setMaster (m : Nat) (x : Master) : Quiet d (setMaster d m x) := ⟨⟨rfl, rfl, rfl, rfl, rfl⟩, rfl, rfl⟩
theorem quiet_eCount (owner cls n : Nat) : Quiet d (eCount d owner cls n) := ⟨⟨rfl, rfl, rfl, rfl, rfl⟩, rfl, rfl⟩
theorem quiet_rset (off : Nat) (v : Word) : Quiet d (rset d off v) := ⟨⟨rfl, rfl, rfl, rfl, rfl⟩, rfl, rfl⟩
theorem quiet_rcount (off hi lo n : Nat) : Quiet d (rcount d off hi lo n) := quiet_rset ..
theorem quiet_rinc (off n : Nat) : Quiet d (rinc d off n) := quiet_rset ..
theorem quiet_rmax (off n : Nat) : Quiet d (rmax d off n) := .of_ite (quiet_rset ..) (.refl d)

theorem quiet_raiseN (e k : Nat) (m b : Option Nat) : Quiet d (raiseN d e k m b) :=
  ⟨⟨raiseN_boot .., raiseN_pins .., raiseN_link .., raiseN_blank .., raiseN_mend ..⟩, raiseN_layer .., raiseN_layers ..⟩

theorem quiet_raise (e : Nat) (m b : Option Nat) : Quiet d (raise d e m b) := quiet_raiseN ..

theorem quiet_lint (kind : Nat) (w : LintAt) (x y : Nat) : Quiet d (lint d kind w x y) :=
  ⟨⟨lint_boot .., lint_pins .., lint_link .., lint_blank .., lint_mend ..⟩, lint_layer .., lint_layers ..⟩

theorem quiet_freeLine : Quiet d (freeLine d).2 := ⟨⟨rfl, rfl, rfl, rfl, rfl⟩, rfl, rfl⟩

end Parts

/-! ## Accesses of M21 and M22 in a start -/

section Accesses
variable (d : Dev)

theorem quiet_add64 (lo n : Nat) : Quiet d (add64 d lo n) := (quiet_rset ..).trans (quiet_rset ..)

theorem quiet_chargeAdmit (m units : Nat) (bolt : Option Nat) : Quiet d (chargeAdmit d m units bolt) := by
  unfold chargeAdmit
  have hcharged (d1 : Dev) (n : Nat) : Quiet d1 (raiseN (raise d1 Ev.ADMIT (some m) bolt) Ev.CHARGE n (some m)) :=
    (quiet_raise ..).trans (quiet_raiseN ..)
  have hdemoted (d1 : Dev) : Quiet d1 (if isOver d m then raise d1 Ev.DEMOTED (some m) else d1) := .of_ite (quiet_raise ..) (.refl d1)
  exact .of_ite (((quiet_setMaster ..).trans ((quiet_eCount ..).trans (quiet_eCount ..))).trans ((hcharged _ _).trans (hdemoted _)))
    ((((quiet_setMaster ..).trans ((quiet_eCount ..).trans (quiet_eCount ..))).trans ((hcharged _ _).trans (hdemoted _))).trans (quiet_add64 ..))

theorem quiet_histOne (m l h : Nat) : Quiet d (histOne m l d h) := by
  unfold histOne
  refine .of_ite ?_ (.refl d)
  have htally (t : Tally) : Quiet d { d with tally := t } := ⟨⟨rfl, rfl, rfl, rfl, rfl⟩, rfl, rfl⟩
  exact .of_ite ((htally _).trans ((quiet_rinc ..).trans (quiet_rmax ..))) ((htally _).trans (quiet_rinc ..))

theorem quiet_creditReturn (m : Nat) : Quiet d (creditReturn d m) := by
  unfold creditReturn
  split
  · exact .refl d
  · exact .of_ite ((quiet_setMaster ..).trans (.foldl (fun d h => quiet_histOne d ..) _ _)) (quiet_setMaster ..)

theorem quiet_unitRun (m units n : Nat) (bolt : Option Nat) : Quiet d (unitRun m units n bolt d) :=
  .iter (fun _ _ => (((quiet_setMaster ..).trans (quiet_chargeAdmit ..)).trans (quiet_setMaster ..)).trans (quiet_creditReturn ..)) d

theorem quiet_startPass (m cls : Nat) (bolt : Option Nat) (t : Nat) : Quiet d (startPass m cls bolt t d) :=
  ((quiet_unitRun ..).trans (quiet_eCount ..)).trans (quiet_eCount ..)

theorem quiet_doAct (t bank row at_ : Nat) : Quiet d (doAct d t bank row at_) :=
  ((quiet_onChan ..).trans (quiet_eCount ..)).trans (quiet_raise ..)

theorem quiet_openRow (tm : Timing) (l : Loc) : Quiet d (openRow tm d l) := by
  unfold openRow
  extract_lets t row d1
  have hready : Quiet d d1 := quiet_onChan ..
  refine hready.trans ?_
  split
  · exact .of_ite (.refl _) ((quiet_onChan ..).trans (quiet_doAct ..))
  · exact quiet_doAct ..

theorem quiet_addRead (k : EKind) (l : Loc) (owner : Owner) (prio : Nat) (by_ : Option (Nat × BitVec 64)) :
    Quiet d (addRead d k l owner prio by_) := by
  unfold addRead rawWait
  exact (quiet_onChan ..).trans (.of_ite ((quiet_rinc ..).trans (quiet_raise ..)) (.refl _))

theorem quiet_issueRd (m : SMap DLine) (t at_ : Nat) (f : Fly) : Quiet d (issueRd m d t at_ f) :=
  (((quiet_onChan ..).trans (quiet_onChan ..)).trans (quiet_eCount ..)).trans (quiet_raise ..)

theorem quiet_startRead (m : SMap DLine) (master : Nat) (slow : Bool) (l : Loc) : Quiet d (startRead m master slow d l) := by
  unfold startRead
  extract_lets t tm d1
  have hopen : Quiet d d1 := (quiet_addRead ..).trans (quiet_openRow ..)
  refine hopen.trans ?_
  split
  · exact .refl _
  next e _ =>
    extract_lets d2
    have hread : Quiet d1 d2 := (quiet_onChan ..).trans (quiet_issueRd ..)
    refine hread.trans ?_
    split
    next x d3 hline =>
      have hfree : Quiet d2 d3 := by
        split at hline
        · rw [← (Prod.mk.inj hline).2]
          exact .refl d2
        · have hd3 : (freeLine d2).2 = d3 := congrArg Prod.snd hline
          exact hd3 ▸ quiet_freeLine d2
      exact (hfree.trans (quiet_onChan ..)).trans (quiet_onChan ..)

theorem quiet_writeCmd (m : SMap DLine) (t at_ : Nat) (e : HEntry) : Quiet d (writeCmd m d t at_ e).2 := by
  unfold writeCmd
  extract_lets k key new waits m1 d1 auto d2 d3
  have hcross : Quiet d2 d3 := by
    cases hnew : new with
    | some x => exact (show d3 = crossLine d2 t k at_ true x by unfold d3; rw [hnew]) ▸ quiet_onChan ..
    | none => exact (show d3 = d2 by unfold d3; rw [hnew]) ▸ .refl _
  exact (((quiet_onChan ..).trans (quiet_onChan ..)).trans hcross).trans (((quiet_onChan ..).trans (quiet_eCount ..)).trans (quiet_raise ..))

theorem quiet_startWrite (slow : Bool) (bolt : Nat) (s : SMap DLine × Dev) (e : Loc × DLine) : Quiet s.2 (startWrite slow bolt s e).2 :=
  ((quiet_onChan ..).trans (quiet_openRow ..)).trans (quiet_writeCmd ..)

theorem quiet_eccCount (l : Loc) (e0 e1 : Ecc) : Quiet d (eccCount d l e0 e1) := by
  unfold eccCount
  refine .of_ite (.refl d) ?_
  extract_lets off d1
  have hcorr : Quiet d d1 := .of_ite ((quiet_rcount ..).trans (quiet_raise ..)) (.refl d)
  exact .of_ite (hcorr.trans (((quiet_rcount ..).trans (quiet_raise ..)).trans (quiet_lint ..))) hcorr

theorem quiet_recordFail (l : Loc) (ekind ecc : Nat) : Quiet d (recordFail d l ekind ecc) := by
  unfold recordFail
  exact (((quiet_rinc ..).trans (quiet_raise ..)).trans (quiet_lint ..)).trans (quiet_onSvc ..)

theorem quiet_ledgerCheck (fs : List LedgerFlaw) (m : SMap DLine) (l : Loc) : Quiet d (ledgerCheck fs m d l) := by
  unfold ledgerCheck
  extract_lets f d1
  have hecc : Quiet d d1 := quiet_eccCount ..
  split
  · exact hecc
  · exact hecc.trans (quiet_rinc ..)
  · exact hecc.trans (quiet_recordFail ..)

theorem quiet_countSection (slow : Bool) (fs : List LedgerFlaw) (m : SMap DLine) (t o n : Nat) :
    Quiet d (countSection slow fs m t d o n) := by
  unfold countSection
  extract_lets line copy d1
  have hcopy (b : Bool) (d : Dev) : Quiet d (copy b d) :=
    .foldl (fun d i => ((quiet_startPass ..).trans (quiet_startRead ..)).trans (quiet_ledgerCheck ..)) _ d
  exact .of_ite (hcopy _ _) ((hcopy _ _).trans (hcopy _ _))

theorem quiet_countReads (fs : List LedgerFlaw) (m : SMap DLine) (t : Nat) : Quiet d (countReads fs m d t) :=
  ((quiet_countSection ..).trans (quiet_countSection ..)).trans (quiet_countSection ..)

theorem quiet_logSection (t sec : Nat) (x : Option (Nat × Bool)) : Quiet d (logSection t sec d x) := by
  unfold logSection
  split
  · exact (quiet_raise ..).trans (quiet_lint ..)
  · exact .refl d
  · exact (quiet_raise ..).trans (quiet_lint ..)

theorem quiet_ledgerWrite (t o n v : Nat) (s : SMap DLine × Dev) : Quiet s.2 (ledgerWrite t o n v s).2 := by
  have hline (i : Nat) (s : SMap DLine × Dev) (b : Bool) : Quiet s.2 (ledgerLineOut t o v i s b).2 := by
    unfold ledgerLineOut
    exact (quiet_startPass ..).trans (quiet_startWrite _ _ (s.1, startPass 21 8 none t s.2) _)
  exact .foldl_snd (fun _ _ => .foldl_snd (hline _) _ _) _ s

end Accesses

/-! ## Service states at a start -/

section Service
variable (d : Dev)

theorem quiet_withDouble (p : Nat) {f : Dev → Dev} (hf : ∀ d, Quiet d (f d)) : Quiet d (withDouble p f d) :=
  .of_ite ((hf d).trans (quiet_raise ..)) (hf d)

theorem quiet_enterOut (t : Nat) (r : Reason) : Quiet d (enterOut d t r) :=
  ((quiet_withDouble d _ fun _ => (quiet_onSvc ..).trans (quiet_onChan ..)).trans (quiet_raise ..)).trans (quiet_lint ..)

theorem quiet_startOut (t : Nat) (w : Bool) : Quiet d (startOut d t w) := by
  unfold startOut
  exact Quiet.trans (.of_ite (.refl d) (quiet_enterOut ..)) (quiet_onSvc ..)

theorem quiet_restoreTile (orderly : Bool) (r : Restored) : Quiet d (restoreTile orderly d r) := by
  have htrain : Quiet d (restoreTrain d r) := by
    unfold restoreTrain
    split
    · exact quiet_onSvc ..
    · exact .refl d
  have hpatch := htrain.trans (quiet_onSvc _ r.tile fun s => restorePatch (isFar r.tile) s r.patch)
  exact .of_ite (hpatch.trans (quiet_startOut ..)) hpatch

theorem quiet_advise (t : Nat) : Quiet d (advise d t) := by
  unfold advise
  exact Quiet.trans (.of_ite (quiet_raise ..) (.refl d)) (quiet_onSvc ..)

theorem quiet_wakeTile (t : Nat) : Quiet d (wakeTile d t) := quiet_onChan ..

theorem quiet_farUp : Quiet d (farUp d) := .foldl (fun _ _ => quiet_onChan ..) _ d

end Service

/-! ## Polls and the self-test -/

section Tests
variable (d : Dev)

theorem quiet_addTasks (t : Nat) (ks : List HemTask) : Quiet d (addTasks d t ks) := quiet_onChan ..

theorem core_pollNear (r : Readings) (a : Dev × Option (BitVec 8)) (t : Nat) : Core a.1 (pollNear r a t).1 := by
  unfold pollNear
  split
  · exact .refl _
  · extract_lets v d0 l0 l1 off d1
    have hread : Core a.1 d0 := ((channels_onLayer ..).trans (channels_onLayer ..)).core
    exact (hread.trans (quiet_rset d0 off _).toCore).trans (quiet_addTasks d1 t _).toCore

theorem core_pollNears (r : Readings) (l : List Nat) (a : Dev × Option (BitVec 8)) : Core a.1 (l.foldl (pollNear r) a).1 := by
  induction l generalizing a with
  | nil => exact .refl _
  | cons t l ih => exact (core_pollNear r a t).trans (ih _)

theorem core_pollRegion (r : Readings) (g : Nat) : Core d (pollRegion r d g).1 := by
  unfold pollRegion
  generalize List.range 256 = near
  split
  · exact core_pollNears r near (d, none)
  · split
    next t _ =>
      extract_lets v off
      exact ((quiet_rset d off _).trans (quiet_addTasks _ t _)).toCore
    next => exact .refl d

theorem core_raiseIf (b : Bool) (e : Nat) : Core d (raiseIf b d e) := .of_ite (quiet_raise ..).toCore (.refl d)

theorem core_repayAbove : Core d (repayAbove d) :=
  .foldl (fun d _ => .foldl (fun d _ => .of_ite (quiet_onChan ..).toCore (.refl d)) _ d) _ d

theorem core_pollOne (r : Readings) (g : Nat) : Core d (pollOne r d g) := by
  unfold pollOne
  have hpoll := core_pollRegion d r g
  generalize pollRegion r d g = a at hpoll ⊢
  obtain ⟨d1, v, alive⟩ := a
  dsimp -zeta only at hpoll ⊢
  extract_lets h n d2 d3 d4 d5 d6
  have hheat : Core d d2 := hpoll.trans ⟨rfl, rfl, rfl, rfl, rfl⟩
  have hraised : Core d2 d6 := (((core_raiseIf ..).trans (core_raiseIf ..)).trans (core_raiseIf ..)).trans (core_raiseIf ..)
  exact (hheat.trans hraised).trans (.of_ite (core_repayAbove d6) (.refl d6))

theorem core_firstPoll (o : StartOutcome) : Core d (firstPoll d o) :=
  Core.trans (e := pollNow d) ⟨rfl, rfl, rfl, rfl, rfl⟩ (.foldl (fun d _ => core_pollOne d ..) _ _)

theorem quiet_testWrite (st : Stripe) : Quiet d (testWrite d st).2 := by
  unfold testWrite
  extract_lets bolt grant put
  have hgrant (d : Dev) (m : Nat) : Quiet d (grant d m) := (quiet_eCount ..).trans (quiet_eCount ..)
  have hput (s : SMap DLine × Dev) (l : Loc) : Quiet s.2 (put s l).2 :=
    (quiet_freeLine s.2).trans (quiet_startWrite false bolt (s.1, (freeLine s.2).2) (l, (freeLine s.2).1))
  generalize List.range 16 = members
  have hgrants : Quiet d (members.foldl grant (unitRun 22 64 1 (some bolt) d)) := (quiet_unitRun ..).trans (.foldl hgrant members _)
  exact hgrants.trans (.foldl_snd hput (boltLines d st members) ([], members.foldl grant (unitRun 22 64 1 (some bolt) d)))

theorem quiet_testPath (p : Nat) : Quiet d (testPath d p) := by
  unfold testPath
  extract_lets st bolt w back rebuild member
  have hback (d : Dev) (l : Loc) : Quiet d (back d l) := (quiet_startPass ..).trans (quiet_startRead ..)
  have hrebuild (d : Dev) (l : Loc) : Quiet d (rebuild d l) := ((quiet_unitRun ..).trans (quiet_eCount ..)).trans (quiet_startRead ..)
  exact ((quiet_testWrite ..).trans (.foldl hback _ _)).trans (.foldl (fun _ _ => .foldl hrebuild _ _) _ _)

theorem quiet_logFail (f : TestFail) : Quiet d (logFail d f) := (quiet_raise ..).trans (quiet_lint ..)

end Tests

end Sys2Proof.Machine
end

section
/-!
Cold and warm starts in which nothing fails, and a cold start that finds the Blank map broken (R354, R498, R506, R507).
-/
namespace Sys2Proof.Machine
open Sys2Proof.Claims

/-! ## What every step of a start keeps -/

/-- `e` is isolated, ready and fatally failed as `d` is, and its training is no less done. -/
structure Starting (d e : Dev) : Prop where
  isolated : e.link.isolated = d.link.isolated
  ready : e.pins.ready = d.pins.ready
  fatal : e.boot.stFatal = d.boot.stFatal
  trained : d.boot.trainDone = true → e.boot.trainDone = true

theorem Starting.trans {d e f : Dev} (h : Starting d e) (h' : Starting e f) : Starting d f :=
  ⟨h'.isolated.trans h.isolated, h'.ready.trans h.ready, h'.fatal.trans h.fatal, fun ht => h'.trained (h.trained ht)⟩

theorem Core.starting {d e : Dev} (h : Core d e) : Starting d e :=
  ⟨by rw [h.link], by rw [h.pins], by rw [h.boot], fun ht => by rw [h.boot]; exact ht⟩

/-! ## Training at a start -/

section Training
variable {d : Dev} {o : StartOutcome}

/-- A write that leaves a layer as it is leaves every layer as it is. -/
theorem layerOf_onLayer_fixed {d : Dev} {t k : Nat} {f : Layer → Layer} (hf : f (layerOf d t k) = layerOf d t k) (u j : Nat) :
    layerOf (onLayer d t k f) u j = layerOf d u j := by
  rw [layerOf, onLayer, hf]
  by_cases h : 2 * u + j = 2 * t + k
  · rw [h, mgetD_mputD, layerOf, layerOf, h]
  · exact mgetD_mputD_ne _ _ _ _ _ h

/-- The identities that the layers answer with, where the outcome lists no trial of the hem. -/
theorem trialOf_unlisted (ho : o.train = []) (d : Dev) (t : Nat) : trialOf d o t =
    ⟨((layerOf d t 0).mr0, (layerOf d t 0).mr1), ((layerOf d t 1).mr0, (layerOf d t 1).mr1), o.margin, o.margin, o.margin, 0, true, true, none⟩ := by
  rw [trialOf, ho]
  rfl

/-- A layer answers with an identity. -/
def putIds (i : BitVec 16 × BitVec 16) (x : Layer) : Layer := { x with mr0 := i.1, mr1 := i.2 }

theorem trialIds_eq (d : Dev) (t : Nat) (r : Trial) :
    trialIds d t r = if isFar t then d else onLayer (onLayer d t 0 (putIds r.id0)) t 1 (putIds r.id1) := rfl

theorem putIds_self (x : Layer) : putIds (x.mr0, x.mr1) x = x := rfl

theorem layerOf_trialIds (ho : o.train = []) (d : Dev) (t u j : Nat) : layerOf (trialIds d t (trialOf d o t)) u j = layerOf d u j := by
  rw [trialOf_unlisted ho, trialIds_eq]
  split
  · rfl
  · have hzero (u j : Nat) : layerOf (onLayer d t 0 (putIds ((layerOf d t 0).mr0, (layerOf d t 0).mr1))) u j = layerOf d u j :=
      layerOf_onLayer_fixed (putIds_self _) u j
    refine (layerOf_onLayer_fixed ?_ u j).trans (hzero u j)
    rw [hzero, putIds_self]

theorem layerOf_trialIds_foldl (ho : o.train = []) (hems : List Nat) (d : Dev) (u j : Nat) :
    layerOf (hems.foldl (fun d t => trialIds d t (trialOf d o t)) d) u j = layerOf d u j := by
  induction hems generalizing d with
  | nil => rfl
  | cons t hems ih => exact (ih _).trans (layerOf_trialIds ho d t u j)

/-- A hem passes its training. -/
theorem failStep_passes (h : trains d o) (t : Nat) : failStep d t (trialOf d o t) = none := by
  obtain ⟨ho, hmargin, hids⟩ := h
  rw [trialOf_unlisted ho, failStep]
  by_cases hfar : isFar t = true
  · rw [if_pos hfar]
    rfl
  · have hnear : t < 256 := by
      have : ¬256 ≤ t := by simpa [isFar] using hfar
      omega
    rw [if_neg hfar, hids t 0 hnear (by decide), hids t 1 hnear (by decide)]
    simp [Nat.not_lt.mpr hmargin]

theorem trains_congr {e : Dev} (he : ∀ u j, layerOf e u j = layerOf d u j) (h : trains d o) : trains e o := by
  obtain ⟨ho, hmargin, hids⟩ := h
  exact ⟨ho, hmargin, fun t k ht hk => by rw [he]; exact hids t k ht hk⟩

theorem Quiet.layerOf_eq {e : Dev} (h : Quiet d e) (t k : Nat) : layerOf e t k = layerOf d t k := by
  rw [layerOf, layerOf, h.layer, h.layers]

theorem trainAll_passes (h : trains d o) (hems : List Nat) : failedHems (trainAll d o hems).2 = [] := by
  rw [failedHems, List.filter_eq_nil_iff]
  intro x hx
  obtain ⟨t, -, rfl⟩ := List.mem_map.mp hx
  have hd1 : trains (hems.foldl (fun d t => trialIds d t (trialOf d o t)) d) o := trains_congr (layerOf_trialIds_foldl h.1 hems d) h
  rw [trained]
  dsimp only
  rw [failStep_passes hd1]
  exact Bool.false_ne_true

theorem core_trainAll (d : Dev) (o : StartOutcome) (hems : List Nat) : Core d (trainAll d o hems).1 :=
  ((Core.foldl (fun d t => (channels_trialIds d t _).core) hems d).trans (.foldl (fun d t => (channels_trainHem d t _).core) hems _)).trans
    (.foldl (fun d t => (channels_sendScript d t _).core) _ _)

theorem quiet_onHem (d : Dev) (t : Nat) (f : Hem → Hem) : Quiet d (onHem d t f) := quiet_onSvc ..

theorem core_newValues (d : Dev) (t : Nat) : Core d (newValues d t) := by
  unfold newValues
  exact Core.trans (e := { d with free := d.free + 1 }) ⟨rfl, rfl, rfl, rfl, rfl⟩ (quiet_onSvc ..).toCore

theorem trainDone_done (d : Dev) (ts : List Trained) (restored : Bool) :
    Starting d (trainDone d ts restored) ∧ (trainDone d ts restored).boot.trainDone = true := by
  unfold trainDone
  extract_lets d1 log d2 measured
  have hvalue (d : Dev) (x : Trained) : Core d (newValues (onHem d x.tile fun h => { h with margin := x.margin }) x.tile) :=
    (quiet_onHem d x.tile _).toCore.trans (core_newValues _ x.tile)
  have hlog (d : Dev) (x : Trained) : Core d (log d x) := by
    unfold log
    split
    · exact (quiet_lint ..).toCore
    · exact .refl d
  have hvalues : Core d d1 := .foldl hvalue ts d
  have hlogs : Core d1 d2 := .foldl hlog ts d1
  obtain ⟨hisolated, hready, hfatal, -⟩ := (hvalues.trans hlogs).starting
  exact ⟨⟨hisolated, hready, hfatal, fun _ => rfl⟩, rfl⟩

end Training

/-! ## The self-test -/

section Test
variable (d : Dev) {o : StartOutcome}

/-- The device after PATH and with every tile's result cleared, as the units' failures are recorded. -/
def testedDev (d : Dev) (warm : Bool) : Dev :=
  (List.range 320).foldl (fun d t => onSvc d t fun s => { s with stResult := 0x80000000 })
    (if warm then d else (List.range 20).foldl testPath d)

theorem quiet_testedDev (warm : Bool) : Quiet d (testedDev d warm) :=
  Quiet.trans (.of_ite (.refl d) (.foldl (fun d p => quiet_testPath d p) _ d)) (.foldl (fun _ _ => quiet_onSvc ..) _ _)

/-- The boot state that says which self-test has run. -/
def testRan (warm : Bool) (b : Boot) : Boot := { b with stRun := if warm then 2 else 1 }

/-- The self-test where no hem has failed, from the failures of its list that fit. -/
theorem selfTest_eq (warm : Bool) {fs : List TestFail} (hmine : o.test.filter (testFits warm) = fs) :
    selfTest d o [] warm =
      let d2 := onBoot (failUnits (fs.foldl readbackFail (testedDev d warm)) fs) (testRan warm)
      if testHalts d2 (firstFails (byPhase fs)) then (halt d2, true) else (d2, false) := by
  unfold selfTest
  rw [hmine]
  rfl

/-- Where no unit fails, no record is written and no tile goes out. -/
theorem starting_failUnits_nil (warm : Bool) : Starting d (onBoot (failUnits d []) (testRan warm)) := ⟨rfl, rfl, rfl, id⟩

theorem testHalts_nil : testHalts d (firstFails (byPhase [])) = false := rfl

theorem selfTest_nil (htest : o.test = []) (warm : Bool) :
    selfTest d o [] warm = (onBoot (failUnits (testedDev d warm) []) (testRan warm), false) := by
  rw [selfTest_eq d warm (fs := []) (by rw [htest, List.filter_nil]), List.foldl_nil]
  generalize testedDev d warm = e
  exact if_neg (Bool.eq_false_iff.mp (testHalts_nil _))

theorem selfTest_passes (htest : o.test = []) (warm : Bool) :
    (selfTest d o [] warm).2 = false ∧ Starting d (selfTest d o [] warm).1 := by
  rw [selfTest_nil d htest]
  exact ⟨rfl, (quiet_testedDev d warm).toCore.starting.trans (starting_failUnits_nil _ warm)⟩

end Test

end Sys2Proof.Machine
end

section
/-!
Cold starts: one in which nothing fails enables the instance, one that finds the Blank map broken halts (R354, R498).
-/
namespace Sys2Proof.Machine
open Sys2Proof.Claims

/-! ## A broken Blank map (R353, R354) -/

section Broken
variable (d : Dev) {o : StartOutcome} {v : BitVec 9}

/-- The failure of the Blank map at a vector. -/
def blankFails (v : BitVec 9) : TestFail := ⟨.blank, 0, v⟩

theorem testFits_blankFails (hv : v.toNat < phaseVectors 0) : testFits false (blankFails v) = true := by
  show ((!false || decide ((0 : Nat) = 2)) && decide (v.toNat < phaseVectors 0) && decide ((0 : Nat) = 0)) = true
  rw [decide_eq_true hv]
  rfl

theorem readbackFail_blankFails : readbackFail d (blankFails v) = d := rfl

theorem firstFails_blankFails : firstFails (byPhase [blankFails v]) = [blankFails v] := rfl

theorem testHalts_blankFails : testHalts d [blankFails v] = true := rfl

/-- What a self-test shows whose only failing unit is the Blank map. -/
def blankShown (v : BitVec 9) (b : Boot) : Boot :=
  { b with stTiles := 0, stPanels := 0, stPress := false, stBlank := true, stFirst := firstWord (blankFails v) }

theorem failUnits_blankFails : failUnits d [blankFails v] = onBoot (logFail d (blankFails v)) (blankShown v) := rfl

theorem selfTest_blank (htest : o.test = [blankFails v]) (hv : v.toNat < phaseVectors 0) : selfTest d o [] false =
    (halt (onBoot (onBoot (logFail (testedDev d false) (blankFails v)) (blankShown v)) (testRan false)), true) := by
  rw [selfTest_eq d false (fs := [blankFails v])]
  · generalize testedDev d false = e
    rw [List.foldl_cons, List.foldl_nil, readbackFail_blankFails, firstFails_blankFails, failUnits_blankFails]
    exact if_pos (testHalts_blankFails _)
  · rw [htest, List.filter_cons_of_pos (testFits_blankFails hv), List.filter_nil]

theorem isPending_logFail (f : TestFail) : isPending (logFail d f) Ev.SELFTEST_FAIL :=
  (follows_lint ..).isPending (by decide) (isPending_raise _ none none (by decide))

/-- Start-up has halted over the Blank map, with `ready` as it was. -/
structure BlankHalt (ready : Bool) (d : Dev) : Prop where
  halted : d.boot.halted = true
  fatal : d.boot.stFatal = true
  blank : d.boot.stBlank = true
  step : d.boot.step = 15
  ready : d.pins.ready = ready
  pending : isPending d Ev.SELFTEST_FAIL

theorem blankHalt_halt {d : Dev} (hpending : isPending d Ev.SELFTEST_FAIL) :
    BlankHalt d.pins.ready (halt (onBoot (onBoot d (blankShown v)) (testRan false))) := ⟨rfl, rfl, rfl, rfl, rfl, hpending⟩

theorem selfTest_halts (htest : o.test = [blankFails v]) (hv : v.toNat < phaseVectors 0) :
    (selfTest d o [] false).2 = true ∧ BlankHalt d.pins.ready (selfTest d o [] false).1 := by
  have hready := ((quiet_testedDev d false).trans (quiet_logFail _ (blankFails v))).toCore.starting.ready
  rw [selfTest_blank d htest hv, ← hready]
  exact ⟨rfl, blankHalt_halt (isPending_logFail ..)⟩

end Broken

/-! ## The steps of a cold start -/

section Cold
variable {d : Dev} {o : StartOutcome}

/-- The device as training begins: the clocks run, and the stacks are up. -/
def coldClocks (d : Dev) : Dev := farUp (stackStart (slowClocks (clocksOn d) false))

/-- The device with every hem trained. -/
def coldTrained (d : Dev) (o : StartOutcome) : Dev :=
  trainDone (ratesBack (trainAll (coldClocks d) o (List.range 320)).1 d.pins) (trainAll (coldClocks d) o (List.range 320)).2 false

/-- The device after its self-test. -/
def coldTested (d : Dev) (o : StartOutcome) : Dev × Bool := selfTest (firstPoll (coldTrained d o) o) o [] false

/-- Every bolt is blank, and none marked. -/
def blankStart (d : Dev) : Dev := { d with blank := ⟨[], [], false, true, []⟩, mend := Reset.mend }

theorem coldClocks_starting (d : Dev) : Starting d (coldClocks d) := by
  have hclocks : Starting d (stackStart (slowClocks (clocksOn d) false)) := ⟨rfl, rfl, rfl, id⟩
  exact hclocks.trans (quiet_farUp _).toCore.starting

theorem layerOf_coldClocks (d : Dev) (u j : Nat) : layerOf (coldClocks d) u j = layerOf d u j :=
  (quiet_farUp (stackStart (slowClocks (clocksOn d) false))).layerOf_eq u j

theorem starting_ratesBack (d : Dev) (p : Pins) : Starting d (ratesBack d p) := ⟨rfl, rfl, rfl, id⟩

theorem coldTrained_starting (d : Dev) (o : StartOutcome) : Starting d (coldTrained d o) ∧ (coldTrained d o).boot.trainDone = true := by
  unfold coldTrained
  have htrained := (coldClocks_starting d).trans (core_trainAll (coldClocks d) o (List.range 320)).starting
  generalize trainAll (coldClocks d) o (List.range 320) = r at htrained ⊢
  obtain ⟨hdone, hshown⟩ := trainDone_done (ratesBack r.1 d.pins) r.2 false
  exact ⟨(htrained.trans (starting_ratesBack ..)).trans hdone, hshown⟩

theorem coldStart_runs (hmay : mayStart d false = true) (htrains : trains d o) (m : SMap DLine) : coldStart m d o =
    if (coldTested d o).2 then ([], (coldTested d o).1)
    else ((coldLedger ([], blankStart (coldTested d o).1)).1, enable (coldLedger ([], blankStart (coldTested d o).1)).2) := by
  have hpass := trainAll_passes (trains_congr (layerOf_coldClocks d) htrains) (List.range 320)
  rw [coldTested, coldTrained, coldStart, if_neg (by rw [hmay]; exact Bool.false_ne_true), ← coldClocks]
  generalize trainAll (coldClocks d) o (List.range 320) = r at hpass ⊢
  obtain ⟨d0, ts⟩ := r
  dsimp only at hpass ⊢
  rw [hpass, if_neg (by exact Bool.false_ne_true)]
  generalize selfTest (firstPoll (trainDone (ratesBack d0 d.pins) ts false) o) o [] false = q
  rfl

end Cold

/-! ## The end of a start -/

section Enable
variable {d : Dev}

/-- An instance that is not isolated is enabled (R471, R498). -/
theorem enable_raises (h : d.link.isolated = false) : enable d =
    raise (latchQuota (onPins (onBoot d fun b => { b with step := 9, done := true }) fun p => { p with ready := true })) Ev.STARTUP_DONE := by
  rw [enable, if_neg (by rw [h]; exact Bool.false_ne_true)]
  rfl

theorem enable_enables (h : d.link.isolated = false) :
    (enable d).pins.ready = true ∧ (enable d).boot = { d.boot with step := 9, done := true } ∧ isPending (enable d) Ev.STARTUP_DONE ∧
    (enable d).blank = d.blank ∧ (enable d).mend = d.mend := by
  rw [enable_raises h]
  refine ⟨?_, ?_, isPending_raise _ none none (by decide), raise_blank .., raise_mend ..⟩
  · rw [raise_pins]
    rfl
  · rw [raise_boot]
    rfl

theorem isValid_blank (h : d.blank = ⟨[], [], false, true, []⟩) (b : Nat) : isValid d b = false := by
  rw [isValid, h]
  rfl

end Enable

section Ledger

theorem quiet_putHeader (t epoch : Nat) (orderly out : Bool) (s : SMap DLine × Dev) : Quiet s.2 (putHeader t epoch orderly out s).2 :=
  quiet_ledgerWrite ..

theorem quiet_writeTrain (t : Nat) (s : SMap DLine × Dev) : Quiet s.2 (writeTrain t s).2 := quiet_ledgerWrite ..
theorem quiet_writePatch (t : Nat) (s : SMap DLine × Dev) : Quiet s.2 (writePatch t s).2 := quiet_ledgerWrite ..

theorem quiet_writeRest (t : Nat) (s : SMap DLine × Dev) : Quiet s.2 (writeRest t s).2 :=
  .foldl_snd (fun _ _ => quiet_ledgerWrite ..) _ s

theorem quiet_coldLedger (s : SMap DLine × Dev) : Quiet s.2 (coldLedger s).2 :=
  .foldl_snd (fun s t => ((quiet_writeRest t s).trans (quiet_writePatch ..)).trans ((quiet_writeTrain ..).trans (quiet_putHeader ..))) _ s

end Ledger

/-! ## Cold starts -/

section Outcome
variable {d : Dev} {o : StartOutcome} (hmay : mayStart d false = true) (htrains : trains d o) (m : SMap DLine)
include hmay htrains

theorem coldStart_halts {v : BitVec 9} (htest : o.test = [blankFails v]) (hv : v.toNat < phaseVectors 0) :
    BlankHalt d.pins.ready (coldStart m d o).2 := by
  obtain ⟨hstops, hhalt⟩ := selfTest_halts (firstPoll (coldTrained d o) o) htest hv
  rw [(core_firstPoll ..).starting.ready, (coldTrained_starting d o).1.ready, ← coldTested] at hhalt
  rw [← coldTested] at hstops
  rw [coldStart_runs hmay htrains, if_pos hstops]
  exact hhalt

theorem coldStart_enables (htest : o.test = []) (hisolated : d.link.isolated = false) :
    let u := (coldStart m d o).2
    u.pins.ready = true ∧ u.boot.step = 9 ∧ u.boot.done = true ∧ u.boot.trainDone = true ∧ isPending u Ev.STARTUP_DONE ∧
    (∀ b, isValid u b = false) ∧ u.mend = Reset.mend ∧ u.boot.stFatal = d.boot.stFatal := by
  obtain ⟨hstops, htested⟩ := selfTest_passes (firstPoll (coldTrained d o) o) htest false
  rw [← coldTested] at hstops htested
  obtain ⟨htrained, hdone⟩ := coldTrained_starting d o
  have hpolled := (core_firstPoll (coldTrained d o) o).starting.trans htested
  have hledger := (quiet_coldLedger ([], blankStart (coldTested d o).1)).toCore
  rw [coldStart_runs hmay htrains, if_neg (by rw [hstops]; exact Bool.false_ne_true)]
  dsimp only
  generalize coldLedger ([], blankStart (coldTested d o).1) = r at hledger ⊢
  obtain ⟨hready, hboot, hpending, hblank, hmend⟩ := enable_enables (d := r.2) (by rw [hledger.link]; exact (htrained.trans hpolled).isolated.trans hisolated)
  rw [hboot, hledger.boot, hmend, hledger.mend]
  exact ⟨hready, rfl, rfl, hpolled.trained hdone, hpending, isValid_blank (hblank.trans hledger.blank), rfl, (htrained.trans hpolled).fatal⟩

end Outcome

end Sys2Proof.Machine
end

section
/-!
Warm starts in which nothing fails (R505 to R507).
-/
namespace Sys2Proof.Machine
open Sys2Proof.Claims

/-! ## The steps of a warm start -/

section Warm
variable (m : SMap DLine) (d : Dev) (o : StartOutcome)

/-- What the channels' Ledgers give. -/
def restored : List Restored := (List.range 320).map (readLedger o.ledger m)
def restoredOrderly : Bool := isOrderly d ((restored m o).filterMap Restored.header)

/-- HEADER, TRAIN and PATCH of one channel are read, and what is wrong with them is recorded. -/
def warmRead (d : Dev) (r : Restored) : Dev :=
  logSection r.tile 2 (logSection r.tile 1 (logSection r.tile 0 (countReads o.ledger m d r.tile) r.header) r.train) r.patch

/-- The ranks are awake, and the stacks up. -/
def warmAwake : Dev := (List.range 320).foldl wakeTile (stackStart (slowClocks (clocksOn d) true))

/-- Every channel is restored. -/
def warmRestored : Dev := (restored m o).foldl (restoreTile (restoredOrderly m d o)) ((restored m o).foldl (warmRead m o) (warmAwake d))

def warmHems : List Nat := ((restored m o).filter fun r => r.train.isNone).map Restored.tile

/-- The hems without a TRAIN section are trained. -/
def warmTrained : Dev :=
  let r := trainAll (warmRestored m d o) o (warmHems m o)
  (List.range 320).foldl advise (trainDone (ratesBack r.1 d.pins) r.2 ((restored m o).all fun r => r.train.isSome))

def warmTested : Dev × Bool := selfTest (firstPoll (warmTrained m d o) o) o [] true

/-- The BLANK sections are read. -/
def warmBlank (d : Dev) (r : Restored) : Dev :=
  logSection r.tile 3 (countSection false o.ledger m r.tile d 0x2000 (blankLines r.tile)) r.blank

/-- The Blank map holds the runs that the shares give, and no bolt is marked. -/
def restoreMaps (d : Dev) (valid : List (Nat × Nat)) : Dev := { d with blank := ⟨valid, [], false, true, []⟩, mend := Reset.mend }

/-- The device with its maps, as the Ledger step begins. -/
def warmMapped : Dev :=
  let orderly := restoredOrderly m d o
  ledgerStatus (restoreMaps (if orderly then (restored m o).foldl (warmBlank m o) (warmTested m d o).1 else (warmTested m d o).1)
    (if orderly then ((restored m o).foldl restoreShare []).reverse else [])) (restored m o) orderly

theorem starting_warmAwake : Starting d (warmAwake d) := by
  have hclocks : Starting d (stackStart (slowClocks (clocksOn d) true)) := ⟨rfl, rfl, rfl, id⟩
  exact hclocks.trans (Quiet.foldl (fun d t => quiet_wakeTile d t) (List.range 320) _).toCore.starting

theorem quiet_warmRead (r : Restored) : Quiet d (warmRead m o d r) :=
  (((quiet_countReads ..).trans (quiet_logSection ..)).trans (quiet_logSection ..)).trans (quiet_logSection ..)

theorem quiet_warmRestored : Quiet (warmAwake d) (warmRestored m d o) :=
  Quiet.trans (.foldl (fun d r => quiet_warmRead m d o r) _ _) (.foldl (fun d r => quiet_restoreTile d _ r) _ _)

theorem layerOf_warmRestored (u j : Nat) : layerOf (warmRestored m d o) u j = layerOf d u j :=
  ((quiet_warmRestored m d o).layerOf_eq u j).trans
    ((Quiet.foldl (fun d t => quiet_wakeTile d t) (List.range 320) (stackStart (slowClocks (clocksOn d) true))).layerOf_eq u j)

theorem starting_warmTrained : Starting d (warmTrained m d o) := by
  have htrained := ((starting_warmAwake d).trans (quiet_warmRestored m d o).toCore.starting).trans
    (core_trainAll (warmRestored m d o) o (warmHems m o)).starting
  unfold warmTrained
  generalize trainAll (warmRestored m d o) o (warmHems m o) = r at htrained ⊢
  have hdone := (trainDone_done (ratesBack r.1 d.pins) r.2 ((restored m o).all fun r => r.train.isSome)).1
  have hadvised (e : Dev) : Starting e ((List.range 320).foldl advise e) := (Quiet.foldl quiet_advise _ e).toCore.starting
  exact ((htrained.trans (starting_ratesBack ..)).trans hdone).trans (hadvised _)

theorem quiet_warmLedger (orderly : Bool) (epoch : Nat) (s : SMap DLine × Dev) (r : Restored) : Quiet s.2 (warmLedger orderly epoch s r).2 := by
  have hif (c : Bool) {a b : SMap DLine × Dev} (h : Quiet a.2 b.2) : Quiet a.2 (if c then b else a).2 := by
    cases c with
    | true => exact h
    | false => exact .refl _
  unfold warmLedger
  exact (((hif _ (quiet_ledgerWrite ..)).trans (hif _ (quiet_writePatch ..))).trans (hif _ (quiet_writeTrain ..))).trans (quiet_putHeader ..)

/-- The maps that a warm start restores. -/
theorem warmMapped_maps : Starting (warmTested m d o).1 (warmMapped m d o) ∧ (warmMapped m d o).mend = Reset.mend ∧
    (warmMapped m d o).boot.ledOrderly = restoredOrderly m d o ∧
    (restoredOrderly m d o = false → (warmMapped m d o).blank = ⟨[], [], false, true, []⟩) := by
  have hread : Core (warmTested m d o).1
      (if restoredOrderly m d o then (restored m o).foldl (warmBlank m o) (warmTested m d o).1 else (warmTested m d o).1) :=
    .of_ite (.foldl (fun d r => ((quiet_countSection d ..).trans (quiet_logSection ..)).toCore) _ _) (.refl _)
  have hmapped (e : Dev) (valid : List (Nat × Nat)) (rs : List Restored) (orderly : Bool) :
      Starting e (ledgerStatus (restoreMaps e valid) rs orderly) := ⟨rfl, rfl, rfl, id⟩
  refine ⟨hread.starting.trans (hmapped ..), rfl, rfl, fun h => ?_⟩
  rw [warmMapped, h]
  rfl

/-- The memory and the device after the Ledger step. -/
def warmWritten : SMap DLine × Dev :=
  (restored m o).reverse.foldl (warmLedger (restoredOrderly m d o) (warmMapped m d o).boot.epoch.toNat) (m, warmMapped m d o)

/-- A warm start in which nothing fails. -/
theorem warmStart_runs {d : Dev} {o : StartOutcome} (htrains : trains d o) (hpass : (warmTested m d o).2 = false) :
    warmStart m d o = ((warmWritten m d o).1, enable (warmWritten m d o).2) := by
  have hhems := trainAll_passes (trains_congr (layerOf_warmRestored m d o) htrains) (warmHems m o)
  obtain ⟨⟨d2, ts⟩, hp⟩ : ∃ p, trainAll (warmRestored m d o) o (warmHems m o) = p := ⟨_, rfl⟩
  obtain ⟨⟨d4, stops⟩, hq⟩ : ∃ q, warmTested m d o = q := ⟨_, rfl⟩
  rw [hp] at hhems
  rw [hq] at hpass
  have htested := hq
  rw [warmTested, warmTrained, hp] at htested
  unfold warmStart
  extract_lets rs orderly log3 d0 d1 blank valid
  rw [show trainAll d1 o ((rs.filter fun r => r.train.isNone).map Restored.tile) = (d2, ts) from hp]
  dsimp -zeta only at hhems hpass ⊢
  extract_lets d3 d5 d6 r
  have hran : selfTest (firstPoll d3 o) o (failedHems ts) true = (d4, stops) := by
    rw [hhems]
    exact htested
  have hread : d5 = if orderly then rs.foldl (warmBlank m o) d4 else d4 := by
    unfold d5
    rw [hran]
    rfl
  have hmapped : d6 = warmMapped m d o := by
    unfold warmMapped
    rw [hq]
    show ledgerStatus (restoreMaps d5 valid) rs orderly = _
    rw [hread]
    rfl
  rw [if_neg (by rw [hran, hpass]; exact Bool.false_ne_true)]
  have hwritten : r = warmWritten m d o := by
    unfold warmWritten
    rw [← hmapped]
    rfl
  rw [hwritten]

theorem warmStart_enables {d : Dev} {o : StartOutcome} (htrains : trains d o) (htest : o.test = []) (hisolated : d.link.isolated = false) :
    let u := (warmStart m d o).2
    u.pins.ready = true ∧ u.boot.step = 9 ∧ isPending u Ev.STARTUP_DONE ∧ u.mend = Reset.mend ∧
    (u.boot.ledOrderly = false → ∀ b, isValid u b = false) := by
  obtain ⟨hpass, htested⟩ := selfTest_passes (firstPoll (warmTrained m d o) o) htest true
  rw [← warmTested] at hpass htested
  obtain ⟨hmapped, hmend, horderly, hblank⟩ := warmMapped_maps m d o
  have hstarted := (((starting_warmTrained m d o).trans (core_firstPoll ..).starting).trans htested).trans hmapped
  have hledger : Core (warmMapped m d o) (warmWritten m d o).2 := (Quiet.foldl_snd (quiet_warmLedger _ _) _ (m, warmMapped m d o)).toCore
  rw [warmStart_runs m htrains hpass]
  dsimp only
  generalize warmWritten m d o = r at hledger ⊢
  obtain ⟨hready, hboot, hpending, hkept, hmarks⟩ := enable_enables (d := r.2) (by rw [hledger.link]; exact hstarted.isolated.trans hisolated)
  rw [hboot, hledger.boot, hmarks, hledger.mend]
  refine ⟨hready, rfl, hpending, hmend, fun h => isValid_blank ((hkept.trans hledger.blank).trans (hblank ?_))⟩
  exact horderly.symm.trans h

end Warm

end Sys2Proof.Machine
end

section
open Sys2Proof Sys2Proof.Machine Sys2Proof.Claims

/-- Settles O51: trainings, polls, accesses of the Ledger and the self-test keep the link, `dl_ready` and the failures shown; the maps are
made afresh before the Ledger step, and what enables the instance comes last. -/
theorem startsEnableTheInstance : Obligations.StartsEnableTheInstance := by
  unfold Obligations.StartsEnableTheInstance
  refine ⟨fun o s hmay htrains htest hisolated => ?_, fun o v s hmay htrains htest hv => ?_,
    fun o s hmay hwarm htrains htest hisolated => ?_⟩
  · refine ⟨{ s with dram := (coldStart s.dram s.dev o).1, dev := (coldStart s.dram s.dev o).2 }, rfl, ?_⟩
    obtain ⟨hready, hstep, hdone, htrained, hpending, hvalid, hmend, hfatal⟩ := coldStart_enables hmay htrains s.dram htest hisolated
    exact ⟨hready, hstep, hdone, htrained, hpending, hvalid, hmend, hfatal, rfl⟩
  · refine ⟨{ s with dram := (coldStart s.dram s.dev o).1, dev := (coldStart s.dram s.dev o).2 }, rfl, ?_⟩
    obtain ⟨hhalted, hfatal, hblank, hstep, hready, hpending⟩ := coldStart_halts hmay htrains s.dram htest hv
    exact ⟨hhalted, hfatal, hblank, hstep, hready, hpending⟩
  · refine ⟨{ s with dram := (warmStart s.dram s.dev o).1, dev := (warmStart s.dram s.dev o).2 }, ?_, ?_⟩
    · show execWarmStart o s = _
      rw [execWarmStart, if_neg (by rw [hmay]; exact Bool.false_ne_true), if_neg (by rw [hwarm]; exact Bool.false_ne_true)]
      rfl
    · have henabled := warmStart_enables s.dram htrains htest hisolated
      generalize warmStart s.dram s.dev o = r at henabled ⊢
      obtain ⟨hready, hstep, hpending, hmend, hvalid⟩ := henabled
      exact ⟨hready, hstep, hpending, hmend, hvalid, rfl⟩

end

section
/-!
What settling leaves alone of the tiles' services: their states, reasons and snapshots, the parity reports that wait, and the pending
bits. First the parts of the instance, the jobs, and the entries of a channel.
-/
namespace Sys2Proof.Machine
open Sys2Proof.Claims

/-! ## The frame -/

/-- The service state with what explains it. -/
def standsAs (s : Svc) : SvcState × Reason × Option Snapshot := (s.state, s.reason, s.snap)

/-- Every tile stands in `e` as in `d`, with its parity report, and no pending bit has cleared. -/
structure Stands (d e : Dev) : Prop where
  svc : ∀ t, standsAs (svc e t) = standsAs (svc d t)
  alert : ∀ t, (chan e t).alert = (chan d t).alert
  pending : ∀ k i, 0x80 ≤ k → k < 0xA0 → (rget d k).getLsbD i = true → (rget e k).getLsbD i = true

namespace Stands
variable {d e f : Dev}

theorem refl (d : Dev) : Stands d d := ⟨fun _ => rfl, fun _ => rfl, fun _ _ _ _ h => h⟩

theorem trans (h : Stands d e) (h' : Stands e f) : Stands d f :=
  ⟨fun t => (h'.svc t).trans (h.svc t), fun t => (h'.alert t).trans (h.alert t),
    fun k i hlo hhi hb => h'.pending k i hlo hhi (h.pending k i hlo hhi hb)⟩

theorem of_ite {c : Prop} [Decidable c] (he : Stands d e) (hf : Stands d f) : Stands d (if c then e else f) := by
  split
  · exact he
  · exact hf

theorem foldl {α : Type} {g : Dev → α → Dev} (hg : ∀ d a, Stands d (g d a)) (l : List α) (d : Dev) : Stands d (l.foldl g d) := by
  induction l generalizing d with
  | nil => exact .refl d
  | cons a l ih => exact (hg d a).trans (ih _)

/-- A change outside the tiles and the registers. -/
theorem of_parts (htiles : e.tiles = d.tiles) (hregs : e.regs = d.regs) : Stands d e :=
  ⟨fun t => congrArg (fun x : Tile => standsAs x.svc) (getTile_congr htiles t), fun t => congrArg (fun x : Tile => x.chan.alert) (getTile_congr htiles t),
    fun k i _ _ hb => by rw [rget_congr hregs]; exact hb⟩

theorem isPending (h : Stands d e) {c : Nat} (hc : 0x100 ≤ c ∧ c < 0x200) (hp : isPending d c) : Claims.isPending e c :=
  h.pending _ _ (by unfold irqPend; omega) (by unfold irqPend; omega) hp

end Stands

/-! ## The parts of the instance -/

section Parts
variable (d : Dev)

theorem stands_onSlice (t : Nat) (f : Slice → Slice) : Stands d (onSlice d t f) := by
  refine ⟨fun u => ?_, fun u => ?_, fun _ _ _ _ h => h⟩
  · rw [svc_onSlice]
  · rw [chan_onSlice]

theorem stands_onChan (t : Nat) {f : Chan → Chan} (hf : ∀ c, (f c).alert = c.alert) : Stands d (onChan d t f) := by
  refine ⟨fun u => by rw [svc_onChan], fun u => ?_, fun _ _ _ _ h => h⟩
  by_cases h : u = t
  · rw [h, chan_onChan, hf]
  · rw [chan_onChan_ne _ _ _ _ h]

theorem stands_onSvc (t : Nat) {f : Svc → Svc} (hf : ∀ s, standsAs (f s) = standsAs s) : Stands d (onSvc d t f) := by
  refine ⟨fun u => ?_, fun u => by rw [chan_onSvc], fun _ _ _ _ h => h⟩
  by_cases h : u = t
  · rw [h, svc_onSvc, hf]
  · rw [svc_onSvc_ne _ _ _ _ h]

theorem stands_rset (off : Nat) (v : Word) (hoff : 0xA0 ≤ off) : Stands d (rset d off v) :=
  ⟨fun _ => rfl, fun _ => rfl, fun k i _ hk hb => by rw [rget_rset_ne _ _ _ _ (by omega)]; exact hb⟩

theorem stands_rcount (off hi lo n : Nat) (hoff : 0xA0 ≤ off) : Stands d (rcount d off hi lo n) := stands_rset _ _ _ hoff
theorem stands_rinc (off n : Nat) (hoff : 0xA0 ≤ off) : Stands d (rinc d off n) := stands_rset _ _ _ hoff

theorem stands_rinc_tile (t off n : Nat) : Stands d (rinc d (tileOff t off) n) := stands_rinc _ _ _ (by unfold tileOff; omega)

theorem stands_of_keepsRegs {d e : Dev} (htiles : e.tiles = d.tiles) (h : KeepsRegs d e) : Stands d e :=
  ⟨fun t => congrArg (fun x : Tile => standsAs x.svc) (getTile_congr htiles t), fun t => congrArg (fun x : Tile => x.chan.alert) (getTile_congr htiles t),
    fun k i _ hk hb => h.pending k i (by omega) hb⟩

theorem stands_raise (e : Nat) (m b : Option Nat) : Stands d (raise d e m b) := stands_of_keepsRegs (raise_tiles ..) (keepsRegs_raise ..)

theorem stands_lint (kind : Nat) (w : LintAt) (x y : Nat) : Stands d (lint d kind w x y) :=
  stands_of_keepsRegs (lint_tiles ..) (keepsRegs_lint ..)

theorem stands_eCount (owner cls n : Nat) : Stands d (eCount d owner cls n) := .of_parts rfl rfl
theorem stands_setPanel (p : Nat) (x : Panel) : Stands d (setPanel d p x) := .of_parts rfl rfl
theorem stands_setMaster (m : Nat) (x : Master) : Stands d (setMaster d m x) := .of_parts rfl rfl
theorem stands_setJob (i : Nat) (x : Job) : Stands d (setJob d i x) := .of_parts rfl rfl
theorem stands_setTxn (i : Nat) (x : Txn) : Stands d (setTxn d i x) := .of_parts rfl rfl
theorem stands_dropTxn (i : Nat) : Stands d (dropTxn d i) := .of_parts rfl rfl
theorem stands_setPort (n : Nat) (x : Port) : Stands d (setPort d n x) := .of_parts rfl rfl
theorem stands_setLift (n : Nat) (x : Lift) : Stands d (setLift d n x) := .of_parts rfl rfl
theorem stands_pushDue (m : Nat) (at_ : BitVec 64) (r : Bool) : Stands d (pushDue d m at_ r) := stands_setMaster ..
theorem stands_post (m prio : Nat) (u : UnitOp) (l : Loc) (bolt : Nat) : Stands d (post d m prio u l bolt) := .of_parts rfl rfl
theorem stands_setValid (bolt : Nat) : Stands d (setValid d bolt) := .of_parts rfl rfl
theorem stands_setBlank (bolt : Nat) : Stands d (setBlank d bolt) := .of_parts rfl rfl

end Parts

/-! ## The Blank and the Mend map -/

section Maps
variable (d : Dev)

theorem stands_blankLook (bolt : Nat) : Stands d (blankLook d bolt) := by
  unfold blankLook
  have hfixed (b : BlankMap) : Stands d { d with blank := b } := .of_parts rfl rfl
  dsimp only
  split
  · exact .refl d
  · exact (hfixed _).trans (stands_rcount _ _ _ _ _ (by decide))
  · exact (((hfixed _).trans (stands_rcount _ _ _ _ _ (by decide))).trans (stands_raise ..)).trans (stands_lint ..)

theorem stands_withDouble (p : Nat) {f : Dev → Dev} (hf : ∀ d, Stands d (f d)) : Stands d (withDouble p f d) :=
  .of_ite ((hf d).trans (stands_raise ..)) (hf d)

theorem stands_putMend (bolt : Nat) (v : Bool) : Stands d (putMend d bolt v) :=
  .of_ite (.refl d) (.of_ite (.of_parts rfl rfl) (.of_parts rfl rfl))

theorem stands_markBolt (bolt : Nat) (v : Bool) : Stands d (markBolt d bolt v) :=
  .of_ite (.refl d) (stands_withDouble d _ fun d => stands_putMend d bolt v)

theorem stands_mendLook (bolt : Nat) : Stands d (mendLook d bolt) := by
  unfold mendLook
  extract_lets w m fixed
  have hfixed : Stands d fixed := .of_parts rfl rfl
  split
  · exact .refl d
  · exact hfixed.trans (stands_rcount _ _ _ _ _ (by decide))
  · refine (((hfixed.trans (.foldl (fun d i => stands_markBolt d ..) _ _)).trans (stands_rcount _ _ _ _ _ (by decide))).trans
      (stands_raise ..)).trans (stands_lint ..)

theorem stands_setMend (bolt : Nat) (v : Bool) : Stands d (setMend d bolt v) := (stands_mendLook ..).trans (stands_markBolt ..)

theorem stands_outLook (st : Stripe) : Stands d (outLook d st) := .of_ite (stands_mendLook ..) (.refl d)

theorem stands_lineDropped (l : Loc) (bolt : Nat) : Stands d (lineDropped d l bolt) :=
  ((stands_setMend ..).trans (stands_raise ..)).trans (stands_lint ..)

theorem stands_lineUnreachable (l : Loc) (bolt : Nat) : Stands d (lineUnreachable d l bolt) := (stands_raise ..).trans (stands_lint ..)

end Maps

/-! ## Jobs -/

section Jobs
variable (d : Dev)

theorem stands_dropJob (id : Nat) : Stands d (dropJob d id) := by
  unfold dropJob
  split
  · exact .of_parts rfl rfl
  · exact .refl d

theorem stands_addJob (j : Job) : Stands d (addJob d j) := .of_parts rfl rfl

theorem stands_jobGot (j slot : Nat) (x : DLine) (k : Check) : Stands d (jobGot d j slot x k) := by
  unfold jobGot
  split
  · exact .of_ite (stands_setJob ..) (stands_setJob ..)
  · exact .refl d

theorem stands_issueDirect (id slot : Nat) : Stands d (issueDirect id d slot) := by
  unfold issueDirect
  split
  · exact .refl d
  · exact .of_ite (stands_jobGot ..) ((stands_setJob ..).trans (stands_post ..))

theorem stands_kickJob (id : Nat) : Stands d (kickJob d id) := by
  unfold kickJob
  split
  · exact .refl d
  · split
    · exact .refl d
    · exact .refl d
    · refine .of_ite (.refl d) (.of_ite (.refl d) ?_)
      exact Stands.trans (.of_ite (stands_raise ..) (.refl d)) (.foldl (fun d slot => stands_issueDirect d ..) _ _)

theorem stands_startJob (j : Job) : Stands d (startJob d j) := (stands_addJob ..).trans (stands_kickJob ..)

end Jobs

/-! ## The entries of a channel -/

section Entries
variable (d : Dev)

theorem stands_restartColumn (l : Loc) : Stands d (restartColumn d l) := by
  unfold restartColumn
  split
  · split
    · exact .of_ite ((stands_dropJob ..).trans (stands_onSvc _ _ fun _ => by rfl)) (.refl d)
    · exact .refl d
  · exact .refl d

theorem stands_restale (l : Loc) (by_ : Option Nat) : Stands d (restale d l by_) := by
  unfold restale
  extract_lets go
  have hgo (st : Stripe) (slot : Nat) : Stands d (go st slot) := by
    refine .foldl (fun d i => ?_) _ d
    split
    · exact .of_ite (.refl d) (stands_setJob ..)
    · exact .refl d
  split
  · exact hgo ..
  · exact hgo ..
  · exact .refl d

theorem stands_addHam (k : EKind) (l : Loc) (bolt : Nat) (x : DLine) (verify : Bool) (by_ : Option Nat) :
    Stands d (addHam d k l bolt x verify by_) := by
  unfold addHam
  exact (Stands.trans (.of_ite (stands_restale ..) (.refl d)) (stands_restartColumn ..)).trans (stands_onChan _ _ fun _ => by rfl)

theorem stands_rawWait (l : Loc) (waits : Bool) : Stands d (rawWait d l waits) :=
  .of_ite ((stands_rinc_tile ..).trans (stands_raise ..)) (.refl d)

theorem stands_addRead (k : EKind) (l : Loc) (owner : Owner) (prio : Nat) (by_ : Option (Nat × BitVec 64)) :
    Stands d (addRead d k l owner prio by_) := by
  unfold addRead
  exact (stands_onChan _ _ fun _ => by rfl).trans (stands_rawWait ..)

theorem stands_addBg (l : Loc) (owner : Owner) (prio : Nat) (by_ : Nat × BitVec 64) : Stands d (addBg d l owner prio by_) := by
  unfold addBg
  exact (stands_onChan _ _ fun _ => by rfl).trans (stands_rawWait ..)

theorem stands_releaseResv (t hid : Nat) : Stands d (releaseResv d t hid) := by
  unfold releaseResv
  exact Stands.trans (.foldl (fun d t => stands_onChan d t fun _ => by rfl) _ d) (stands_onChan _ _ fun _ => by rfl)

theorem stands_sendDelta (t : Nat) (e : HEntry) (old : DLine) : Stands d (sendDelta d t e old) := by
  unfold sendDelta
  dsimp only
  split
  · split
    · exact (stands_onChan _ _ fun _ => by rfl).trans (stands_addHam ..)
    · exact .refl d
  · exact .refl d

theorem stands_drainArrived (t hid : Nat) (old : DLine) : Stands d (drainArrived d t hid old) := by
  unfold drainArrived
  dsimp only
  split
  · exact Stands.trans (.of_ite (stands_sendDelta ..) (.refl d)) (stands_onChan _ _ fun _ => by rfl)
  · exact (stands_sendDelta ..).trans (stands_onChan _ _ fun _ => by rfl)
  · exact .refl d

theorem stands_missArrived (l : Loc) (data : LineData) (poison : Bool) : Stands d (missArrived d l data poison) := by
  unfold missArrived
  have hfree : Stands d { d with free := d.free + 1 } := .of_parts rfl rfl
  exact hfree.trans (stands_onSlice ..)

theorem stands_deliver (o : Owner) (x : DLine) (k : Check) : Stands d (deliver d o x k) := by
  unfold deliver
  split
  · exact stands_missArrived ..
  · exact stands_drainArrived ..
  · exact stands_jobGot ..
  · exact .refl d

theorem stands_startRebuild (l : Loc) (o : Owner) (prio : Nat) (back : Bool) (k : EKind) (born : Option Nat) :
    Stands d (startRebuild d l o prio back k born) := by
  unfold startRebuild
  split
  · exact stands_startJob ..
  · exact stands_deliver ..

theorem stands_readLine (k : EKind) (l : Loc) (o : Owner) (prio : Nat) : Stands d (readLine d k l o prio) := by
  unfold readLine
  split
  next st _ =>
    extract_lets bolt e paired
    have hlook : Stands d e := stands_outLook ..
    refine hlook.trans (.of_ite ?_ (stands_addRead ..))
    split
    · exact stands_post ..
    · exact .of_ite ((stands_lineUnreachable ..).trans (stands_deliver ..)) (stands_startRebuild ..)
  next => exact stands_addRead ..

end Entries

end Sys2Proof.Machine
end

section
/-!
What settling leaves alone, continued: writes of lines and of whole bolts, the jobs that end with them, answers, and messages.
-/
namespace Sys2Proof.Machine
open Sys2Proof.Claims

/-! ## Writes -/

section Writes
variable (d : Dev)

theorem stands_liftWrite (ll : Loc) (x : DLine) : Stands d (liftWrite d ll x) := stands_post ..

theorem stands_mirror (l : Loc) (x : DLine) : Stands d (mirror d l x) := by
  unfold mirror
  extract_lets s
  split
  · exact .of_ite (stands_liftWrite ..) (.of_ite (stands_setLift ..) (.refl d))
  · exact .refl d

theorem stands_dataHam (st : Stripe) (k : EKind) (l : Loc) (bolt : Nat) (x : DLine) (verify : Bool) :
    Stands d (dataHam d st k l bolt x verify) := by
  unfold dataHam
  exact .of_ite ((stands_addHam ..).trans (stands_mirror ..)) (stands_addHam ..)

theorem stands_writeLine (k : EKind) (l : Loc) (bolt : Nat) (x : DLine) (verify : Bool) : Stands d (writeLine d k l bolt x verify) := by
  unfold writeLine
  split
  next st _ =>
    extract_lets e outs me q
    have hlook : Stands d e := stands_outLook ..
    refine hlook.trans (.of_ite (.of_ite ((stands_setMend ..).trans (stands_dataHam ..)) (stands_dataHam ..)) ?_)
    split
    · exact ((stands_setMend ..).trans (stands_restale ..)).trans (stands_liftWrite ..)
    · exact .of_ite (stands_lineDropped ..) ((stands_setMend ..).trans (stands_startJob ..))
  next => exact .of_ite (stands_setMend ..) (stands_addHam ..)
  next => exact .of_ite (.refl d) (stands_addHam ..)

theorem stands_writeBoltMember (st : Stripe) (bolt : Nat) (e : Nat × DLine) : Stands d (writeBoltMember st bolt d e) := by
  unfold writeBoltMember
  exact .of_ite (stands_dataHam ..) (.of_ite (stands_writeLine ..) (.of_ite (stands_lineDropped ..) (stands_setMend ..)))

theorem stands_writeWholeBolt (st : Stripe) (f : Nat → Nat → LineData × Bool) : Stands d (writeWholeBolt d st f) := by
  unfold writeWholeBolt
  extract_lets bolt one
  have hone (d : Dev) (half : Nat) : Stands d (one d half) :=
    Stands.trans (.foldl (fun d e => stands_writeBoltMember d ..) _ d) (stands_writeLine ..)
  exact (((stands_blankLook ..).trans (hone ..)).trans (hone ..)).trans (stands_setValid ..)

theorem stands_writeBack {d e : Dev} {l : Loc} {bolt : Nat} {data : LineData} {poison : Bool}
    (h : writeBack d l bolt data poison = some e) : Stands d e := by
  unfold writeBack at h
  split at h
  next st _ =>
    have hlook : Stands d (blankLook d bolt) := stands_blankLook ..
    dsimp only at h
    split at h
    · split at h
      · rw [← Option.some.inj h]
        exact (hlook.trans (stands_writeLine ..)).trans (stands_raise ..)
      · exact absurd h (by simp)
    · split at h
      · rw [← Option.some.inj h]
        exact (hlook.trans (stands_writeWholeBolt ..)).trans (stands_raise ..)
      · exact absurd h (by simp)
  next => exact absurd h (by simp)

end Writes

/-! ## The ends of jobs -/

section Ends
variable (d : Dev)

theorem stands_passColumn (t : Nat) : Stands d (passColumn d t) := stands_onSvc _ _ fun _ => by rfl

theorem stands_rinseOn (p : Nat) : Stands d (rinseOn d p) := by
  unfold rinseOn rinsePass
  exact .of_ite ((stands_setPanel ..).trans ((stands_rinc _ _ _ (by decide)).trans (stands_raise ..))) (stands_setPanel ..)

theorem stands_takeBack (t id : Nat) : Stands d (takeBack t d id) := by
  unfold takeBack
  split
  · exact .refl d
  · extract_lets me l bolt
    split
    · exact .of_ite ((stands_dropJob ..).trans (stands_writeLine ..)) (.refl d)
    · exact .of_ite ((stands_dropJob ..).trans (stands_writeLine ..)) (.refl d)
    · exact .of_ite ((stands_dropJob ..).trans (stands_readLine ..)) (.refl d)
    · exact .of_ite (stands_setJob ..) (.refl d)
    · exact .refl d

theorem stands_passBlank (st : Stripe) (t : Nat) : Stands d (passBlank d st t) := .of_ite (stands_setMend ..) (.refl d)

theorem stands_walkOn (st : Stripe) (t : Nat) : Stands d (walkOn d st t) := by
  unfold walkOn
  exact Stands.trans (.of_ite ((stands_setMend ..).trans (.foldl (fun d id => stands_takeBack d ..) _ _)) (.refl d)) (stands_setPanel ..)

theorem stands_liftDone (t : Nat) : Stands d (liftDone d t) := by
  unfold liftDone
  split
  · exact .refl d
  · extract_lets f ia bolt d1
    have hcopied : Stands d d1 := ((stands_blankLook ..).trans (stands_setValid ..)).trans (stands_setLift ..)
    exact hcopied.trans (.foldl (fun d e => stands_liftWrite d ..) _ _)

theorem stands_endJob (id : Nat) : Stands d (endJob d id) := by
  unfold endJob
  split
  · exact .refl d
  next j _ =>
    have hdropped : Stands d (dropJob d id) := stands_dropJob ..
    dsimp only
    split
    · exact hdropped.trans (stands_releaseResv ..)
    · exact hdropped.trans (stands_rinseOn ..)
    · exact .of_ite (hdropped.trans (stands_walkOn ..)) hdropped
    · exact hdropped.trans (stands_liftDone ..)
    · exact hdropped

theorem stands_putDone (id : Nat) : Stands d (putDone d id) := by
  unfold putDone
  split
  · exact .refl d
  · exact .of_ite (stands_endJob ..) (stands_setJob ..)

theorem stands_cancelEntries (mine : REntry → Bool) (t : Nat) : Stands d (cancelEntries mine d t) := by
  unfold cancelEntries
  extract_lets c gone d1
  have hdue : Stands d d1 := by
    refine .foldl (fun d e => ?_) _ d
    split
    · exact stands_pushDue ..
    · exact .refl d
  exact .of_ite (.refl d) (hdue.trans (stands_onChan _ _ fun _ => by rfl))

theorem stands_cancelReads (id t : Nat) : Stands d (cancelReads id d t) := stands_cancelEntries ..

theorem stands_cancelLift (bolt id : Nat) : Stands d (cancelLift bolt d id) := by
  unfold cancelLift
  split
  · split
    · exact (stands_cancelEntries ..).trans (.foldl (fun d s => stands_jobGot d ..) _ _)
    · exact .refl d
  · exact .refl d

theorem stands_blankJob (id : Nat) (j : Job) : Stands d (blankJob d id j) := by
  unfold blankJob
  extract_lets d1 d2
  have hdropped : Stands d d2 := Stands.trans (.foldl (fun d t => stands_cancelReads d ..) _ d) (stands_dropJob ..)
  refine hdropped.trans ?_
  split
  · exact .of_ite (stands_deliver ..) (.refl _)
  · exact stands_rinseOn ..
  · exact (stands_passBlank ..).trans (stands_setPanel ..)
  · exact .of_ite (stands_passColumn ..) (.refl _)
  · exact .refl _

theorem stands_blankJobs (st : Stripe) : Stands d (blankJobs d st) := by
  unfold blankJobs
  extract_lets here d1
  have hjobs : Stands d d1 := by
    refine .foldl (fun d i => ?_) _ d
    split
    · exact .of_ite (stands_blankJob ..) (.refl d)
    · exact .refl d
  exact hjobs.trans (.foldl (fun d i => stands_cancelLift d ..) _ _)

end Ends

/-! ## Messages and answers -/

section Answers
variable (d : Dev)

theorem stands_of_sameButLink {d e : Dev} (h : SameButLink d e) : Stands d e := by
  obtain ⟨l, n, rfl⟩ := h
  exact .of_parts rfl rfl

theorem stands_send (dst : Nat) (b : MsgBody) : Stands d (send d dst b) := by
  unfold send
  exact Stands.trans (e := { d with link := { d.link with held := d.link.held ++ [⟨d.boot.inst, BitVec.ofNat 2 dst, b⟩] } })
    (.of_parts rfl rfl) (stands_of_sameButLink (sameButLink_sendHeld _))

theorem stands_answerOut (id : Nat) (c : Rsp) : Stands d (answerOut d id c) := by
  unfold answerOut
  split
  · exact .refl d
  · extract_lets c'
    split
    · exact .of_ite (((stands_setPort ..).trans (stands_dropTxn ..)).trans (stands_pushDue ..))
        (((stands_setPort ..).trans (stands_setTxn ..)).trans (stands_pushDue ..))
    · exact ((stands_send ..).trans (stands_dropTxn ..)).trans (stands_pushDue ..)
    · exact (stands_dropTxn ..).trans (stands_pushDue ..)
    · exact stands_dropTxn ..

theorem stands_onMangle (g : Mangle) : Stands d { d with mangle := g } := .of_parts rfl rfl

theorem stands_failGen (g : Nat) : Stands d (failGen d g) := by
  unfold failGen
  extract_lets free g0 d0 d1
  have hqueue : Stands d d0 := stands_onMangle ..
  have hfailed : Stands d d1 := by
    refine hqueue.trans ?_
    unfold d1
    split
    · exact stands_onMangle ..
    · exact .refl _
  refine hfailed.trans ?_
  split
  · exact Stands.trans (stands_onMangle ..) (stands_raise ..)
  · exact .refl _

theorem stands_m16Answer (x : Txn) (g chunk : Nat) : Stands d (m16Answer d x g chunk) := by
  unfold m16Answer
  extract_lets g0 upd t d1 ready g1 d2 dropped dec d3
  have hupd (f : Lease → Option Lease) : Stands d (upd f) := stands_onMangle ..
  split
  · have hready : Stands d d2 := (((hupd _).trans (stands_eCount ..)).trans (stands_eCount ..)).trans (stands_onMangle ..)
    exact .of_ite (hready.trans (stands_failGen ..)) hready
  · exact .of_ite ((hupd _).trans (stands_failGen ..)) (hupd _)
  · have hopening : Stands d d3 := stands_onMangle ..
    exact .of_ite (hopening.trans (stands_answerOut ..)) hopening

theorem stands_respond (id : Nat) (c : Rsp) : Stands d (respond d id c) := by
  unfold respond
  split
  · split
    · exact (stands_answerOut ..).trans (stands_m16Answer ..)
    · exact stands_answerOut ..
  · exact .refl d

theorem stands_partDone (id idx : Nat) (line : Option LineData) (poison : Bool) : Stands d (partDone d id idx line poison) := by
  unfold partDone
  split
  · exact .refl d
  · exact .of_ite ((stands_setTxn ..).trans (stands_respond ..)) (stands_setTxn ..)

end Answers

end Sys2Proof.Machine
end

section
/-!
What settling leaves alone, continued: the Press, its ways and their allocation, and what the granted parts do with them.
-/
namespace Sys2Proof.Machine
open Sys2Proof.Claims

/-- An allocation leaves the services, the parity reports and the pending interrupts alone, whatever it answers. -/
def AllocStands (d : Dev) : Alloc → Prop
  | .way _ e | .victim e => Stands d e
  | .none => True

/-- A part that is performed leaves them alone, done or not. -/
def PerfStands (d : Dev) : Perf → Prop
  | .done e | .stall e | .wait e => Stands d e

theorem AllocStands.of_stands {d e : Dev} (h : Stands d e) {a : Alloc} (ha : AllocStands e a) : AllocStands d a := by
  cases a with
  | way w x => exact h.trans ha
  | victim x => exact h.trans ha
  | none => trivial

theorem PerfStands.of_stands {d e : Dev} (h : Stands d e) {r : Perf} (hr : PerfStands e r) : PerfStands d r := by
  cases r with
  | done x => exact h.trans hr
  | stall x => exact h.trans hr
  | wait x => exact h.trans hr

theorem PerfStands.of_ite {d : Dev} {c : Prop} [Decidable c] {r s : Perf} (hr : PerfStands d r) (hs : PerfStands d s) :
    PerfStands d (if c then r else s) := by
  split
  · exact hr
  · exact hs

theorem PerfStands.map {d : Dev} {r : Perf} (hr : PerfStands d r) {f : Dev → Dev} (hf : ∀ d, Stands d (f d)) :
    PerfStands d (r.map f) := by
  cases r with
  | done x => exact Stands.trans hr (hf x)
  | stall x => exact hr
  | wait x => exact hr

/-! ## Ways -/

section Ways
variable (d : Dev)

theorem stands_putWay (l : Loc) (w : Nat) (x : Way) : Stands d (putWay d l w x) := stands_onSlice ..
theorem stands_touch (l : Loc) (w : Nat) : Stands d (touch d l w) := stands_onSlice ..
theorem stands_unclaim (l : Loc) : Stands d (unclaim d l) := stands_onSlice ..
theorem stands_rewritten (l : Loc) : Stands d (rewritten d l) := .of_parts rfl rfl

theorem stands_pressError (kind : Nat) (dirty : Bool) (tile set way : Nat) : Stands d (pressError d kind dirty tile set way) := by
  unfold pressError
  have hraised : Stands d (raise (rinc d 0x6030 1) Ev.PRESS_SRAM) := (stands_rinc _ _ _ (by decide)).trans (stands_raise ..)
  exact .of_ite hraised (hraised.trans (stands_rset _ _ _ (by decide)))

theorem stands_checkWay (l : Loc) (w : Nat) : Stands d (checkWay d l w) :=
  .of_ite ((stands_pressError ..).trans (stands_putWay ..)) (.refl d)

theorem stands_checkEntry (l : Loc) : Stands d (checkEntry d l) := by
  unfold checkEntry
  split
  · exact stands_checkWay ..
  · exact .refl d

theorem stands_invalidate (l : Loc) : Stands d (invalidate d l) := by
  unfold invalidate
  split
  · exact stands_putWay ..
  · exact .refl d

theorem stands_place (l : Loc) (bolt w : Nat) (data : LineData) (dirty keep poison : Bool) :
    Stands d (place d l bolt w data dirty keep poison) := by
  unfold place
  extract_lets d1
  have hput : Stands d d1 := (stands_putWay ..).trans (stands_touch ..)
  exact (Stands.of_ite (hput.trans (stands_rewritten ..)) hput).trans (stands_eCount ..)

theorem allocStands_evict (l : Loc) (w : Nat) : AllocStands d (evict d l w) := by
  unfold evict
  extract_lets e x vl out
  have hlook : Stands d e := .of_ite (stands_checkWay ..) (.refl d)
  have hout : AllocStands e out := stands_onSlice ..
  refine .of_stands hlook ?_
  split
  · exact stands_putWay ..
  · split
    · exact hout
    · split
      next e1 he => exact (stands_writeBack he).trans (stands_putWay ..)
      next => exact hout

theorem allocStands_chooseWay (l : Loc) (ways : List Nat) (prefetch : Bool) : AllocStands d (chooseWay d l ways prefetch) := by
  unfold chooseWay
  extract_lets s i st ok lru
  split
  · exact Stands.refl d
  · split
    · exact allocStands_evict ..
    · clear_value lru
      cases prefetch with
      | true => trivial
      | false =>
        cases lru with
        | nil => trivial
        | cons w ws => exact .of_stands (stands_raise ..) (allocStands_evict ..)

theorem allocStands_allocate (l : Loc) (ways : List Nat) (prefetch : Bool) : AllocStands d (allocate d l ways prefetch) := by
  unfold allocate
  split
  · split
    · exact Stands.refl d
    · exact stands_onSlice ..
  · exact allocStands_chooseWay ..

/-- An allocation with what is done where it finds a way, and where it does not. -/
theorem perfStands_of_alloc {l : Loc} {ways : List Nat} {prefetch : Bool} {f : Nat → Dev → Dev} (hf : ∀ w e, Stands e (f w e))
    {none : Perf} (hnone : PerfStands d none) :
    PerfStands d (match allocate d l ways prefetch with
      | .way w e => .done (f w e)
      | .victim e => .stall e
      | .none => none) := by
  have h := allocStands_allocate d l ways prefetch
  revert h
  cases allocate d l ways prefetch with
  | way w e => exact fun h => Stands.trans h (hf w e)
  | victim e => exact fun h => h
  | none => exact fun _ => hnone

end Ways

/-! ## Hits and fills -/

section Hits
variable (d : Dev)

theorem stands_partOut (p : Part) (line : Option LineData) (bad : Bool) : Stands d (partOut d p line bad) :=
  (Stands.of_ite (stands_eCount ..) (.refl d)).trans (stands_partDone ..)

theorem perfStands_lineOut (p : Part) (data : LineData) (poison : Bool) {after : Dev → Dev} (hafter : ∀ e, Stands e (after e)) :
    PerfStands d (lineOut d p data poison after) := by
  unfold lineOut
  split
  next e he =>
    split at he
    · exact (stands_writeBack he).trans (hafter e)
    · exact absurd he (by simp)
  next => exact stands_onSlice ..

theorem perfStands_allocPlace (p : Part) (ways : List Nat) (data : LineData) (dirty keep : Bool) {after : Dev → Dev}
    (hafter : ∀ e, Stands e (after e)) : PerfStands d (allocPlace d p ways data dirty keep after) :=
  perfStands_of_alloc d (f := fun w e => after (place e p.loc p.bolt w data dirty keep false))
    (fun _ _ => (stands_place ..).trans (hafter _)) (Stands.refl d)

theorem stands_doAtomic (p : Part) (w aop : Nat) (wide : Bool) (off : Nat) (opnd cmp : BitVec 64) :
    Stands d (doAtomic d p w aop wide off opnd cmp) := by
  unfold doAtomic
  extract_lets x r d1 y d2 old
  have htouch : Stands d d1 := stands_touch ..
  have hput : Stands d1 d2 := .of_ite (((stands_putWay ..).trans (stands_rewritten ..)).trans (stands_eCount ..)) (.refl _)
  exact ((htouch.trans hput).trans (stands_raise ..)).trans (stands_partOut ..)

theorem stands_decline (p : Part) : Stands d (decline d p) := (stands_raise ..).trans (stands_partDone ..)

theorem perfStands_hitOp (p : Part) (w : Nat) : PerfStands d (hitOp d p w) := by
  unfold hitOp
  extract_lets l x fin using_
  have hfin (e : Dev) (line : Option LineData) (bad : Bool) : Stands e (fin e line bad) := stands_partOut ..
  have husing (h : Hint) (y : Way) : Stands d (using_ h y) := by
    cases h with
    | stream => exact stands_putWay ..
    | lastuse => exact stands_putWay ..
    | keep => exact (stands_putWay ..).trans (stands_touch ..)
    | none => exact (stands_putWay ..).trans (stands_touch ..)
  split
  next h _ =>
    dsimp only
    refine .of_ite (Stands.trans ?_ (hfin ..)) ((husing ..).trans (hfin ..))
    exact .of_ite ((stands_putWay ..).trans (.of_parts rfl rfl)) (stands_putWay ..)
  next h be data _ =>
    dsimp only
    refine .of_ite (Stands.trans (.of_ite (stands_touch ..) (.refl d)) (hfin ..)) ?_
    exact (((husing ..).trans (stands_rewritten ..)).trans (stands_eCount ..)).trans (hfin ..)
  next h _ => exact (husing ..).trans (hfin ..)
  next => exact .of_ite (perfStands_lineOut _ _ _ _ fun _ => (stands_putWay ..).trans (hfin ..)) (hfin ..)
  next =>
    exact .of_ite (perfStands_lineOut _ _ _ _ fun _ => (stands_putWay ..).trans (hfin ..)) ((stands_putWay ..).trans (hfin ..))
  next => exact .of_ite ((stands_touch ..).trans (hfin ..)) (stands_doAtomic ..)
  all_goals exact Stands.refl d

theorem perfStands_fillOp (p : Part) (data : LineData) (poison blank : Bool) : PerfStands d (fillOp d p data poison blank).1 := by
  unfold fillOp
  extract_lets ways fin aw
  have hfin (line : Option LineData) (bad : Bool) (e : Dev) : Stands e (fin line bad e) := stands_partOut ..
  split
  next h _ =>
    split
    · exact hfin ..
    · dsimp only
      split
      · exact hfin ..
      · exact perfStands_allocPlace _ _ _ _ _ _ (hfin _ _)
  next h be v _ =>
    dsimp only
    split
    · exact hfin ..
    · split
      · exact .of_stands (stands_rewritten ..) (perfStands_lineOut _ _ _ _ (hfin _ _))
      · exact perfStands_allocPlace _ _ _ _ _ _ (hfin _ _)
  next h _ =>
    split
    · exact stands_decline ..
    · have h := allocStands_allocate d p.loc ways true
      revert h
      cases allocate d p.loc ways true with
      | way w e => exact fun h => (Stands.trans h (stands_place ..)).trans (hfin ..)
      | victim e => exact fun h => h
      | none => exact fun _ => stands_decline ..
  next => exact hfin ..
  next => exact hfin ..
  next =>
    split
    · exact hfin ..
    · have h := allocStands_allocate d p.loc aw false
      revert h
      cases allocate d p.loc aw false with
      | way w e => exact fun h => (Stands.trans h (stands_place ..)).trans (stands_doAtomic ..)
      | victim e => exact fun h => h
      | none => exact fun _ => Stands.refl d
  all_goals exact Stands.refl d

theorem stands_fillWaiters (l : Loc) (data : LineData) (poison blank : Bool) (ps : List Part) :
    ∀ d, Stands d (fillWaiters l data poison blank d ps).1 := by
  induction ps with
  | nil => exact fun d => .refl d
  | cons p ps ih =>
    intro d
    unfold fillWaiters
    split
    · exact .refl d
    · dsimp only
      have hlook : Stands d (checkEntry d l) := stands_checkEntry ..
      split
      next w _ =>
        have h := perfStands_hitOp (checkEntry d l) p w
        revert h
        cases hitOp (checkEntry d l) p w with
        | done e =>
          intro h
          dsimp only
          split
          · exact hlook.trans h
          · exact (hlook.trans h).trans (ih e)
        | stall e => exact fun h => hlook.trans h
        | wait e => exact fun h => hlook.trans h
      next =>
        have h := perfStands_fillOp (checkEntry d l) p data poison blank
        revert h
        generalize fillOp (checkEntry d l) p data poison blank = r
        obtain ⟨r, b⟩ := r
        cases r with
        | done e =>
          cases b with
          | true => exact fun h => hlook.trans h
          | false => exact fun h => (hlook.trans h).trans (ih e)
        | stall e => exact fun h => hlook.trans h
        | wait e => exact fun h => hlook.trans h

theorem stands_fillMiss (t : Nat) (m : Miss) : Stands d (fillMiss d t m).1 := by
  unfold fillMiss
  split
  · exact .refl d
  next v bad blank _ =>
    have h := stands_fillWaiters m.loc v bad blank m.waiters d
    dsimp only
    revert h
    generalize fillWaiters m.loc v bad blank d m.waiters = r
    intro h
    split
    · dsimp only
      exact (h.trans (stands_unclaim _ m.loc)).trans (stands_onSlice _ t _)
    · dsimp only
      exact h.trans (stands_onSlice _ t _)

end Hits

end Sys2Proof.Machine
end

section
/-!
What settling leaves alone, the end of it: whole bolts, misses and the units' accesses, and the parts that wait.
-/
namespace Sys2Proof.Machine
open Sys2Proof.Claims

/-! ## Whole bolts -/

section Bolts
variable (d : Dev)

theorem stands_cancelBolt (bolt t : Nat) : Stands d (cancelBolt bolt d t) := by
  unfold cancelBolt
  extract_lets mine d1
  have hcancelled : Stands d d1 := stands_onChan _ _ fun _ => by rfl
  exact hcancelled.trans (.foldl (fun d x => stands_onChan d x fun _ => by rfl) _ _)

theorem stands_releaseBolt (t bolt : Nat) : Stands d (releaseBolt d t bolt) := stands_onSlice ..

theorem stands_zeroMember (o : BoltOp) (m : Nat) : Stands d (zeroMember o d m) := by
  unfold zeroMember
  extract_lets t d1
  have hlines : Stands d d1 := .foldl (fun d l => (stands_invalidate d l).trans (stands_rewritten ..)) _ d
  exact (hlines.trans (stands_cancelBolt ..)).trans (stands_releaseBolt ..)

theorem stands_boltLineHit (p : Part) (h : Hint) (l : Loc) (data : LineData) : Stands d (boltLineHit p h d l data) := by
  unfold boltLineHit
  extract_lets d0
  have hrewritten : Stands d d0 := stands_rewritten ..
  split
  · exact .of_ite (hrewritten.trans (stands_putWay ..)) (hrewritten.trans (stands_place ..))
  · exact hrewritten

theorem perfStands_boltLineIn (p : Part) (h : Hint) (l : Loc) (data : LineData) : PerfStands d (boltLineIn p h d l data) := by
  unfold boltLineIn
  split
  · exact Stands.refl d
  · exact .of_ite (Stands.refl d)
      (perfStands_of_alloc d (f := fun w e => place e l p.bolt w data false (h = .keep) false) (fun _ _ => stands_place ..) (Stands.refl d))

theorem perfStands_boltApply (p : Part) (h : Hint) (l0 l1 : LineData) : PerfStands d (boltApply d p h l0 l1) := by
  unfold boltApply
  dsimp only
  have hzero := perfStands_boltLineIn d p (effHint d p h) p.loc l0
  revert hzero
  generalize boltLineIn p (effHint d p h) d p.loc l0 = r
  intro hzero
  cases r with
  | done e =>
    have hone := perfStands_boltLineIn e p (effHint d p h) (lineOne p.loc) l1
    dsimp only
    revert hone
    generalize boltLineIn p (effHint d p h) e (lineOne p.loc) l1 = q
    intro hone
    refine .of_stands hzero ?_
    cases q with
    | done x => exact (Stands.trans hone (stands_releaseBolt ..)).trans (stands_partDone ..)
    | stall x => exact hone
    | wait x => exact hone
  | stall e => exact hzero
  | wait e => exact hzero

theorem stands_park (t : Nat) (p : Part) {r : Perf} (hr : PerfStands d r) : Stands d (park t p r) := by
  unfold park
  cases r with
  | done e => exact hr
  | stall e => exact Stands.trans (e := e) hr (stands_onSlice e t _)
  | wait e => exact Stands.trans (e := e) hr (stands_onSlice e t _)

theorem stands_writeMember (o : BoltOp) (m : Nat) : Stands d (writeMember o d m) := by
  unfold writeMember
  extract_lets t l a b p h
  exact stands_park _ _ _ (.of_stands ((stands_boltLineHit ..).trans (stands_boltLineHit ..)) (perfStands_boltApply ..))

theorem stands_removeBoltOp (o : BoltOp) : Stands d (removeBoltOp d o) := stands_setPanel ..

theorem stands_finishBolt (o : BoltOp) : Stands d (finishBolt d o) := by
  unfold finishBolt
  refine .of_ite (.refl d) (.of_ite ?_ (.of_ite ?_ (.refl d)))
  · extract_lets d1 d2
    have hremoved : Stands d d1 := ((stands_removeBoltOp ..).trans (stands_blankLook ..)).trans (stands_setBlank ..)
    have hzeroed : Stands d1 d2 := .foldl (fun d m => stands_zeroMember d ..) _ d1
    exact ((hremoved.trans hzeroed).trans (stands_blankJobs ..)).trans (.foldl (fun d m => stands_partDone d ..) _ _)
  · exact ((stands_removeBoltOp ..).trans (stands_writeWholeBolt ..)).trans (.foldl (fun d m => stands_writeMember d ..) _ _)

theorem stands_boltGrant (p : Part) : Stands d (boltGrant d p) := by
  unfold boltGrant
  extract_lets pn m take d1 x d2
  have hgranted : Stands d d2 := (stands_onSlice ..).trans (stands_setPanel ..)
  split
  · exact (hgranted.trans (stands_setPanel ..)).trans (stands_finishBolt ..)
  · exact hgranted

end Bolts

/-! ## Misses and the units' accesses -/

section Misses
variable (d : Dev)

theorem stands_raiseFill (l : Loc) (prio : Nat) : Stands d (raiseFill d l prio) := by
  unfold raiseFill
  extract_lets rebuilds mine isMine ofJob up upPart upTxn e d1 ts d2
  have htxns : Stands d e := .of_parts rfl rfl
  have hjobs : Stands e d1 := by
    refine .foldl (fun d j => ?_) _ e
    split
    · exact stands_setJob ..
    · exact .refl d
  have hslices : Stands d1 d2 := .foldl (fun d t => stands_onSlice d ..) _ d1
  exact ((htxns.trans hjobs).trans hslices).trans (.foldl (fun d t => stands_onChan d t fun _ => by rfl) _ _)

theorem stands_liftRead (l : Loc) (o : Owner) (prio : Nat) : Stands d (liftRead d l o prio) := by
  unfold liftRead
  split
  · exact .of_ite ((stands_lineUnreachable ..).trans (stands_deliver ..)) (stands_startRebuild ..)
  · exact stands_deliver ..

theorem stands_outRead (l : Loc) (o : Owner) (lift : Bool) (prio : Nat) : Stands d (outRead d l o lift prio) := by
  unfold outRead
  split
  · exact stands_liftRead ..
  · exact stands_readLine ..
  · exact stands_readLine ..
  · exact stands_jobGot ..
  · exact .refl d

theorem stands_putCreate (k : EKind) (l : Loc) (bolt : Nat) (x : DLine) (verify : Bool) (job : Option Nat) :
    Stands d (putCreate d k l bolt x verify job) := by
  unfold putCreate
  split
  · exact stands_writeLine ..
  · split
    · exact .refl d
    · exact .of_ite (stands_lineDropped ..) (.of_ite (.refl d) (stands_addHam ..))
    · exact .of_ite (stands_setMend ..) (stands_addHam ..)
    · exact (stands_passColumn ..).trans (stands_addHam ..)
    · exact stands_writeBoltMember ..
    · exact .of_ite (stands_addHam ..) (stands_writeLine ..)
    · exact .of_ite (.refl d) (stands_writeLine ..)

theorem stands_rinseBack (o : Owner) : Stands d (rinseBack d o) := by
  unfold rinseBack
  split
  · split
    · exact stands_setJob ..
    · exact .refl d
  · exact .refl d

theorem perfStands_unitOp (p : Part) (u : UnitOp) : PerfStands d (unitOp d p u) := by
  unfold unitOp
  extract_lets t since d0 back
  have hdropped : Stands d d0 := stands_dropTxn ..
  have hback (e : Dev) : Stands e (back e) := stands_pushDue ..
  split
  next o lift =>
    refine .of_ite (hdropped.trans (hback _)) (.of_ite ?_ (.of_ite ?_ (.of_ite (Stands.refl d) ?_)))
    · exact (hdropped.trans (stands_outRead ..)).trans (hback _)
    · exact (hdropped.trans (stands_deliver ..)).trans (hback _)
    · exact hdropped.trans (stands_addRead ..)
  next o =>
    refine .of_ite (hdropped.trans (hback _)) (.of_ite ?_ (.of_ite ?_ (.of_ite (Stands.refl d) ?_)))
    · split
      · exact ((hdropped.trans (stands_jobGot ..)).trans (stands_jobGot ..)).trans (hback _)
      · exact hdropped.trans (hback _)
    · exact (hdropped.trans (stands_rinseBack ..)).trans (hback _)
    · have hentered : Stands d (addBg d0 p.loc o p.prio (p.master, since)) := hdropped.trans (stands_addBg ..)
      exact Stands.of_ite (hentered.trans (stands_raise ..)) hentered
  next k x verify job =>
    refine .of_ite (Stands.refl d) (.of_ite (Stands.refl d) (Stands.trans ?_ (hback _)))
    have hput : Stands d (putCreate d0 k p.loc p.bolt x verify job) := hdropped.trans (stands_putCreate ..)
    split
    · exact hput.trans (stands_putDone ..)
    · exact hput

theorem perfStands_newMiss (p : Part) (state : MissState) : PerfStands d (newMiss d p state) := by
  unfold newMiss
  extract_lets t m d1
  have hentered : Stands d d1 := (stands_onSlice ..).trans (stands_raise ..)
  refine .of_ite (Stands.refl d) ?_
  exact .of_ite (hentered.trans (stands_readLine ..)) (hentered.trans (stands_fillMiss ..))

theorem perfStands_missOp (p : Part) : PerfStands d (missOp d p) := by
  unfold missOp
  extract_lets e blank
  have hlook : Stands d e := by
    unfold e
    split
    · exact .refl d
    · exact .refl d
    · exact stands_blankLook ..
  refine .of_stands hlook ?_
  split
  · exact perfStands_newMiss ..
  · exact perfStands_newMiss ..
  · exact perfStands_newMiss ..
  · exact .of_ite (stands_decline ..) (perfStands_newMiss ..)
  · exact stands_partDone ..
  · exact stands_partDone ..
  all_goals exact Stands.refl e

theorem perfStands_perform (p : Part) : PerfStands d (perform d p) := by
  unfold perform
  split
  · exact perfStands_unitOp ..
  · exact Stands.of_ite (stands_boltGrant ..) (stands_partDone ..)
  · exact .of_ite (stands_boltGrant ..) (perfStands_boltApply ..)
  · dsimp only
    refine .of_ite ?_ (.of_stands (stands_checkEntry d p.loc) ?_)
    · exact ((stands_onSlice ..).trans (stands_raiseFill ..)).trans (stands_raise ..)
    · split
      · exact (perfStands_hitOp ..).map fun _ => stands_raise ..
      · exact perfStands_missOp ..

end Misses

/-! ## Settling -/

section Settling
variable (d : Dev)

theorem stands_pumpList (t : Nat) (ps : List Part) : ∀ d kept, Stands d (pumpList t d kept ps) := by
  induction ps with
  | nil => exact fun d kept => stands_onSlice ..
  | cons p ps ih =>
    intro d kept
    unfold pumpList
    refine .of_ite (ih ..) ?_
    have h := perfStands_perform d p
    revert h
    cases perform d p with
    | done e => exact fun h => Stands.trans h (ih ..)
    | stall e => exact fun h => (Stands.trans h (stands_onSlice ..)).trans (ih ..)
    | wait e => exact fun h => Stands.trans h (ih ..)

theorem stands_pumpHeld (t : Nat) : Stands d (pumpHeld d t) := (stands_onSlice ..).trans (stands_pumpList ..)

theorem stands_unstall (t : Nat) : Stands d (unstall d t) := by
  unfold unstall
  split
  · exact stands_park _ _ _ (.of_stands (stands_onSlice ..) (perfStands_perform ..))
  · exact .refl d

theorem stands_sweepLine (op : Nat) (l : Loc) : Stands d (sweepLine op d l) := by
  unfold sweepLine
  extract_lets s bolt e
  have hchecked : Stands d e := stands_checkEntry ..
  refine .of_ite (stands_onSlice ..) (hchecked.trans ?_)
  split
  · exact .refl e
  · dsimp only
    refine .of_ite (.of_ite (.refl e) (stands_putWay ..)) ?_
    split
    next x hx =>
      split at hx
      · exact (stands_writeBack hx).trans (.of_ite (stands_putWay ..) (stands_putWay ..))
      · exact absurd hx (by simp)
    next => exact stands_onSlice ..

theorem stands_sweepDeferred (t : Nat) : Stands d (sweepDeferred d t) := by
  unfold sweepDeferred
  refine .of_ite (.refl d) ?_
  dsimp only
  exact (stands_onSlice ..).trans (.foldl (fun d l => stands_sweepLine d ..) _ _)

theorem stands_pumpBolts (p : Nat) : Stands d (pumpBolts d p) := .foldl (fun d o => stands_finishBolt d o) _ d

theorem stands_fillBlank (t : Nat) : Stands d (fillBlank d t) := .foldl (fun d m => stands_fillMiss d t m) _ d

theorem stands_settle (t : Nat) : Stands d (settle d t) := by
  unfold settle
  extract_lets d1 d2
  have hpumped : Stands d d2 :=
    (((stands_sweepDeferred ..).trans (stands_fillBlank ..)).trans (stands_unstall ..)).trans (stands_pumpHeld ..)
  exact hpumped.trans (stands_pumpBolts ..)

theorem stands_settlePanel (p : Nat) : Stands d (settlePanel d p) :=
  (stands_pumpBolts ..).trans (.foldl (fun d t => stands_settle d t) _ _)

end Settling

end Sys2Proof.Machine
end

section
/-!
The freeze of a tile whose channel holds nothing (R273).
-/
namespace Sys2Proof.Machine
open Sys2Proof.Claims

section Leaves
variable (d : Dev)

theorem stands_ledgerPost (t off n v : Nat) : Stands d (ledgerPost t off n v d) := by
  unfold ledgerPost
  extract_lets grow d1
  have hgrown : Stands d d1 := stands_onSvc _ _ fun _ => by rfl
  exact hgrown.trans (.foldl (fun d _ => stands_post d ..) _ _)

theorem stands_saveHeader (t : Nat) : Stands d (saveHeader d t) := stands_ledgerPost ..

theorem stands_stopMove (t : Nat) : Stands d (stopMove d t) := by
  unfold stopMove
  split
  · dsimp only
    split
    · exact (stands_dropJob ..).trans (stands_onSvc _ _ fun _ => by rfl)
    · exact stands_onSvc _ _ fun _ => by rfl
  · exact .refl d

theorem stands_dropLift (t : Nat) : Stands d (dropLift d t) := by
  unfold dropLift
  extract_lets d1
  have hdropped : Stands d d1 := by
    unfold d1
    split
    · exact stands_dropJob ..
    · exact .refl d
  split
  · exact (hdropped.trans (stands_setLift ..)).trans (stands_onSvc _ _ fun _ => by rfl)
  · exact hdropped

theorem stands_kickPanel (p : Nat) : Stands d (kickPanel d p) := .foldl (fun d _ => stands_kickJob d ..) _ d

theorem liftStep_of_not_lifting {t : Nat} (h : (svc d t).state ≠ .lifting) : liftStep d t = d := by
  unfold liftStep
  dsimp only
  split
  next hlifting _ => exact absurd hlifting h
  next => rfl

/-- What waits for a channel that is out goes on without it (R367). -/
theorem stands_channelFreed {t : Nat} (h : (svc d t).state = .out) : Stands d (channelFreed d t) := by
  have hkicked : Stands d (kickPanel d (panelOf d t)) := stands_kickPanel ..
  have hout : (svc (kickPanel d (panelOf d t)) t).state = .out := (congrArg Prod.fst (hkicked.svc t)).trans h
  unfold channelFreed
  dsimp only
  rw [liftStep_of_not_lifting _ (by rw [hout]; decide)]
  exact hkicked.trans (stands_settlePanel ..)

end Leaves

/-! ## A channel that holds nothing -/

section Bare
variable {c : Chan} {t : Nat} {a : Alert} (hbare : bareChan c)
include hbare

theorem resv_of_bare : c.resv = [] := by
  obtain ⟨_, _, _, _, _, _, hresv⟩ := hbare
  exact hresv

theorem windowWrites_of_bare : windowWrites c t a = [] := by
  obtain ⟨_, _, _, _, _, hrecent, _⟩ := hbare
  rw [windowWrites, hrecent]
  rfl

theorem liveReads_of_bare : liveReads c = [] := by
  obtain ⟨hrq, _, _, hfly, _⟩ := hbare
  rw [liveReads, hrq, hfly]
  rfl

theorem liveBg_of_bare : liveBg c = [] := by
  obtain ⟨_, hbg, _, hfly, _⟩ := hbare
  rw [liveBg, hbg, hfly]
  rfl

theorem liveHam_of_bare : liveHam c t a = [] := by
  have hwrites := windowWrites_of_bare (t := t) (a := a) hbare
  obtain ⟨_, _, hham, _, hawaiting, _⟩ := hbare
  rw [liveHam, hwrites, hham, hawaiting]
  rfl

end Bare

theorem freezeMem_of_bare {m : SMap DLine} {d : Dev} {t : Nat} {a : Alert} (hbare : bareChan (chan d t)) : freezeMem m d t a = (m, d) := by
  have hwrites := windowWrites_of_bare (t := t) (a := a) hbare
  obtain ⟨_, _, _, _, hawaiting, _⟩ := hbare
  rw [freezeMem, hwrites, hawaiting]
  rfl

theorem slotWaiters_of_no_jobs {d : Dev} {t : Nat} (h : (getPanel d (panelOf d t)).jobs = []) : slotWaiters d t = [] := by
  rw [slotWaiters, h]
  rfl

/-- The snapshot of a channel that holds nothing has no entry. -/
theorem takeSnap_of_bare {d : Dev} {t : Nat} {a : Alert} (hbare : bareChan (chan d t)) (hjobs : (getPanel d (panelOf d t)).jobs = []) :
    (takeSnap d t a).source = a.source ∧ (takeSnap d t a).winWrites = 0 ∧ (takeSnap d t a).entries = [] := by
  refine ⟨rfl, ?_, ?_⟩
  · exact congrArg List.length (windowWrites_of_bare hbare)
  · unfold takeSnap
    dsimp only
    rw [liveReads_of_bare hbare, liveBg_of_bare hbare, liveHam_of_bare hbare, slotWaiters_of_no_jobs hjobs]
    rfl

/-! ## The freeze -/

/-- A tile that is frozen with a snapshot, its report ended and its two events raised. -/
structure FrozenWith (x : Snapshot) (t : Nat) (d : Dev) : Prop where
  svc : standsAs (svc d t) = (.out, .frozen, some x)
  alert : (chan d t).alert = none
  frozen : isPending d Ev.TILE_FROZEN
  out : isPending d Ev.CHANNEL_OUT

theorem FrozenWith.of_stands {x : Snapshot} {t : Nat} {d e : Dev} (hd : FrozenWith x t d) (h : Stands d e) : FrozenWith x t e :=
  ⟨(h.svc t).trans hd.svc, (h.alert t).trans hd.alert, h.isPending (by decide) hd.frozen, h.isPending (by decide) hd.out⟩

theorem FrozenWith.channelFreed {x : Snapshot} {t : Nat} {d : Dev} (hd : FrozenWith x t d) : FrozenWith x t (channelFreed d t) :=
  hd.of_stands (stands_channelFreed d (congrArg Prod.fst hd.svc))

theorem frozenWith_raises {x : Snapshot} {t : Nat} {d : Dev} (hsvc : standsAs (Machine.svc d t) = (.out, .frozen, some x))
    (halert : (chan d t).alert = none) : FrozenWith x t (raise (raise d Ev.TILE_FROZEN) Ev.CHANNEL_OUT) := by
  have hfrozen : Stands d (raise d Ev.TILE_FROZEN) := stands_raise ..
  have hout : Stands (raise d Ev.TILE_FROZEN) (raise (raise d Ev.TILE_FROZEN) Ev.CHANNEL_OUT) := stands_raise ..
  exact ⟨((hfrozen.trans hout).svc t).trans hsvc, ((hfrozen.trans hout).alert t).trans halert,
    hout.isPending (by decide) (isPending_raise _ _ _ (by decide)), isPending_raise _ _ _ (by decide)⟩

theorem tileFreeze_of_bare {m : SMap DLine} {d : Dev} {t : Nat} {a : Alert} (halert : (chan d t).alert = some a) (hbare : bareChan (chan d t))
    (hin : (svc d t).state = .in_) : ∃ e, tileFreeze m d t = (m, e) ∧ FrozenWith (takeSnap d t a) t e := by
  unfold tileFreeze
  rw [halert]
  dsimp -zeta only
  rw [freezeMem_of_bare hbare]
  extract_lets c snap p close base shut d2 d3 d4 out d5 d6 d7 d8 d9 d10 late
  refine ⟨_, rfl, FrozenWith.channelFreed ?_⟩
  have hstopped : Stands d (stopMove d t) := stands_stopMove ..
  have hshut : svc d2 t = svc (stopMove d t) t ∧ (chan d2 t).alert = none :=
    ⟨svc_onChan .., by unfold d2; rw [chan_onChan]; rfl⟩
  have hlift : Stands d2 d3 := stands_dropLift ..
  have hstate : (svc d3 t).state = .in_ := by
    have h := congrArg Prod.fst ((hlift.svc t).trans ((congrArg standsAs hshut.1).trans (hstopped.svc t)))
    exact h.trans hin
  have hwalk : d4 = d3 := if_neg (by rw [hstate]; decide)
  have hdouble : Stands (out d3) d5 := by
    unfold d5
    rw [hwalk]
    exact .of_ite (stands_raise ..) (.refl _)
  have hsvc : standsAs (svc d5 t) = (.out, .frozen, some snap) := by
    refine (hdouble.svc t).trans ?_
    unfold out
    rw [svc_onSvc]
    rfl
  have hchan : (chan d5 t).alert = none := by
    refine (hdouble.alert t).trans ?_
    unfold out
    rw [chan_onSvc]
    exact (hlift.alert t).trans hshut.2
  have hkept : d8 = d5 := by
    have hresv : c.resv = [] := resv_of_bare hbare
    unfold d8 d7 d6
    rw [liveReads_of_bare hbare, liveBg_of_bare hbare, liveHam_of_bare hbare, hresv,
      List.append_nil, List.foldl_nil, List.foldl_nil, List.foldl_nil]
  have hraised : FrozenWith snap t (raise (raise d8 Ev.TILE_FROZEN) Ev.CHANNEL_OUT) := by
    rw [hkept]
    exact frozenWith_raises hsvc hchan
  have hlint : FrozenWith snap t d10 := hraised.of_stands ((stands_lint ..).trans (stands_lint ..))
  exact hlint.of_stands (.of_ite (stands_saveHeader ..) (.refl _))

/-- TILE_FREEZE of a channel that holds nothing (R273). -/
theorem ends_tileFreeze {t : Fin 320} {a : Alert} {s : State} (halert : (chan s.dev t.val).alert = some a)
    (hbare : bareChan (chan s.dev t.val)) (hin : (svc s.dev t.val).state = .in_) (hidle : idlePanel s.dev (panelOf s.dev t.val)) :
    EndsDev (.tileFreeze t) s fun d =>
      (svc d t.val).state = .out ∧ (svc d t.val).reason = .frozen ∧ (chan d t.val).alert = none ∧
      (∃ x, (svc d t.val).snap = some x ∧ x.source = a.source ∧ x.winWrites = 0 ∧ x.entries = []) ∧
      isPending d Ev.TILE_FROZEN ∧ isPending d Ev.CHANNEL_OUT := by
  obtain ⟨e, hfreeze, hfrozen⟩ := tileFreeze_of_bare (m := s.dram) halert hbare hin
  refine ⟨e, ?_, ?_⟩
  · change onMem s (fun m d => tileFreeze m d t.val) = _
    rw [onMem, hfreeze]
  · obtain ⟨hstands, hcleared, hpf, hpo⟩ := hfrozen
    obtain ⟨hstate, hrest⟩ := Prod.mk.inj hstands
    obtain ⟨hreason, hsnap⟩ := Prod.mk.inj hrest
    exact ⟨hstate, hreason, hcleared, ⟨_, hsnap, takeSnap_of_bare hbare hidle.2.1⟩, hpf, hpo⟩

end Sys2Proof.Machine
end

section
/-!
Parity reports: the check of the buses, what a layer discards, and the report that stops the hem (R271, R406, R407).
-/
namespace Sys2Proof.Machine
open Sys2Proof.Claims

/-! ## Parity of a word -/

theorem foldl_bne_bne (l : List Nat) (f g : Nat → Bool) (a b : Bool) :
    l.foldl (fun acc i => acc != (f i != g i)) (a != b) = (l.foldl (fun acc i => acc != f i) a != l.foldl (fun acc i => acc != g i) b) := by
  induction l generalizing a b with
  | nil => rfl
  | cons i l ih =>
    have hswap : ((a != b) != (f i != g i)) = ((a != f i) != (b != g i)) := by
      generalize f i = x
      generalize g i = y
      revert a b x y
      decide
    rw [List.foldl_cons, List.foldl_cons, List.foldl_cons, hswap, ih]

theorem isOdd_xor {n : Nat} (v w : BitVec n) : isOdd (v ^^^ w) = (isOdd v != isOdd w) := by
  refine Eq.trans ?_ (foldl_bne_bne (List.range n) v.getLsbD w.getLsbD false false)
  exact List.foldl_ext _ _ _ fun acc i _ => by rw [BitVec.getLsbD_xor]

theorem isOdd_succ {n : Nat} (x : BitVec (n + 1)) : isOdd x = (isOdd (x.setWidth n) != x.getLsbD n) := by
  have hlow : (List.range n).foldl (fun acc i => acc != x.getLsbD i) false = isOdd (x.setWidth n) := by
    refine List.foldl_ext _ _ _ fun acc i hi => ?_
    rw [BitVec.getLsbD_setWidth, decide_eq_true (List.mem_range.mp hi), Bool.true_and]
  rw [isOdd, List.range_succ, List.foldl_append, hlow]
  rfl

/-- An edge driven with its parity fails where an odd number of its bits flip, the parity bit among them. -/
theorem edgeFails_flipped {n : Nat} (v : BitVec n) (x : BitVec (n + 1)) :
    edgeFails (v ^^^ x.setWidth n) (isOdd v != x.getLsbD n) = isOdd x := by
  rw [edgeFails, isOdd_xor, isOdd_succ x]
  generalize isOdd v = a
  generalize isOdd (x.setWidth n) = b
  generalize x.getLsbD n = c
  revert a b c
  decide

/-! ## The check of the buses -/

/-- The hem drives every edge with its parity (R406). -/
def EvenEdges (s : Seam) : Prop := s.rpar = parityOf s.ra ∧ s.cpar = parityOf s.ca

theorem evenEdges_at {s : Seam} (h : EvenEdges s) (n : Nat) : EvenEdges { s with at_ := n } := h

theorem evenEdges_none (s : Seam) (n : Nat) :
    EvenEdges { s with at_ := n, ra := (0, 0), rpar := (false, false), ca := (0, 0), cpar := (false, false) } := by
  constructor
  · change (false, false) = parityOf ((0 : BitVec 10), (0 : BitVec 10))
    decide
  · change (false, false) = parityOf ((0 : BitVec 8), (0 : BitVec 8))
    decide

theorem evenEdges_driveAt {s : Seam} (h : EvenEdges s) (t n : Nat) (x : Cmd) : EvenEdges (driveAt t n x s) := by
  unfold driveAt
  extract_lets s0 re ce
  have hs0 : EvenEdges s0 := by
    unfold s0
    split
    · exact h
    · exact evenEdges_none s n
  split
  · exact hs0
  · split
    · exact ⟨rfl, hs0.2⟩
    · exact ⟨hs0.1, rfl⟩

theorem evenEdges_busAt (c : Chan) (t n : Nat) : EvenEdges (busAt c t n) := by
  unfold busAt
  generalize c.history.filter _ = l
  have hreset : EvenEdges { Reset.seam with at_ := n } := evenEdges_at (s := Reset.seam) ⟨by decide, by decide⟩ n
  revert hreset
  generalize { Reset.seam with at_ := n } = s
  intro hs
  induction l generalizing s with
  | nil => exact hs
  | cons x l ih => exact ih _ (evenEdges_driveAt hs t n x)

theorem busFails_of_even {s : Seam} (h : EvenEdges s) (safe : Bool) (f : BusFlips) :
    busFails safe s f = ((isOdd f.row0 || (!safe && isOdd f.row1)), (isOdd f.col0 || (!safe && isOdd f.col1))) := by
  obtain ⟨hrow, hcol⟩ := h
  unfold busFails
  dsimp only
  rw [hrow, hcol]
  unfold parityOf
  dsimp only
  rw [edgeFails_flipped, edgeFails_flipped, edgeFails_flipped, edgeFails_flipped]

theorem busFails_busAt (c : Chan) (t n : Nat) (safe : Bool) (f : BusFlips) :
    busFails safe (busAt c t n) f = ((isOdd f.row0 || (!safe && isOdd f.row1)), (isOdd f.col0 || (!safe && isOdd f.col1))) :=
  busFails_of_even (evenEdges_busAt c t n) safe f

/-! ## The NCLK that a report names -/

section Cycle
variable {d : Dev} {t : Nat} {src : BitVec 2} {f : BusFlips} {at_ : Nat}

theorem reportSafe_of_not_safe (h0 : isSafe (layerOf d t 0) = false) (h1 : isSafe (layerOf d t 1) = false) : reportSafe d t src = false := by
  unfold reportSafe
  rw [List.all_cons, List.all_cons, List.all_nil, h0, h1]
  revert src
  decide

theorem failingCycle_of_not_safe {n : Nat} {row col : Bool} (h0 : isSafe (layerOf d t 0) = false) (h1 : isSafe (layerOf d t 1) = false)
    (h : failingCycle d t src f at_ = some (n, row, col)) :
    n = at_ - 4 ∧ (row, col) = busFails false (busAt (chan d t) t n) f ∧ (row = true ∨ col = true) := by
  unfold failingCycle at h
  dsimp only at h
  rw [reportSafe_of_not_safe h0 h1] at h
  have hfails := List.find?_some h
  have hmem := List.mem_of_find?_eq_some h
  obtain ⟨k, hk, heq⟩ := List.mem_map.mp hmem
  obtain ⟨hn, hbus⟩ := Prod.mk.inj heq
  have hfour : k = 4 := List.mem_singleton.mp hk
  rw [hfour] at hn hbus
  exact ⟨hn.symm, by rw [← hn, hbus], by simpa using hfails⟩

theorem failingCycle_of_even (hr0 : isOdd f.row0 = false) (hr1 : isOdd f.row1 = false) (hc0 : isOdd f.col0 = false)
    (hc1 : isOdd f.col1 = false) : failingCycle d t src f at_ = none := by
  unfold failingCycle
  dsimp only
  refine List.find?_eq_none.mpr fun e he => ?_
  obtain ⟨k, _, rfl⟩ := List.mem_map.mp he
  dsimp only
  rw [busFails_busAt, hr0, hr1, hc0, hc1]
  simp

end Cycle

/-! ## What a report discards -/

/-- What a layer's discarded commands leave alone: the services, the slices, the reports and the registers. -/
structure DiscardKeeps (d e : Dev) : Prop where
  svc : ∀ t, svc e t = svc d t
  slice : ∀ t, slice e t = slice d t
  alert : ∀ t, (chan e t).alert = (chan d t).alert
  regs : e.regs = d.regs

namespace DiscardKeeps
variable {d e f : Dev}

theorem refl (d : Dev) : DiscardKeeps d d := ⟨fun _ => rfl, fun _ => rfl, fun _ => rfl, rfl⟩

theorem trans (h : DiscardKeeps d e) (h' : DiscardKeeps e f) : DiscardKeeps d f :=
  ⟨fun t => (h'.svc t).trans (h.svc t), fun t => (h'.slice t).trans (h.slice t), fun t => (h'.alert t).trans (h.alert t), h'.regs.trans h.regs⟩

theorem of_ite {c : Prop} [Decidable c] (he : DiscardKeeps d e) (hf : DiscardKeeps d f) : DiscardKeeps d (if c then e else f) := by
  split
  · exact he
  · exact hf

theorem foldl {α : Type} {g : Dev → α → Dev} (hg : ∀ d a, DiscardKeeps d (g d a)) (l : List α) (d : Dev) :
    DiscardKeeps d (l.foldl g d) := by
  induction l generalizing d with
  | nil => exact .refl d
  | cons a l ih => exact (hg d a).trans (ih _)

end DiscardKeeps

section Discards
variable (d : Dev) (t : Nat)

theorem discardKeeps_onLayer (k : Nat) (f : Layer → Layer) : DiscardKeeps d (onLayer d t k f) :=
  ⟨fun _ => rfl, fun _ => rfl, fun _ => rfl, rfl⟩

theorem discardKeeps_onChan {f : Chan → Chan} (hf : ∀ c, (f c).alert = c.alert) : DiscardKeeps d (onChan d t f) := by
  refine ⟨fun u => by rw [svc_onChan], fun u => by rw [slice_onChan], fun u => ?_, rfl⟩
  by_cases h : u = t
  · rw [h, chan_onChan, hf]
  · rw [chan_onChan_ne _ _ _ _ h]

theorem discardKeeps_discardMode (n k : Nat) : DiscardKeeps d (discardMode t n d k) := by
  unfold discardMode
  dsimp only
  split
  · exact .refl d
  · exact (discardKeeps_onChan _ _ fun _ => by rfl).trans (discardKeeps_onLayer ..)

/-- A discarded row command takes back what a rank was to do, and with it no mode register but MR6. -/
theorem discardRow_cases (n k : Nat) : discardRow t n d k = d ∨
    ∃ f : Rank → Rank, discardRow t n d k = onChan d t (fun c => setRank c k (f (getRank c k))) ∨
      ∃ g : Layer → BitVec 16, discardRow t n d k =
        onLayer (onChan d t fun c => setRank c k (f (getRank c k))) t k fun y => { y with mr6 := g y } := by
  unfold discardRow
  dsimp only
  split
  · exact .inl rfl
  · split
    · exact .inr ⟨fun r => { r with down := false }, .inl rfl⟩
    · split
      · exact .inr ⟨fun r => { r with down := true }, .inl rfl⟩
      · split
        · exact .inr ⟨fun r => { r with selfRefresh := false }, .inr ⟨_, rfl⟩⟩
        · split
          · exact .inr ⟨fun r => { r with selfRefresh := true }, .inl rfl⟩
          · exact .inl rfl

theorem discardKeeps_discardRow (n k : Nat) : DiscardKeeps d (discardRow t n d k) := by
  obtain h | ⟨f, h | ⟨g, h⟩⟩ := discardRow_cases d t n k
  · rw [h]
    exact .refl d
  · rw [h]
    exact discardKeeps_onChan _ _ fun _ => by rfl
  · rw [h]
    exact DiscardKeeps.trans (discardKeeps_onChan _ _ fun _ => by rfl) (discardKeeps_onLayer ..)

theorem discardKeeps_discard (n : Nat) (src : BitVec 2) (row col : Bool) : DiscardKeeps d (discard d t n src row col) := by
  unfold discard
  extract_lets ks d1
  have hmode : DiscardKeeps d d1 := .of_ite (.foldl (fun d k => discardKeeps_discardMode d t n k) _ d) (.refl d)
  exact .of_ite (hmode.trans (.foldl (fun d k => discardKeeps_discardRow d t n k) _ _)) hmode

theorem discardKeeps_countPerr (src : BitVec 2) (n : Nat) : DiscardKeeps d (countPerr d t src n) := by
  have hlayer (e : Dev) (k : Nat) : DiscardKeeps e (if src.getLsbD k then iter n (fun _ d => onLayer d t k layerPerr) e else e) :=
    .of_ite (.foldl (fun d _ => discardKeeps_onLayer d t k layerPerr) _ e) (.refl e)
  exact .of_ite (.refl d) (.foldl hlayer _ d)

/-- The instance with the report's commands discarded, its errors counted and its pulse held. -/
def reportedBy (d : Dev) (t n at_ : Nat) (src : BitVec 2) (row col : Bool) : Dev :=
  onChan (countPerr (discard d t n src row col) t src (bit row + bit col)) t (holdLow t src at_)

theorem discardKeeps_reportedBy (n at_ : Nat) (src : BitVec 2) (row col : Bool) : DiscardKeeps d (reportedBy d t n at_ src row col) := by
  refine ((discardKeeps_discard d t n src row col).trans (discardKeeps_countPerr ..)).trans (discardKeeps_onChan _ _ fun c => ?_)
  unfold holdLow
  split <;> rfl

end Discards

/-! ## The report -/

section Report
variable {d : Dev} {t : Nat} {src : BitVec 2} {f : BusFlips} {onRef : Bool} {at_ n : Nat} {row col : Bool}

/-- The NCLK and the buses that a report is about: any NCLK of a stack's report, which checks by itself. -/
def reportedCycle (d : Dev) (t : Nat) (src : BitVec 2) (f : BusFlips) (at_ : Nat) : Option (Nat × Bool × Bool) :=
  if isFar t then some (at_, false, false) else failingCycle d t src f at_

/-- A report's NCLK, as the statement's two kinds of report give it. -/
theorem reportedCycle_of_report
    (h : 256 ≤ t ∧ n = at_ ∧ row = false ∧ col = false ∨ t < 256 ∧ failingCycle d t src f at_ = some (n, row, col)) :
    reportedCycle d t src f at_ = some (n, row, col) := by
  obtain ⟨hfar, rfl, rfl, rfl⟩ | ⟨hnear, hcycle⟩ := h
  · exact if_pos (decide_eq_true hfar)
  · rw [reportedCycle, if_neg (by rw [isFar, decide_eq_true_eq]; omega), hcycle]

theorem parityReport_of_no_failure (h : reportedCycle d t src f at_ = none) : parityReport d t src f onRef at_ = d := by
  unfold parityReport
  change (match reportedCycle d t src f at_ with | none => d | some (_, _, _) => _) = d
  rw [h]

theorem parityReport_of_no_clock (hck : d.pins.ck = false) : parityReport d t src f onRef at_ = d := by
  unfold parityReport
  dsimp only
  split
  · rfl
  · rw [if_pos (by rw [hck]; simp)]

theorem parityReport_of_failure (hsrc : src ≠ 0) (hck : d.pins.ck = true) (hcycle : reportedCycle d t src f at_ = some (n, row, col)) :
    parityReport d t src f onRef at_ =
      let d0 := reportedBy d t n at_ src row col
      let d1 := failEntry (if isNewPulse (chan d t) t src at_ then rinc d0 (tileOff t 0x310) 1 else d0)
      if (svc d t).state ≠ .out then onChan d1 t (setAlert src at_ (if col then [(n, src)] else []))
      else if !isNewPulse (chan d t) t src at_ then d1
      else if (svc d t).reason = .frozen && onRef then
        onSvc d1 t fun s => { s with snap := s.snap.map fun x => { x with refErr := min (x.refErr + 1) 0xFF } }
      else lint d1 0x26 { tile := t } := by
  unfold parityReport
  change (match reportedCycle d t src f at_ with | none => d | some (n, row, col) => _) = _
  rw [hcycle]
  exact if_neg (by rw [hck, decide_eq_false hsrc]; decide)

/-- The report is counted once for a new pulse, and not for one that goes on. -/
theorem counted_pulse {e : Dev} (h : e.regs = d.regs) (off : Nat) (b : Bool) :
    counted d (if b then rinc e off 1 else e) off (if b then 1 else 0) := by
  have hlt := (rget d off).isLt
  cases b with
  | true =>
    refine (toNat_rget_rinc e off 1).trans ?_
    rw [rget_congr h]
    rfl
  | false =>
    refine (congrArg BitVec.toNat (rget_congr h off)).trans ?_
    change (rget d off).toNat = min ((rget d off).toNat + 0) 0xFFFFFFFF
    omega

theorem failEntry_tiles (d : Dev) : (failEntry d).tiles = d.tiles := by
  unfold failEntry
  split <;> rfl

theorem failEntry_regs (d : Dev) : (failEntry d).regs = d.regs := by
  unfold failEntry
  split <;> rfl

end Report

end Sys2Proof.Machine
end

section
/-!
What a parity report leaves: the hem stopped and the report counted, and a mode register write that the column bus lost taken back
(R271, R407).
-/
namespace Sys2Proof.Machine
open Sys2Proof.Claims

/-! ## The hem stops -/

section Stops
variable {d : Dev} {t : Nat} {src : BitVec 2} {f : BusFlips} {onRef : Bool} {at_ n : Nat} {row col : Bool}

theorem parityReport_stops (hsrc : src ≠ 0) (hck : d.pins.ck = true) (hout : (svc d t).state ≠ .out)
    (hcycle : reportedCycle d t src f at_ = some (n, row, col)) {e : Dev} (he : e = parityReport d t src f onRef at_) :
    (chan e t).alert = some (match (chan d t).alert with
      | some a => { a with source := a.source ||| src, bad := a.bad ++ if col then [(n, src)] else [] }
      | none => ⟨src, at_, if col then [(n, src)] else []⟩) ∧
    counted d e (tileOff t 0x310) (if isNewPulse (chan d t) t src at_ then 1 else 0) ∧
    svc e t = svc d t ∧ ∀ k, slice e k = slice d k := by
  rw [parityReport_of_failure hsrc hck hcycle] at he
  dsimp only at he
  rw [if_pos hout] at he
  have hkept : DiscardKeeps d (reportedBy d t n at_ src row col) := discardKeeps_reportedBy ..
  revert he hkept
  generalize reportedBy d t n at_ src row col = d0
  intro he hkept
  have hcount := counted_pulse hkept.regs (tileOff t 0x310) (isNewPulse (chan d t) t src at_)
  have htiles : (failEntry (if isNewPulse (chan d t) t src at_ then rinc d0 (tileOff t 0x310) 1 else d0)).tiles = d0.tiles := by
    rw [failEntry_tiles]
    split
    · exact rinc_tiles ..
    · rfl
  have hregs := failEntry_regs (if isNewPulse (chan d t) t src at_ then rinc d0 (tileOff t 0x310) 1 else d0)
  revert he htiles hregs hcount
  generalize (if isNewPulse (chan d t) t src at_ then rinc d0 (tileOff t 0x310) 1 else d0) = d1
  generalize failEntry d1 = d2
  intro he hcount htiles hregs
  have hchan : (chan d2 t).alert = (chan d t).alert :=
    (congrArg (fun x : Tile => x.chan.alert) (getTile_congr htiles t)).trans (hkept.alert t)
  subst he
  refine ⟨?_, ?_, ?_, fun k => ?_⟩
  · rw [chan_onChan, setAlert, hchan] <;> rfl
  · exact (congrArg BitVec.toNat (rget_congr (hregs : (onChan d2 t _).regs = d1.regs) _)).trans hcount
  · rw [svc_onChan]
    exact (congrArg Tile.svc (getTile_congr htiles t)).trans (hkept.svc t)
  · rw [slice_onChan]
    exact (congrArg Tile.slice (getTile_congr htiles k)).trans (hkept.slice k)

end Stops

/-! ## A mode register write that was lost -/

/-- The layer's mode register holds what it held before the write, and no write is left to take back. -/
structure TakenBack (t k reg old : Nat) (d : Dev) : Prop where
  mode : mrOf (layerOf d t k) reg = BitVec.ofNat 16 old
  writes : (chan d t).mrws = []

section TakenBack
variable {t k reg old n : Nat} {d : Dev}

theorem chan_onLayer (d : Dev) (t j u : Nat) (f : Layer → Layer) : chan (onLayer d t j f) u = chan d u := rfl

theorem layerOf_onLayer_ne {j : Nat} (h : k ≠ j) (f : Layer → Layer) : layerOf (onLayer d t j f) t k = layerOf d t k :=
  mgetD_mputD_ne _ _ _ _ _ (by omega)

theorem layerOf_onLayer (f : Layer → Layer) : layerOf (onLayer d t k f) t k = f (layerOf d t k) := mgetD_mputD ..

theorem TakenBack.onLayer (h : TakenBack t k reg old d) (j : Nat) {f : Layer → Layer} (hf : ∀ x, mrOf (f x) reg = mrOf x reg) :
    TakenBack t k reg old (onLayer d t j f) := by
  refine ⟨?_, h.writes⟩
  by_cases hj : k = j
  · rw [← hj, layerOf_onLayer, hf]
    exact h.mode
  · rw [layerOf_onLayer_ne hj]
    exact h.mode

theorem TakenBack.onChan (h : TakenBack t k reg old d) {f : Chan → Chan} (hf : ∀ c, (f c).mrws = c.mrws) :
    TakenBack t k reg old (onChan d t f) :=
  ⟨h.mode, by rw [chan_onChan, hf]; exact h.writes⟩

theorem TakenBack.of_parts {e : Dev} (h : TakenBack t k reg old d) (htiles : e.tiles = d.tiles) (hlayer : e.layer = d.layer)
    (hlayers : e.layers = d.layers) : TakenBack t k reg old e := by
  refine ⟨?_, ?_⟩
  · have hsame : layerOf e t k = layerOf d t k := by rw [layerOf, hlayer, hlayers]; rfl
    rw [hsame]
    exact h.mode
  · exact (congrArg (fun x : Tile => x.chan.mrws) (getTile_congr htiles t)).trans h.writes

theorem TakenBack.onSvc (h : TakenBack t k reg old d) (f : Svc → Svc) : TakenBack t k reg old (onSvc d t f) :=
  ⟨h.mode, by rw [chan_onSvc]; exact h.writes⟩

theorem TakenBack.foldl {α : Type} {g : Dev → α → Dev} (hg : ∀ d a, TakenBack t k reg old d → TakenBack t k reg old (g d a)) (l : List α)
    (h : TakenBack t k reg old d) : TakenBack t k reg old (l.foldl g d) := by
  induction l generalizing d with
  | nil => exact h
  | cons a l ih => exact ih (hg d a h)

/-- The command of the rank whose column bus failed in NCLK n, or one whose second half of SAFE mode that was. -/
def losesWrite (c : Chan) (n k : Nat) (e : ModeWrite) : Bool :=
  e.rank = k && (e.at_ = n || (e.at_ + 1 = n && c.history.any fun x => x.at_ = e.at_ && x.safe))

theorem losesWrite_of_other_rank {c : Chan} {k : Nat} {e : ModeWrite} (h : e.rank ≠ k) : losesWrite c n k e = false := by
  rw [losesWrite, decide_eq_false h, Bool.false_and]

theorem losesWrite_same {c : Chan} {e : ModeWrite} (h : e.at_ = n) : losesWrite c n e.rank e = true := by
  rw [losesWrite, decide_eq_true rfl, decide_eq_true h]
  rfl

theorem discardMode_eq (d : Dev) (k : Nat) : discardMode t n d k =
    match (chan d t).mrws.find? (losesWrite (chan d t) n k) with
    | none => d
    | some e =>
      onLayer (onChan d t fun c => { c with mrws := c.mrws.filter fun x => !losesWrite (chan d t) n k x }) t k
        (undoMode ((((chan d t).mrws.takeWhile fun x => !losesWrite (chan d t) n k x).filter fun x => x.rank = k).map ModeWrite.undo)
          e.undo) := rfl

theorem discardMode_of_other_rank {k : Nat} (h : ∀ e ∈ (chan d t).mrws, e.rank ≠ k) : discardMode t n d k = d := by
  rw [discardMode_eq, List.find?_eq_none.mpr fun e he => by rw [losesWrite_of_other_rank (h e he)]; decide]

/-- A layer takes back the one write that its column bus lost. -/
theorem takenBack_discardMode {e : ModeWrite} (hwrites : (chan d t).mrws = [e]) (hat : e.at_ = n) (hundo : e.undo = .mr reg old)
    (hreg : reg = 2 ∨ reg = 6) : TakenBack t e.rank reg old (discardMode t n d e.rank) := by
  have hlost : losesWrite (chan d t) n e.rank e = true := losesWrite_same hat
  have hkept : ¬(!losesWrite (chan d t) n e.rank e) = true := by rw [hlost]; decide
  rw [discardMode_eq, hwrites, List.find?_cons_of_pos hlost,
    List.takeWhile_cons_of_neg (p := fun x => !losesWrite (chan d t) n e.rank x) hkept]
  dsimp only
  rw [hundo]
  refine ⟨?_, ?_⟩
  · rw [layerOf_onLayer]
    obtain rfl | rfl := hreg <;> rfl
  · rw [chan_onLayer, chan_onChan]
    dsimp only
    rw [hwrites]
    exact List.filter_cons_of_neg hkept

theorem takenBack_discardModes {e : ModeWrite} (hwrites : (chan d t).mrws = [e]) (hat : e.at_ = n) (hundo : e.undo = .mr reg old)
    (hreg : reg = 2 ∨ reg = 6) {ks : List Nat} (hks : e.rank ∈ ks) : TakenBack t e.rank reg old (ks.foldl (discardMode t n) d) := by
  induction ks with
  | nil => exact absurd hks (List.not_mem_nil)
  | cons k ks ih =>
    rw [List.foldl_cons]
    by_cases hk : e.rank = k
    · rw [← hk]
      refine TakenBack.foldl (fun d k h => ?_) ks (takenBack_discardMode hwrites hat hundo hreg)
      rw [discardMode_of_other_rank (by rw [h.writes]; exact fun e he => absurd he (List.not_mem_nil))]
      exact h
    · rw [discardMode_of_other_rank (by rw [hwrites]; exact fun x hx => by rw [List.mem_singleton.mp hx]; exact hk)]
      exact ih ((List.mem_cons.mp hks).resolve_left hk)

theorem TakenBack.discardRow (h : TakenBack t k 2 old d) (j : Nat) : TakenBack t k 2 old (discardRow t n d j) := by
  obtain heq | ⟨f, heq | ⟨g, heq⟩⟩ := discardRow_cases d t n j
  · rw [heq]
    exact h
  · rw [heq]
    exact h.onChan fun _ => by rfl
  · rw [heq]
    exact (h.onChan fun _ => by rfl).onLayer j fun _ => rfl

theorem takenBack_discard {e : ModeWrite} {src : BitVec 2} {row : Bool} (hwrites : (chan d t).mrws = [e]) (hat : e.at_ = n)
    (hrank : e.rank < 2) (hsrc : src.getLsbD e.rank = true) (hundo : e.undo = .mr reg old) (hreg : reg = 2 ∨ (reg = 6 ∧ row = false)) :
    TakenBack t e.rank reg old (discard d t n src row true) := by
  have hks : e.rank ∈ [0, 1].filter fun k => src.getLsbD k :=
    List.mem_filter.mpr ⟨by simp only [List.mem_cons, List.not_mem_nil]; omega, hsrc⟩
  unfold discard
  dsimp only
  rw [if_pos rfl]
  have hmodes := takenBack_discardModes hwrites hat hundo (hreg.imp id And.left) hks
  obtain rfl | ⟨_, rfl⟩ := hreg
  · split
    · exact TakenBack.foldl (fun _ k h => h.discardRow k) _ hmodes
    · exact hmodes
  · exact hmodes

theorem TakenBack.countPerr (h : TakenBack t k reg old d) (hreg : reg = 2 ∨ reg = 6) (src : BitVec 2) (n : Nat) :
    TakenBack t k reg old (countPerr d t src n) := by
  have hlayer (x : Layer) : mrOf (layerPerr x) reg = mrOf x reg := by obtain rfl | rfl := hreg <;> rfl
  unfold Machine.countPerr
  split
  · exact h
  · refine TakenBack.foldl (fun d k h => ?_) _ h
    split
    · exact TakenBack.foldl (fun _ _ h => h.onLayer k hlayer) _ h
    · exact h

theorem TakenBack.failEntry (h : TakenBack t k reg old d) : TakenBack t k reg old (failEntry d) := by
  unfold Machine.failEntry
  split
  · exact h.of_parts rfl rfl rfl
  · exact h

theorem takenBack_parityReport {src : BitVec 2} {f : BusFlips} {onRef : Bool} {at_ : Nat} {row : Bool} (hsrc : src ≠ 0)
    (hck : d.pins.ck = true) (hcycle : reportedCycle d t src f at_ = some (n, row, true))
    (hback : TakenBack t k reg old (discard d t n src row true)) (hreg : reg = 2 ∨ reg = 6) :
    TakenBack t k reg old (parityReport d t src f onRef at_) := by
  have hreported : TakenBack t k reg old (reportedBy d t n at_ src row true) :=
    (hback.countPerr hreg ..).onChan fun c => by unfold holdLow; split <;> rfl
  rw [parityReport_of_failure hsrc hck hcycle]
  dsimp only
  revert hreported
  generalize reportedBy d t n at_ src row true = d0
  intro hreported
  have hentry : TakenBack t k reg old
      (Machine.failEntry (if isNewPulse (chan d t) t src at_ then rinc d0 (tileOff t 0x310) 1 else d0)) := by
    refine TakenBack.failEntry ?_
    split
    · exact hreported.of_parts (rinc_tiles ..) (rinc_layer ..) (rinc_layers ..)
    · exact hreported
  split
  · exact hentry.onChan fun _ => by rfl
  · split
    · exact hentry
    · split
      · exact hentry.onSvc _
      · exact hentry.of_parts (lint_tiles ..) (lint_layer ..) (lint_layers ..)

end TakenBack

end Sys2Proof.Machine
end

section
/-!
The host's release of a frozen tile (R275, R276, R496).
-/
namespace Sys2Proof.Machine
open Sys2Proof.Claims

/-! ## DLT_FRZ_RELEASE -/

section Release
variable (d : Dev) (t : Nat)

theorem regCmd_frzRelease (ht : t < 320) (m : SMap DLine) (v : Word) :
    regCmd m d (tileOff t 0x04C) v = some ((m, (frzRelease d t (bits v 1 0)).1), (frzRelease d t (bits v 1 0)).2) := by
  have hoff : tileOff t 0x04C = 0x100000 + 0x1000 * t + 0x04C := rfl
  have htile : (tileOff t 0x04C - 0x100000) / 0x1000 = t := by omega
  have hreg : tileOff t 0x04C % 0x1000 = 0x04C := by omega
  rw [regCmd, if_pos (by omega), htile, hreg]
  · rfl
  all_goals omega

theorem isHemCmd_frzRelease (v : Word) : isHemCmd (tileOff t 0x04C) v = false := by
  have hoff : tileOff t 0x04C = 0x100000 + 0x1000 * t + 0x04C := rfl
  rw [isHemCmd, Bool.and_eq_false_iff, decide_eq_false_iff_not]
  exact .inl (by omega)

/-- What the port leaves of a release of a frozen tile, by the function that its action runs. -/
theorem ends_frzRelease {c : Instr} {s : State} {t : Fin 320} {v : Word} {f : Dev → Dev} {P : Dev → Prop}
    (hc : exec c s = hostCmd (tileOff t.val 0x04C) v s) (hs : hostServed s.dev (tileOff t.val 0x04C))
    (hf : frzRelease (atPort s.dev) t.val (bits v 1 0) = (ledgerResume (f (atPort s.dev)) t.val, true))
    (hP : P (answerWrite (ledgerResume (f (atPort s.dev)) t.val) true)) : EndsDev c s P :=
  ends_command hc hs (unpaired_tileOff ..) (regCmd_frzRelease _ _ t.isLt ..) (by
    rw [hf]
    dsimp only
    rw [commandEnd_taken]
    exact hP)

theorem frzRelease_return (hout : (svc d t).state = .out) (hfrozen : (svc d t).reason = .frozen) :
    frzRelease d t 1 = (ledgerResume (startReturn d t) t, true) := by
  rw [frzRelease, hout, hfrozen]
  rfl

/-- KEEP_OUT: the tile stays out, its snapshot dropped. -/
def keepOut (t : Nat) (d : Dev) : Dev := onSvc d t fun s => { s with reason := .keepOut, snap := none }

theorem frzRelease_keepOut (hout : (svc d t).state = .out) (hfrozen : (svc d t).reason = .frozen) :
    frzRelease d t 2 = (ledgerResume (keepOut t d) t, true) := by
  rw [frzRelease, hout, hfrozen]
  rfl

theorem frzRelease_returnAll (hout : (svc d t).state = .out) (hfrozen : (svc d t).reason = .frozen) :
    frzRelease d t 3 = (ledgerResume (startReturnAll d t) t, true) := by
  rw [frzRelease, hout, hfrozen]
  rfl

theorem frzRelease_not_frozen {a : Nat} (ha : a ≠ 0) (h : ¬((svc d t).state = .out ∧ (svc d t).reason = .frozen)) :
    frzRelease d t a = (d, false) := by
  rw [frzRelease, if_neg ha, if_pos (by rw [Bool.not_eq_true', Bool.and_eq_false_iff, decide_eq_false_iff_not, decide_eq_false_iff_not]; exact not_and_or.mp h)]

theorem ends_frzRelease_ignored {c : Instr} {s : State} {t : Fin 320} {v : Word} (hc : exec c s = hostCmd (tileOff t.val 0x04C) v s)
    (hs : hostServed s.dev (tileOff t.val 0x04C)) (hv : bits v 1 0 ≠ 0)
    (h : ¬((svc s.dev t.val).state = .out ∧ (svc s.dev t.val).reason = .frozen)) :
    EndsDev c s fun d => d.tiles = s.dev.tiles ∧ d.mend = s.dev.mend ∧ ignored d :=
  ends_command hc hs (unpaired_tileOff ..) (regCmd_frzRelease _ _ t.isLt ..) (by
    rw [frzRelease_not_frozen (atPort s.dev) t.val hv h]
    dsimp only
    rw [commandEnd_ignored (isHemCmd_frzRelease ..)]
    exact ⟨lint_tiles .., lint_mend .., rfl⟩)

end Release

/-! ## The TRAIN section that waits (R275, R496) -/

section Ledger
variable (d : Dev) (t : Nat)

theorem regs_ledgerPost (off n v : Nat) : (ledgerPost t off n v d).regs = d.regs :=
  List.foldlRecOn (motive := fun e : Dev => e.regs = d.regs) _ _ rfl fun _ h _ _ => h

theorem mend_ledgerPost (off n v : Nat) : (ledgerPost t off n v d).mend = d.mend :=
  List.foldlRecOn (motive := fun e : Dev => e.mend = d.mend) _ _ rfl fun _ h _ _ => h

theorem regs_ledgerResume : (ledgerResume d t).regs = d.regs := by
  unfold ledgerResume
  split
  · exact regs_ledgerPost ..
  · rfl

theorem mend_ledgerResume : (ledgerResume d t).mend = d.mend := by
  unfold ledgerResume
  split
  · exact mend_ledgerPost ..
  · rfl

/-- M21's write of a section changes the tile's Ledger jobs alone. -/
theorem svc_ledgerResume : svc (ledgerResume d t) t = { svc d t with led := (svc (ledgerResume d t) t).led } := by
  unfold ledgerResume
  split
  · rw [(ledgerPost_asks ..).1, svc_onSvc]
  · rfl

theorem trainWaits_grownLed (l : List LedJob) : ((grownLed 0x40 63 l).any fun j => j.off = 0x40) = true := by
  unfold grownLed
  split
  next h =>
    obtain ⟨j, hj, hoff⟩ := List.any_eq_true.mp h
    exact List.any_eq_true.mpr ⟨{ j with left := j.left + 2 * 63 }, List.mem_map.mpr ⟨j, hj, if_pos hoff⟩, hoff⟩
  next => rw [List.any_append]; simp

theorem resumesTrain_ledgerResume {d e : Dev} {t : Nat} (hled : (svc e t).led = (svc d t).led) (hreg : e.reg = d.reg) :
    resumesTrain d (ledgerResume e t) t := by
  have hqueue : (getMaster e 21).queue = (getMaster d 21).queue := congrArg Master.queue (getMaster_congr hreg 21)
  have hwaits : trainWaits e t = trainWaits d t := congrArg (fun l : List LedJob => l.any fun j => j.off = 0x40) hled
  refine ⟨fun h => ?_, fun h => ?_⟩
  · rw [ledgerResume, if_pos (hwaits.trans h)]
    obtain ⟨hsvc, -, hasked⟩ := ledgerPost_asks (onSvc e t fun s => { s with led := s.led.filter fun j => j.off ≠ 0x40 }) t 0x40 63
      (svc e t).hem.values
    refine ⟨?_, hasked.trans (congrArg (fun q : List Nat => q.length + 63) hqueue)⟩
    unfold trainWaits
    rw [hsvc]
    exact trainWaits_grownLed _
  · rw [ledgerResume, if_neg (ne_true_of_eq_false (hwaits.trans h))]
    exact ⟨hled, hqueue⟩

theorem resumesTrain_answered {d e : Dev} {t : Nat} (h : resumesTrain d e t) (ok : Bool) : resumesTrain d (answerWrite e ok) t := h

end Ledger

/-! ## Marking a panel (R376) -/

/-- What a look into the Mend map leaves alone. -/
def MarksOnly (d e : Dev) : Prop := e.tiles = d.tiles ∧ e.reg = d.reg

section Marks
variable (d : Dev)

theorem MarksOnly.trans {d e f : Dev} (h : MarksOnly d e) (h' : MarksOnly e f) : MarksOnly d f :=
  ⟨h'.1.trans h.1, h'.2.trans h.2⟩

theorem MarksOnly.foldl {α : Type} {g : Dev → α → Dev} (hg : ∀ d a, MarksOnly d (g d a)) (l : List α) (d : Dev) :
    MarksOnly d (l.foldl g d) :=
  List.foldlRecOn (motive := MarksOnly d) l g ⟨rfl, rfl⟩ fun e he a _ => he.trans (hg e a)

theorem marksOnly_raise (e : Nat) (m b : Option Nat) : MarksOnly d (raise d e m b) := ⟨raise_tiles .., raise_reg ..⟩

theorem marksOnly_putMend (bolt : Nat) (v : Bool) : MarksOnly d (putMend d bolt v) := by
  unfold putMend
  split
  · exact ⟨rfl, rfl⟩
  · split
    · exact ⟨rfl, rfl⟩
    · exact ⟨rfl, rfl⟩

theorem marksOnly_markBolt (bolt : Nat) (v : Bool) : MarksOnly d (markBolt d bolt v) := by
  unfold markBolt withDouble
  split
  · exact ⟨rfl, rfl⟩
  · dsimp only
    split
    · exact (marksOnly_putMend ..).trans (marksOnly_raise ..)
    · exact marksOnly_putMend ..

theorem marksOnly_mendLook (bolt : Nat) : MarksOnly d (mendLook d bolt) := by
  unfold mendLook
  extract_lets w m fixed d1
  have hmarked : MarksOnly d d1 := MarksOnly.trans (e := fixed) ⟨rfl, rfl⟩ (.foldl (fun d _ => marksOnly_markBolt d ..) _ fixed)
  split
  · exact ⟨rfl, rfl⟩
  · exact MarksOnly.trans (e := fixed) ⟨rfl, rfl⟩ ⟨rcount_tiles .., rcount_reg ..⟩
  · have hcounted : MarksOnly d (rcount d1 0xB024 31 16 1) := hmarked.trans ⟨rcount_tiles .., rcount_reg ..⟩
    exact (hcounted.trans (marksOnly_raise ..)).trans ⟨lint_tiles .., lint_reg ..⟩

/-- The instance with the broken words of a panel's Mend map looked up. -/
def panelLooked (d : Dev) (p : Nat) : Dev :=
  ((d.mend.errs.map Prod.fst).filter fun w => (List.range 64).any fun i => boltPanel d (64 * w + i) = p).foldl
    (fun d w => mendLook d (64 * w)) d

theorem markPanel_eq (p : Nat) : markPanel d p =
    { panelLooked d p with mend := { (panelLooked d p).mend with
        panels := insertNat (panelLooked d p).mend.panels p
        diff := (panelLooked d p).mend.diff.filter fun b => boltPanel (panelLooked d p) b ≠ p } } := rfl

theorem marksOnly_markPanel (p : Nat) : MarksOnly d (markPanel d p) :=
  MarksOnly.trans (e := panelLooked d p) (.foldl (fun d _ => marksOnly_mendLook d ..) _ d) ⟨rfl, rfl⟩

theorem mem_insertNat_self (l : List Nat) (x : Nat) : x ∈ insertNat l x := by
  induction l with
  | nil => exact List.mem_singleton_self x
  | cons a l ih =>
    unfold insertNat
    split
    · exact List.mem_cons_self
    · split
      next h => exact h ▸ List.mem_cons_self
      next => exact List.mem_cons_of_mem a ih

theorem boltPanel_congr {d e : Dev} (h : ∀ k, 0xA0 ≤ k → rget e k = rget d k) (b : Nat) : boltPanel e b = boltPanel d b := by
  have horder (r : Nat) : foldOrder e r = foldOrder d r := by rw [foldOrder, foldOrder, rbits, rbits, h _ (by omega)]
  have hstripe (r ia : Nat) : stripeOf e r ia = stripeOf d r ia := by rw [stripeOf, stripeOf, horder]
  unfold boltPanel
  split
  · rw [hstripe]
  · rfl

/-- Every bolt of a panel that has been marked is marked. -/
theorem mendHas_of_markPanel {d e : Dev} {p b : Nat} (hmend : e.mend = (markPanel d p).mend)
    (hregs : ∀ k, 0xA0 ≤ k → rget e k = rget (markPanel d p) k) (hb : boltPanel e b = p) : mendHas e b = true := by
  have hpanel : boltPanel (panelLooked d p) b = p := (boltPanel_congr hregs b).symm.trans hb
  have hin : e.mend.panels.contains (boltPanel e b) = true := by
    rw [hmend, hb]
    exact List.contains_iff_mem.mpr (mem_insertNat_self _ p)
  have hout : e.mend.diff.contains b = false := by
    rw [hmend, markPanel_eq, ← Bool.not_eq_true, List.contains_iff_mem]
    intro hmem
    exact absurd hpanel (by simpa using (List.mem_filter.mp hmem).2)
  rw [mendHas, mendBit, hin, hout]
  exact Bool.or_true _

end Marks

/-! ## The three actions -/

section Actions
variable {s : State} {t : Fin 320} (hs : hostServed s.dev (tileOff t.val 0x04C)) (hout : (svc s.dev t.val).state = .out)
  (hfrozen : (svc s.dev t.val).reason = .frozen)

theorem stopLoop_led (x : Svc) : (stopLoop x).led = x.led := by
  unfold stopLoop
  split <;> rfl

theorem nextWalk_tiles (d : Dev) (p : Nat) : (nextWalk d p).tiles = d.tiles := by
  unfold nextWalk
  dsimp only
  split
  · split <;> rfl
  · rfl

theorem nextWalk_reg (d : Dev) (p : Nat) : (nextWalk d p).reg = d.reg := by
  unfold nextWalk
  dsimp only
  split
  · split <;> rfl
  · rfl

theorem startReturn_reg (d : Dev) (t : Nat) : (startReturn d t).reg = d.reg := nextWalk_reg ..

theorem svc_startReturn (d : Dev) (t : Nat) :
    svc (startReturn d t) t = { stopLoop (svc d t) with state := .returning, reason := .marking, warmOut := false, snap := none } :=
  (congrArg Tile.svc (getTile_congr (nextWalk_tiles ..) t)).trans
    (svc_onSvc d t fun s => { stopLoop s with state := .returning, reason := .marking, warmOut := false, snap := none })

/-- The tile waits for the scan of its panel (R376). -/
def awaitsScan (x : Svc) : Svc := { stopLoop x with state := .out, reason := .marking, warmOut := false, snap := none }

theorem startReturnAll_eq (d : Dev) (t : Nat) : startReturnAll d t = onSvc (markPanel d (panelOf d t)) t awaitsScan ∨
    startReturnAll d t = raise (onSvc (markPanel d (panelOf d t)) t awaitsScan) Ev.PANEL_DOUBLE := by
  change withDouble (panelOf d t) (fun e => onSvc (markPanel e (panelOf d t)) t awaitsScan) d = _ ∨
    withDouble (panelOf d t) (fun e => onSvc (markPanel e (panelOf d t)) t awaitsScan) d = _
  unfold withDouble
  dsimp only
  split
  · exact .inr rfl
  · exact .inl rfl

theorem svc_startReturnAll (d : Dev) (t : Nat) : svc (startReturnAll d t) t = awaitsScan (svc d t) := by
  have hsvc : svc (markPanel d (panelOf d t)) t = svc d t := congrArg Tile.svc (getTile_congr (marksOnly_markPanel ..).1 t)
  have hwaits : svc (onSvc (markPanel d (panelOf d t)) t awaitsScan) t = awaitsScan (svc d t) := by rw [svc_onSvc, hsvc]
  obtain h | h := startReturnAll_eq d t
  · rw [h, hwaits]
  · rw [h]
    exact (congrArg Tile.svc (getTile_congr (raise_tiles ..) t)).trans hwaits

theorem startReturnAll_reg (d : Dev) (t : Nat) : (startReturnAll d t).reg = d.reg := by
  have hreg : (markPanel d (panelOf d t)).reg = d.reg := (marksOnly_markPanel ..).2
  obtain h | h := startReturnAll_eq d t
  · rw [h, onSvc_reg, hreg]
  · rw [h, raise_reg, onSvc_reg, hreg]

theorem startReturnAll_mend (d : Dev) (t : Nat) : (startReturnAll d t).mend = (markPanel d (panelOf d t)).mend := by
  obtain h | h := startReturnAll_eq d t
  · rw [h, onSvc_mend]
  · rw [h, raise_mend, onSvc_mend]

theorem rget_startReturnAll (d : Dev) (t : Nat) {k : Nat} (hk : 0xA0 ≤ k) :
    rget (startReturnAll d t) k = rget (markPanel d (panelOf d t)) k := by
  obtain h | h := startReturnAll_eq d t
  · rw [h, rget_congr (onSvc_regs ..)]
  · rw [h, rget_raise_ne _ _ _ _ _ (.inr hk), rget_congr (onSvc_regs ..)]

include hs hout hfrozen

theorem ends_frzReturn : EndsDev (.frzReturn t) s fun d =>
    (svc d t.val).state = .returning ∧ (svc d t.val).snap = none ∧ okay d ∧ resumesTrain s.dev d t.val := by
  refine ends_frzRelease (c := .frzReturn t) (v := 1) (f := fun d => startReturn d t.val) rfl hs
    (frzRelease_return (atPort s.dev) t.val hout hfrozen) ?_
  have hsvc : svc (startReturn (atPort s.dev) t.val) t.val = _ := svc_startReturn ..
  have hresumed := svc_ledgerResume (startReturn (atPort s.dev) t.val) t.val
  refine ⟨?_, ?_, rfl, resumesTrain_ledgerResume (d := s.dev) ?_ (startReturn_reg ..)⟩
  · exact (congrArg Svc.state hresumed).trans (congrArg Svc.state hsvc)
  · exact (congrArg Svc.snap hresumed).trans (congrArg Svc.snap hsvc)
  · exact (congrArg Svc.led hsvc).trans (stopLoop_led _)

theorem ends_frzKeepOut : EndsDev (.frzKeepOut t) s fun d =>
    svc d t.val = { svc s.dev t.val with reason := .keepOut, snap := none, led := (svc d t.val).led } ∧ okay d ∧
    d.regs = s.dev.regs ∧ resumesTrain s.dev d t.val := by
  refine ends_frzRelease (c := .frzKeepOut t) (v := 2) (f := keepOut t.val) rfl hs
    (frzRelease_keepOut (atPort s.dev) t.val hout hfrozen) ?_
  have hsvc : svc (keepOut t.val (atPort s.dev)) t.val = _ := svc_onSvc ..
  have hresumed := svc_ledgerResume (keepOut t.val (atPort s.dev)) t.val
  refine ⟨?_, rfl, regs_ledgerResume .., resumesTrain_ledgerResume (d := s.dev) ?_ rfl⟩
  · refine hresumed.trans ?_
    rw [hsvc]
    rfl
  · rw [hsvc]
    rfl

theorem ends_frzReturnAll : EndsDev (.frzReturnAll t) s fun d =>
    (svc d t.val).state = .out ∧ (svc d t.val).reason = .marking ∧ (svc d t.val).snap = none ∧ okay d ∧
    resumesTrain s.dev d t.val ∧ ∀ b, boltPanel d b = panelOf s.dev t.val → mendHas d b = true := by
  refine ends_frzRelease (c := .frzReturnAll t) (v := 3) (f := fun d => startReturnAll d t.val) rfl hs
    (frzRelease_returnAll (atPort s.dev) t.val hout hfrozen) ?_
  have hsvc : svc (startReturnAll (atPort s.dev) t.val) t.val = awaitsScan (svc s.dev t.val) := svc_startReturnAll ..
  have hreg : (startReturnAll (atPort s.dev) t.val).reg = s.dev.reg := startReturnAll_reg ..
  have hmend := startReturnAll_mend (atPort s.dev) t.val
  have hregs (k : Nat) (hk : 0xA0 ≤ k) := rget_startReturnAll (atPort s.dev) t.val hk
  revert hsvc hreg hmend hregs
  generalize startReturnAll (atPort s.dev) t.val = x
  intro hsvc hreg hmend hregs
  have hresumed := svc_ledgerResume x t.val
  have hled : (svc x t.val).led = (svc s.dev t.val).led := by
    rw [hsvc]
    exact stopLoop_led _
  refine ⟨?_, ?_, ?_, rfl, resumesTrain_answered (resumesTrain_ledgerResume hled hreg) true, fun b hb => ?_⟩
  · exact (congrArg Svc.state hresumed).trans (congrArg Svc.state hsvc)
  · exact (congrArg Svc.reason hresumed).trans (congrArg Svc.reason hsvc)
  · exact (congrArg Svc.snap hresumed).trans (congrArg Svc.snap hsvc)
  · exact mendHas_of_markPanel (e := answerWrite (ledgerResume x t.val) true) ((mend_ledgerResume x t.val).trans hmend)
      (fun k hk => (rget_congr (regs_ledgerResume x t.val) k).trans (hregs k hk)) hb

end Actions

end Sys2Proof.Machine
end

section
open Sys2Proof Sys2Proof.Machine Sys2Proof.Claims

/-- Settles O36: the parity of the driven edges, the frame of what a layer discards, and the frame of the settling that a freeze ends with. -/
theorem parityReportThenFreeze : Obligations.ParityReportThenFreeze := by
  unfold Obligations.ParityReportThenFreeze
  refine ⟨fun c t n safe f _ => ?_, ⟨?_, ?_, ?_, ?_, ?_, ?_⟩, ?_⟩
  · rw [busFails_busAt]
    exact ⟨rfl, rfl⟩
  · intro t src f onRef at_ n row col s hsrc hck hout hreport
    exact endsDev_of_onDev (f := (parityReport · t.val src f onRef at_)) rfl
      (parityReport_stops hsrc hck hout (reportedCycle_of_report hreport) rfl)
  · intro t src f at_ n row col s h0 h1 hcycle
    exact failingCycle_of_not_safe h0 h1 hcycle
  · intro t src f onRef at_ n row e reg old s ht hck hcycle hwrites hat hrank hbit hundo hreg
    have hsrc : src ≠ 0 := by
      rintro rfl
      simp at hbit
    obtain ⟨hmode, hnone⟩ := takenBack_parityReport (onRef := onRef) hsrc hck (reportedCycle_of_report (.inr ⟨ht, hcycle⟩))
      (takenBack_discard hwrites hat hrank hbit hundo hreg) (hreg.imp id And.left)
    exact endsDev_of_onDev (f := (parityReport · t.val src f onRef at_)) rfl ⟨hmode, hnone⟩
  · intro t src f onRef at_ s hck
    change onDev s (parityReport · t.val src f onRef at_) = _
    rw [onDev, parityReport_of_no_clock hck]
  · intro t src f onRef at_ s ht hr0 hr1 hc0 hc1
    change onDev s (parityReport · t.val src f onRef at_) = _
    rw [onDev, parityReport_of_no_failure]
    rw [reportedCycle, if_neg (by rw [isFar, decide_eq_true_eq]; omega)]
    exact failingCycle_of_even hr0 hr1 hc0 hc1
  · intro t a s halert hbare hin _ _ hidle
    exact ends_tileFreeze halert hbare hin hidle
  · intro t s hs
    refine ⟨fun hout hfrozen => ⟨ends_frzReturn hs hout hfrozen, ends_frzKeepOut hs hout hfrozen, ends_frzReturnAll hs hout hfrozen⟩,
      fun hnot c hc => ?_⟩
    obtain rfl | rfl | rfl := hc
    · exact ends_frzRelease_ignored (v := 1) rfl hs (by decide) hnot
    · exact ends_frzRelease_ignored (v := 2) rfl hs (by decide) hnot
    · exact ends_frzRelease_ignored (v := 3) rfl hs (by decide) hnot

end
